-- ==== Sys2Proof/Word.lean ====
section
/-! DEFINITION. The widths the spec uses everywhere: bytes, 16-, 32- and 64-bit words (R4, R47, R77). -/
namespace Sys2Proof

/-- One byte of storage (R4). -/
abbrev Byte := BitVec 8
/-- A 16-bit word: a q register (R150) or a steal LFSR (R242). -/
abbrev Half := BitVec 16
/-- A 32-bit word: an instruction word (R47) or one lane of a vector register (R83). -/
abbrev Word := BitVec 32
/-- A 64-bit word: an s register, a pointer, a mask of lanes, a management register. -/
abbrev DWord := BitVec 64

end Sys2Proof
end

