-- ==== Sys2Proof/Syntax.lean ====
section
/-! DEFINITION. The syntax of Kelin: hint words (R60-R64), the eleven instruction formats with every field of the word
kept, reserved ones included (R49, R51), and the one inductive of the part's steps: one constructor for each row of
spec/opcode_table.json, the 185 instructions of the opcode map (R66, R67) and the 140 steps of the part's units. -/
namespace Sys2Proof

/-- A hint word with its 24 payload bits (R60 to R64). -/
inductive Hint where
  | run (p : BitVec 24)
  | ximm (p : BitVec 24)
  | xrta (p : BitVec 24)
  | xrtc (p : BitVec 24)
  | xmod (p : BitVec 24)
deriving DecidableEq, Repr

/-- Format V: two vector sources (R49), the fields from bit 23 downwards. -/
structure FmtV where
  d : BitVec 6
  a : BitVec 7
  b : BitVec 7
  ra : BitVec 2
  rb : BitVec 2
deriving DecidableEq, Repr

/-- Format T: three vector sources (R49), the fields from bit 23 downwards. -/
structure FmtT where
  d : BitVec 6
  a : BitVec 6
  b : BitVec 6
  c : BitVec 6
deriving DecidableEq, Repr

/-- Format I: register and immediate (R49), the fields from bit 23 downwards. -/
structure FmtI where
  d : BitVec 6
  a : BitVec 7
  imm : BitVec 11
deriving DecidableEq, Repr

/-- Format P: compare to predicate (R49), the fields from bit 23 downwards. -/
structure FmtP where
  pd : BitVec 4
  cc : BitVec 4
  a : BitVec 7
  b : BitVec 7
  ra : BitVec 1
  rb : BitVec 1
deriving DecidableEq, Repr

/-- Format B: branch (R49), the fields from bit 23 downwards. -/
structure FmtB where
  uni : BitVec 1
  p : BitVec 4
  neg : BitVec 1
  off : BitVec 18
deriving DecidableEq, Repr

/-- Format U: uniform (R49), the fields from bit 23 downwards. -/
structure FmtU where
  sd : BitVec 6
  sa : BitVec 6
  sb : BitVec 6
  f : BitVec 6
deriving DecidableEq, Repr

/-- Format S: SMOVI alone, of format U (R49), the fields from bit 23 downwards. -/
structure FmtS where
  sd : BitVec 6
  imm : BitVec 18
deriving DecidableEq, Repr

/-- Format M: memory (R49), the fields from bit 23 downwards. -/
structure FmtM where
  d : BitVec 6
  base : BitVec 6
  index : BitVec 6
  width : BitVec 3
  ord : BitVec 3
deriving DecidableEq, Repr

/-- Format W: WAIT (R49), the fields from bit 23 downwards. -/
structure FmtW where
  ld : BitVec 5
  st : BitVec 5
  cp : BitVec 5
  tl : BitVec 5
  ms : BitVec 4
deriving DecidableEq, Repr

/-- Format C: copy, task, barrier, system (R49), the fields from bit 23 downwards. -/
structure FmtC where
  sa : BitVec 6
  sb : BitVec 6
  sc : BitVec 6
  f : BitVec 6
deriving DecidableEq, Repr

/-- Format X: tile (R49), the fields from bit 23 downwards. -/
structure FmtX where
  fD : BitVec 4
  fA : BitVec 4
  fB : BitVec 4
  s : BitVec 6
  f : BitVec 6
deriving DecidableEq, Repr

/-- The steps of the part, one constructor for each row of the opcode table. An instruction carries the hint words of
its hint sequence (R60) and the fields of its word. A step of a unit carries nothing: the numbers of the core, slot, record,
command or access that it concerns, and the port and value of a host access, stand in the state's operands
(Machine.StepArgs), where the turn that the machine takes puts them. -/
inductive Instr where
  | nop (h : List Hint) (f : FmtC)
  | bra (h : List Hint) (f : FmtB)
  | brx (h : List Hint) (f : FmtC)
  | call (h : List Hint) (f : FmtB)
  | callx (h : List Hint) (f : FmtC)
  | ret (h : List Hint) (f : FmtC)
  | rcv (h : List Hint) (f : FmtB)
  | fuse (h : List Hint) (f : FmtC)
  | brk (h : List Hint) (f : FmtB)
  | exit (h : List Hint) (f : FmtB)
  | wait (h : List Hint) (f : FmtW)
  | park (h : List Hint) (f : FmtC)
  | yield (h : List Hint) (f : FmtC)
  | trap (h : List Hint) (f : FmtC)
  | emset (h : List Hint) (f : FmtC)
  | emget (h : List Hint) (f : FmtC)
  | bkpt (h : List Hint) (f : FmtC)
  | iadd (h : List Hint) (f : FmtV)
  | isub (h : List Hint) (f : FmtV)
  | imul (h : List Hint) (f : FmtV)
  | imulh (h : List Hint) (f : FmtV)
  | nmulh (h : List Hint) (f : FmtV)
  | imad (h : List Hint) (f : FmtT)
  | idiv (h : List Hint) (f : FmtV)
  | ndiv (h : List Hint) (f : FmtV)
  | irem (h : List Hint) (f : FmtV)
  | nrem (h : List Hint) (f : FmtV)
  | imin (h : List Hint) (f : FmtV)
  | imax (h : List Hint) (f : FmtV)
  | nmin (h : List Hint) (f : FmtV)
  | nmax (h : List Hint) (f : FmtV)
  | iabs (h : List Hint) (f : FmtV)
  | ineg (h : List Hint) (f : FmtV)
  | andL (h : List Hint) (f : FmtV)
  | orL (h : List Hint) (f : FmtV)
  | xorL (h : List Hint) (f : FmtV)
  | andn (h : List Hint) (f : FmtV)
  | shl (h : List Hint) (f : FmtV)
  | shrl (h : List Hint) (f : FmtV)
  | shra (h : List Hint) (f : FmtV)
  | rotl (h : List Hint) (f : FmtV)
  | bfx (h : List Hint) (f : FmtI)
  | bfi (h : List Hint) (f : FmtI)
  | popc (h : List Hint) (f : FmtV)
  | clz (h : List Hint) (f : FmtV)
  | brev (h : List Hint) (f : FmtV)
  | bool3 (h : List Hint) (f : FmtT)
  | iaddi (h : List Hint) (f : FmtI)
  | mov (h : List Hint) (f : FmtV)
  | fadd (h : List Hint) (f : FmtV)
  | fsub (h : List Hint) (f : FmtV)
  | fmul (h : List Hint) (f : FmtV)
  | ffma (h : List Hint) (f : FmtT)
  | fmin (h : List Hint) (f : FmtV)
  | fmax (h : List Hint) (f : FmtV)
  | fcpys (h : List Hint) (f : FmtV)
  | frnd (h : List Hint) (f : FmtV)
  | fdiv (h : List Hint) (f : FmtV)
  | fsqrt (h : List Hint) (f : FmtV)
  | hxadd (h : List Hint) (f : FmtV)
  | hxmul (h : List Hint) (f : FmtV)
  | hxfma (h : List Hint) (f : FmtT)
  | bxadd (h : List Hint) (f : FmtV)
  | bxmul (h : List Hint) (f : FmtV)
  | bxfma (h : List Hint) (f : FmtT)
  | dadd (h : List Hint) (f : FmtV)
  | dmul (h : List Hint) (f : FmtV)
  | dfma (h : List Hint) (f : FmtT)
  | dmin (h : List Hint) (f : FmtV)
  | dmax (h : List Hint) (f : FmtV)
  | ddiv (h : List Hint) (f : FmtV)
  | dsqrt (h : List Hint) (f : FmtV)
  | cvt (h : List Hint) (f : FmtI)
  | pack (h : List Hint) (f : FmtI)
  | unpk (h : List Hint) (f : FmtI)
  | fdot4 (h : List Hint) (f : FmtT)
  | idot4 (h : List Hint) (f : FmtT)
  | ldexp (h : List Hint) (f : FmtV)
  | frexp (h : List Hint) (f : FmtV)
  | fclass (h : List Hint) (f : FmtV)
  | icmp (h : List Hint) (f : FmtP)
  | ncmp (h : List Hint) (f : FmtP)
  | fcmp (h : List Hint) (f : FmtP)
  | dcmp (h : List Hint) (f : FmtP)
  | sel (h : List Hint) (f : FmtT)
  | pand (h : List Hint) (f : FmtU)
  | por (h : List Hint) (f : FmtU)
  | pxor (h : List Hint) (f : FmtU)
  | pandn (h : List Hint) (f : FmtU)
  | pset (h : List Hint) (f : FmtU)
  | pget (h : List Hint) (f : FmtU)
  | pcnt (h : List Hint) (f : FmtU)
  | pff (h : List Hint) (f : FmtU)
  | vote (h : List Hint) (f : FmtP)
  | elect (h : List Hint) (f : FmtP)
  | qset (h : List Hint) (f : FmtU)
  | qget (h : List Hint) (f : FmtU)
  | matchL (h : List Hint) (f : FmtV)
  | rank (h : List Hint) (f : FmtV)
  | balance (h : List Hint) (f : FmtV)
  | xsel (h : List Hint) (f : FmtI)
  | xput (h : List Hint) (f : FmtI)
  | scan (h : List Hint) (f : FmtV)
  | red (h : List Hint) (f : FmtV)
  | fscan (h : List Hint) (f : FmtV)
  | fred (h : List Hint) (f : FmtV)
  | compact (h : List Hint) (f : FmtV)
  | rcp (h : List Hint) (f : FmtV)
  | rsq (h : List Hint) (f : FmtV)
  | exp2 (h : List Hint) (f : FmtV)
  | log2 (h : List Hint) (f : FmtV)
  | sinp (h : List Hint) (f : FmtV)
  | cosp (h : List Hint) (f : FmtV)
  | tanh (h : List Hint) (f : FmtV)
  | sigm (h : List Hint) (f : FmtV)
  | hrcp (h : List Hint) (f : FmtV)
  | hexp2 (h : List Hint) (f : FmtV)
  | sftm (h : List Hint) (f : FmtV)
  | sadd (h : List Hint) (f : FmtU)
  | ssub (h : List Hint) (f : FmtU)
  | smul (h : List Hint) (f : FmtU)
  | sand (h : List Hint) (f : FmtU)
  | sor (h : List Hint) (f : FmtU)
  | sxor (h : List Hint) (f : FmtU)
  | sshl (h : List Hint) (f : FmtU)
  | sshrl (h : List Hint) (f : FmtU)
  | sshra (h : List Hint) (f : FmtU)
  | smin (h : List Hint) (f : FmtU)
  | smax (h : List Hint) (f : FmtU)
  | scmp (h : List Hint) (f : FmtU)
  | ssel (h : List Hint) (f : FmtU)
  | smovi (h : List Hint) (f : FmtS)
  | sget (h : List Hint) (f : FmtU)
  | sset (h : List Hint) (f : FmtU)
  | ld (h : List Hint) (f : FmtM)
  | st (h : List Hint) (f : FmtM)
  | ldu (h : List Hint) (f : FmtM)
  | stu (h : List Hint) (f : FmtM)
  | ldln (h : List Hint) (f : FmtM)
  | ldd (h : List Hint) (f : FmtM)
  | std (h : List Hint) (f : FmtM)
  | pref (h : List Hint) (f : FmtM)
  | fence (h : List Hint) (f : FmtC)
  | cinv (h : List Hint) (f : FmtC)
  | cwb (h : List Hint) (f : FmtC)
  | atom (h : List Hint) (f : FmtM)
  | amon (h : List Hint) (f : FmtM)
  | atomu (h : List Hint) (f : FmtC)
  | cas (h : List Hint) (f : FmtM)
  | casu (h : List Hint) (f : FmtC)
  | binit (h : List Hint) (f : FmtC)
  | badd (h : List Hint) (f : FmtC)
  | bwait (h : List Hint) (f : FmtC)
  | bdrop (h : List Hint) (f : FmtC)
  | copy (h : List Hint) (f : FmtC)
  | copyt (h : List Hint) (f : FmtC)
  | kick (h : List Hint) (f : FmtC)
  | mdld (h : List Hint) (f : FmtX)
  | spawn (h : List Hint) (f : FmtC)
  | spawnr (h : List Hint) (f : FmtC)
  | joinF (h : List Hint) (f : FmtC)
  | fset (h : List Hint) (f : FmtC)
  | execR (h : List Hint) (f : FmtC)
  | lease (h : List Hint) (f : FmtC)
  | unlease (h : List Hint) (f : FmtC)
  | tld (h : List Hint) (f : FmtX)
  | tst (h : List Hint) (f : FmtX)
  | tzero (h : List Hint) (f : FmtX)
  | tcvt (h : List Hint) (f : FmtX)
  | mma (h : List Hint) (f : FmtX)
  | mmaq (h : List Hint) (f : FmtX)
  | mmas (h : List Hint) (f : FmtX)
  | mmak (h : List Hint) (f : FmtX)
  | scout (h : List Hint) (f : FmtX)
  | thresh (h : List Hint) (f : FmtX)
  | ablk (h : List Hint) (f : FmtX)
  | ard (h : List Hint) (f : FmtX)
  | arow (h : List Hint) (f : FmtX)
  | ascale (h : List Hint) (f : FmtX)
  | aexp (h : List Hint) (f : FmtX)
  | azero (h : List Hint) (f : FmtX)
  | publish (h : List Hint) (f : FmtC)
  | probe (h : List Hint) (f : FmtC)
  | event (h : List Hint) (f : FmtC)
  | ordmark (h : List Hint) (f : FmtC)
  | unassignedOpcode (h : List Hint) (w : Word)
  | seventhHintWord (h : List Hint)
  | claimServed
  | slotBind
  | taskEntry
  | compactionMove
  | compactionCopyEnd
  | offCorePark
  | saveComplete
  | restoreGroup
  | restoreComplete
  | preemptRequest
  | preemptTimeout
  | taskEnd
  | counterRetire
  | loadComplete
  | storeAcknowledge
  | memoryRequestAtHome
  | atomicAtHome
  | deterministicAmonArrival
  | routerMerge
  | waitRequestAtHome
  | waitRequestRetry
  | wake
  | descriptorFetch
  | copySegment
  | copyListEntry
  | cpeKick
  | tileOpStart
  | tileOpComplete
  | engineWatchdog
  | blockScrubDone
  | tileFetchFault
  | relaunchPush
  | stagingStart
  | stagingComplete
  | stagingFault
  | leaseRequest
  | leaseGranted
  | leaseRenewal
  | leaseLapse
  | recordAvailable
  | recordAged
  | stealRequest
  | stealBackoff
  | stealRequestAtVictim
  | stealReply
  | inboundArrival
  | spawnrReply
  | inboundGrant
  | spawnrResend
  | queueEnable
  | queueDisable
  | queueRun
  | queueDoorbell
  | queuePoll
  | launch
  | graph
  | copyPacket
  | barrierAdd
  | barrierWait
  | linkRelease
  | linkWait
  | publishPacket
  | marker
  | packetComplete
  | qlinkCfgWrite
  | kernelEntryTaken
  | rootPlacement
  | kernelDone
  | cancelKernel
  | cancelRegion
  | regionWatchdog
  | contextOpen
  | contextClose
  | clusterRelease
  | releaseComplete
  | contextDrained
  | scrubComplete
  | semAcquire
  | semRelease
  | semLapse
  | spadSplitWrite
  | ctxFqHeadRead
  | pageMigrate
  | pageEvict
  | pageUnmap
  | pageSync
  | spansCommand
  | collapseComplete
  | migrationDone
  | drainDone
  | linkTrainStart
  | linkTrained
  | linkTrainTimeout
  | linkDisable
  | badFlit
  | retryDone
  | retryExhausted
  | routerForward
  | vcPromote
  | routerPowerDown
  | routerWake
  | routerWakeDone
  | peerAccess
  | hostApertureWrite
  | hostApertureRead
  | uncorrectable
  | powerGood
  | partReset
  | bistComplete
  | handoverStart
  | fwImageWrite
  | handoverCommit
  | fwStatRead
  | attestationRequest
  | commandMessage
  | firmwareTimeout
  | reefInterval
  | droopEvent
  | droopHoldEnd
  | dbgHalt
  | haltComplete
  | dbgRelease
  | dbgStep
  | stepEnded
  | dbgCancelStep
  | dbgDump
  | dbgLoad
  | dbgEvtRead
  | dbgDetach
  | barStatRead
  | tskStatRead
  | tleStatRead
  | nocStatRead
  | krnStatRead
  | lnkPortStatRead
  | lnyStatRead
  | registerWrite
  | invalidPacket
deriving DecidableEq, Repr

end Sys2Proof
end

