-- ==== Sys2Proof/Decode.lean ====
section
/-! DEFINITION. The decoder, total on any bytes and any words (R47, R60, R66, R68), and after it the encoder, both
written from the format tables of R49 and the opcode map of R66. Every field of a word is kept, so that the
encoder gives back the very words that were decoded; which field values fault is stated at issue (R68). -/
namespace Sys2Proof

/-- Why a list of bytes gives no instruction: it ends before the instruction's last word is complete. -/
inductive DecodeError where
  | truncated
deriving DecidableEq, Repr

/-- The fields of a 24-bit payload in each format (R49), and the payload of the fields. -/
def FmtV.ofPayload (p : BitVec 24) : FmtV :=
  { d := p.extractLsb' 18 6, a := p.extractLsb' 11 7, b := p.extractLsb' 4 7, ra := p.extractLsb' 2 2, rb := p.extractLsb' 0 2 }
/-- The payload of format V fields (R49). -/
def FmtV.payload (f : FmtV) : BitVec 24 :=
  f.d ++ f.a ++ f.b ++ f.ra ++ f.rb

/-- The fields of a format T payload (R49). -/
def FmtT.ofPayload (p : BitVec 24) : FmtT :=
  { d := p.extractLsb' 18 6, a := p.extractLsb' 12 6, b := p.extractLsb' 6 6, c := p.extractLsb' 0 6 }
/-- The payload of format T fields (R49). -/
def FmtT.payload (f : FmtT) : BitVec 24 :=
  f.d ++ f.a ++ f.b ++ f.c

/-- The fields of a format I payload (R49). -/
def FmtI.ofPayload (p : BitVec 24) : FmtI :=
  { d := p.extractLsb' 18 6, a := p.extractLsb' 11 7, imm := p.extractLsb' 0 11 }
/-- The payload of format I fields (R49). -/
def FmtI.payload (f : FmtI) : BitVec 24 :=
  f.d ++ f.a ++ f.imm

/-- The fields of a format P payload (R49). -/
def FmtP.ofPayload (p : BitVec 24) : FmtP :=
  { pd := p.extractLsb' 20 4, cc := p.extractLsb' 16 4, a := p.extractLsb' 9 7, b := p.extractLsb' 2 7, ra := p.extractLsb' 1 1, rb := p.extractLsb' 0 1 }
/-- The payload of format P fields (R49). -/
def FmtP.payload (f : FmtP) : BitVec 24 :=
  f.pd ++ f.cc ++ f.a ++ f.b ++ f.ra ++ f.rb

/-- The fields of a format B payload (R49). -/
def FmtB.ofPayload (p : BitVec 24) : FmtB :=
  { uni := p.extractLsb' 23 1, p := p.extractLsb' 19 4, neg := p.extractLsb' 18 1, off := p.extractLsb' 0 18 }
/-- The payload of format B fields (R49). -/
def FmtB.payload (f : FmtB) : BitVec 24 :=
  f.uni ++ f.p ++ f.neg ++ f.off

/-- The fields of a format U payload (R49). -/
def FmtU.ofPayload (p : BitVec 24) : FmtU :=
  { sd := p.extractLsb' 18 6, sa := p.extractLsb' 12 6, sb := p.extractLsb' 6 6, f := p.extractLsb' 0 6 }
/-- The payload of format U fields (R49). -/
def FmtU.payload (f : FmtU) : BitVec 24 :=
  f.sd ++ f.sa ++ f.sb ++ f.f

/-- The fields of a format S payload (R49). -/
def FmtS.ofPayload (p : BitVec 24) : FmtS :=
  { sd := p.extractLsb' 18 6, imm := p.extractLsb' 0 18 }
/-- The payload of format S fields (R49). -/
def FmtS.payload (f : FmtS) : BitVec 24 :=
  f.sd ++ f.imm

/-- The fields of a format M payload (R49). -/
def FmtM.ofPayload (p : BitVec 24) : FmtM :=
  { d := p.extractLsb' 18 6, base := p.extractLsb' 12 6, index := p.extractLsb' 6 6, width := p.extractLsb' 3 3, ord := p.extractLsb' 0 3 }
/-- The payload of format M fields (R49). -/
def FmtM.payload (f : FmtM) : BitVec 24 :=
  f.d ++ f.base ++ f.index ++ f.width ++ f.ord

/-- The fields of a format W payload (R49). -/
def FmtW.ofPayload (p : BitVec 24) : FmtW :=
  { ld := p.extractLsb' 19 5, st := p.extractLsb' 14 5, cp := p.extractLsb' 9 5, tl := p.extractLsb' 4 5, ms := p.extractLsb' 0 4 }
/-- The payload of format W fields (R49). -/
def FmtW.payload (f : FmtW) : BitVec 24 :=
  f.ld ++ f.st ++ f.cp ++ f.tl ++ f.ms

/-- The fields of a format C payload (R49). -/
def FmtC.ofPayload (p : BitVec 24) : FmtC :=
  { sa := p.extractLsb' 18 6, sb := p.extractLsb' 12 6, sc := p.extractLsb' 6 6, f := p.extractLsb' 0 6 }
/-- The payload of format C fields (R49). -/
def FmtC.payload (f : FmtC) : BitVec 24 :=
  f.sa ++ f.sb ++ f.sc ++ f.f

/-- The fields of a format X payload (R49). -/
def FmtX.ofPayload (p : BitVec 24) : FmtX :=
  { fD := p.extractLsb' 20 4, fA := p.extractLsb' 16 4, fB := p.extractLsb' 12 4, s := p.extractLsb' 6 6, f := p.extractLsb' 0 6 }
/-- The payload of format X fields (R49). -/
def FmtX.payload (f : FmtX) : BitVec 24 :=
  f.fD ++ f.fA ++ f.fB ++ f.s ++ f.f

/-- The hint word of an opcode and payload, for the five opcodes of row 0xF (R60). -/
def Hint.ofWord (op : BitVec 8) (p : BitVec 24) : Option Hint :=
  match op.toNat with
  | 0xF0 => some (.run p)
  | 0xF1 => some (.ximm p)
  | 0xF2 => some (.xrta p)
  | 0xF3 => some (.xrtc p)
  | 0xF4 => some (.xmod p)
  | _ => none

/-- The word of a hint (R61 to R64). -/
def Hint.word : Hint → Word
  | .run p => 0xF0#8 ++ p
  | .ximm p => 0xF1#8 ++ p
  | .xrta p => 0xF2#8 ++ p
  | .xrtc p => 0xF3#8 ++ p
  | .xmod p => 0xF4#8 ++ p

/-- The instruction of an opcode that is not a hint word's, after the hint words h of its sequence: the opcode map
(R66), an unassigned opcode being the step that raises ILLEGAL_INSTRUCTION (R68). -/
def Instr.ofWord (h : List Hint) (op : BitVec 8) (p : BitVec 24) : Instr :=
  match op.toNat with
  | 0x00 => .nop h (.ofPayload p)
  | 0x01 => .bra h (.ofPayload p)
  | 0x02 => .brx h (.ofPayload p)
  | 0x03 => .call h (.ofPayload p)
  | 0x04 => .callx h (.ofPayload p)
  | 0x05 => .ret h (.ofPayload p)
  | 0x06 => .rcv h (.ofPayload p)
  | 0x07 => .fuse h (.ofPayload p)
  | 0x08 => .brk h (.ofPayload p)
  | 0x09 => .exit h (.ofPayload p)
  | 0x0A => .wait h (.ofPayload p)
  | 0x0B => .park h (.ofPayload p)
  | 0x0C => .yield h (.ofPayload p)
  | 0x0D => .trap h (.ofPayload p)
  | 0x0E => .emset h (.ofPayload p)
  | 0x0F => .emget h (.ofPayload p)
  | 0xE1 => .bkpt h (.ofPayload p)
  | 0x10 => .iadd h (.ofPayload p)
  | 0x11 => .isub h (.ofPayload p)
  | 0x12 => .imul h (.ofPayload p)
  | 0x13 => .imulh h (.ofPayload p)
  | 0x14 => .nmulh h (.ofPayload p)
  | 0x15 => .imad h (.ofPayload p)
  | 0x16 => .idiv h (.ofPayload p)
  | 0x17 => .ndiv h (.ofPayload p)
  | 0x18 => .irem h (.ofPayload p)
  | 0x19 => .nrem h (.ofPayload p)
  | 0x1A => .imin h (.ofPayload p)
  | 0x1B => .imax h (.ofPayload p)
  | 0x1C => .nmin h (.ofPayload p)
  | 0x1D => .nmax h (.ofPayload p)
  | 0x1E => .iabs h (.ofPayload p)
  | 0x1F => .ineg h (.ofPayload p)
  | 0x20 => .andL h (.ofPayload p)
  | 0x21 => .orL h (.ofPayload p)
  | 0x22 => .xorL h (.ofPayload p)
  | 0x23 => .andn h (.ofPayload p)
  | 0x24 => .shl h (.ofPayload p)
  | 0x25 => .shrl h (.ofPayload p)
  | 0x26 => .shra h (.ofPayload p)
  | 0x27 => .rotl h (.ofPayload p)
  | 0x28 => .bfx h (.ofPayload p)
  | 0x29 => .bfi h (.ofPayload p)
  | 0x2A => .popc h (.ofPayload p)
  | 0x2B => .clz h (.ofPayload p)
  | 0x2C => .brev h (.ofPayload p)
  | 0x2D => .bool3 h (.ofPayload p)
  | 0x2E => .iaddi h (.ofPayload p)
  | 0x2F => .mov h (.ofPayload p)
  | 0x30 => .fadd h (.ofPayload p)
  | 0x31 => .fsub h (.ofPayload p)
  | 0x32 => .fmul h (.ofPayload p)
  | 0x33 => .ffma h (.ofPayload p)
  | 0x34 => .fmin h (.ofPayload p)
  | 0x35 => .fmax h (.ofPayload p)
  | 0x36 => .fcpys h (.ofPayload p)
  | 0x37 => .frnd h (.ofPayload p)
  | 0x38 => .fdiv h (.ofPayload p)
  | 0x39 => .fsqrt h (.ofPayload p)
  | 0x3A => .hxadd h (.ofPayload p)
  | 0x3B => .hxmul h (.ofPayload p)
  | 0x3C => .hxfma h (.ofPayload p)
  | 0x3D => .bxadd h (.ofPayload p)
  | 0x3E => .bxmul h (.ofPayload p)
  | 0x3F => .bxfma h (.ofPayload p)
  | 0x40 => .dadd h (.ofPayload p)
  | 0x41 => .dmul h (.ofPayload p)
  | 0x42 => .dfma h (.ofPayload p)
  | 0x43 => .dmin h (.ofPayload p)
  | 0x44 => .dmax h (.ofPayload p)
  | 0x45 => .ddiv h (.ofPayload p)
  | 0x46 => .dsqrt h (.ofPayload p)
  | 0x47 => .cvt h (.ofPayload p)
  | 0x48 => .pack h (.ofPayload p)
  | 0x49 => .unpk h (.ofPayload p)
  | 0x4A => .fdot4 h (.ofPayload p)
  | 0x4B => .idot4 h (.ofPayload p)
  | 0x4C => .ldexp h (.ofPayload p)
  | 0x4D => .frexp h (.ofPayload p)
  | 0x4E => .fclass h (.ofPayload p)
  | 0x50 => .icmp h (.ofPayload p)
  | 0x51 => .ncmp h (.ofPayload p)
  | 0x52 => .fcmp h (.ofPayload p)
  | 0x53 => .dcmp h (.ofPayload p)
  | 0x54 => .sel h (.ofPayload p)
  | 0x55 => .pand h (.ofPayload p)
  | 0x56 => .por h (.ofPayload p)
  | 0x57 => .pxor h (.ofPayload p)
  | 0x58 => .pandn h (.ofPayload p)
  | 0x59 => .pset h (.ofPayload p)
  | 0x5A => .pget h (.ofPayload p)
  | 0x5B => .pcnt h (.ofPayload p)
  | 0x5C => .pff h (.ofPayload p)
  | 0x5D => .vote h (.ofPayload p)
  | 0x5E => .elect h (.ofPayload p)
  | 0x60 => .qset h (.ofPayload p)
  | 0x61 => .qget h (.ofPayload p)
  | 0x62 => .matchL h (.ofPayload p)
  | 0x63 => .rank h (.ofPayload p)
  | 0x64 => .balance h (.ofPayload p)
  | 0x65 => .xsel h (.ofPayload p)
  | 0x66 => .xput h (.ofPayload p)
  | 0x67 => .scan h (.ofPayload p)
  | 0x68 => .red h (.ofPayload p)
  | 0x69 => .fscan h (.ofPayload p)
  | 0x6A => .fred h (.ofPayload p)
  | 0x6B => .compact h (.ofPayload p)
  | 0x70 => .rcp h (.ofPayload p)
  | 0x71 => .rsq h (.ofPayload p)
  | 0x72 => .exp2 h (.ofPayload p)
  | 0x73 => .log2 h (.ofPayload p)
  | 0x74 => .sinp h (.ofPayload p)
  | 0x75 => .cosp h (.ofPayload p)
  | 0x76 => .tanh h (.ofPayload p)
  | 0x77 => .sigm h (.ofPayload p)
  | 0x78 => .hrcp h (.ofPayload p)
  | 0x79 => .hexp2 h (.ofPayload p)
  | 0x7A => .sftm h (.ofPayload p)
  | 0x80 => .sadd h (.ofPayload p)
  | 0x81 => .ssub h (.ofPayload p)
  | 0x82 => .smul h (.ofPayload p)
  | 0x83 => .sand h (.ofPayload p)
  | 0x84 => .sor h (.ofPayload p)
  | 0x85 => .sxor h (.ofPayload p)
  | 0x86 => .sshl h (.ofPayload p)
  | 0x87 => .sshrl h (.ofPayload p)
  | 0x88 => .sshra h (.ofPayload p)
  | 0x89 => .smin h (.ofPayload p)
  | 0x8A => .smax h (.ofPayload p)
  | 0x8B => .scmp h (.ofPayload p)
  | 0x8C => .ssel h (.ofPayload p)
  | 0x8D => .smovi h (.ofPayload p)
  | 0x8E => .sget h (.ofPayload p)
  | 0x8F => .sset h (.ofPayload p)
  | 0x90 => .ld h (.ofPayload p)
  | 0x91 => .st h (.ofPayload p)
  | 0x92 => .ldu h (.ofPayload p)
  | 0x93 => .stu h (.ofPayload p)
  | 0x94 => .ldln h (.ofPayload p)
  | 0x95 => .ldd h (.ofPayload p)
  | 0x96 => .std h (.ofPayload p)
  | 0x97 => .pref h (.ofPayload p)
  | 0x98 => .fence h (.ofPayload p)
  | 0x99 => .cinv h (.ofPayload p)
  | 0x9A => .cwb h (.ofPayload p)
  | 0xA0 => .atom h (.ofPayload p)
  | 0xA1 => .amon h (.ofPayload p)
  | 0xA2 => .atomu h (.ofPayload p)
  | 0xA3 => .cas h (.ofPayload p)
  | 0xA4 => .casu h (.ofPayload p)
  | 0xA5 => .binit h (.ofPayload p)
  | 0xA6 => .badd h (.ofPayload p)
  | 0xA7 => .bwait h (.ofPayload p)
  | 0xA8 => .bdrop h (.ofPayload p)
  | 0xB0 => .copy h (.ofPayload p)
  | 0xB1 => .copyt h (.ofPayload p)
  | 0xB2 => .kick h (.ofPayload p)
  | 0xB3 => .mdld h (.ofPayload p)
  | 0xC0 => .spawn h (.ofPayload p)
  | 0xC1 => .spawnr h (.ofPayload p)
  | 0xC2 => .joinF h (.ofPayload p)
  | 0xC3 => .fset h (.ofPayload p)
  | 0xC4 => .execR h (.ofPayload p)
  | 0xC5 => .lease h (.ofPayload p)
  | 0xC6 => .unlease h (.ofPayload p)
  | 0xD0 => .tld h (.ofPayload p)
  | 0xD1 => .tst h (.ofPayload p)
  | 0xD2 => .tzero h (.ofPayload p)
  | 0xD3 => .tcvt h (.ofPayload p)
  | 0xD4 => .mma h (.ofPayload p)
  | 0xD5 => .mmaq h (.ofPayload p)
  | 0xD6 => .mmas h (.ofPayload p)
  | 0xD7 => .mmak h (.ofPayload p)
  | 0xD8 => .scout h (.ofPayload p)
  | 0xD9 => .thresh h (.ofPayload p)
  | 0xDA => .ablk h (.ofPayload p)
  | 0xDB => .ard h (.ofPayload p)
  | 0xDC => .arow h (.ofPayload p)
  | 0xDD => .ascale h (.ofPayload p)
  | 0xDE => .aexp h (.ofPayload p)
  | 0xDF => .azero h (.ofPayload p)
  | 0xE0 => .publish h (.ofPayload p)
  | 0xE2 => .probe h (.ofPayload p)
  | 0xE3 => .event h (.ofPayload p)
  | 0xE4 => .ordmark h (.ofPayload p)
  | _ => .unassignedOpcode h (op ++ p)

/-- Reads one hint sequence (R60): hint words up to the first other word, or the seventh hint word. n is the number
of hint words that may still be read, hs those read. -/
def decodeSeq (hs : List Hint) : Nat → List Word → Except DecodeError (Instr × List Word)
  | _, [] => .error .truncated
  | n, w :: ws =>
    match Hint.ofWord (w.extractLsb' 24 8) (w.extractLsb' 0 24) with
    | none => .ok (Instr.ofWord hs (w.extractLsb' 24 8) (w.extractLsb' 0 24), ws)
    | some x =>
      match n with
      | n + 2 => decodeSeq (hs ++ [x]) (n + 1) ws
      | _ => .ok (.seventhHintWord (hs ++ [x]), ws)

/-- Decodes the first instruction of a list of words, with the words that follow it. -/
def decodeWords (ws : List Word) : Except DecodeError (Instr × List Word) := decodeSeq [] 7 ws

/-- Groups bytes into little-endian words (R47); up to three bytes at the end make no word. -/
def wordsOfBytes : List Byte → List Word
  | b0 :: b1 :: b2 :: b3 :: rest => (b3 ++ b2 ++ b1 ++ b0) :: wordsOfBytes rest
  | _ => []

/-- The four bytes of a word, lowest address first (R4, R47). -/
def bytesOfWord (w : Word) : List Byte :=
  [w.extractLsb' 0 8, w.extractLsb' 8 8, w.extractLsb' 16 8, w.extractLsb' 24 8]

/-- Decodes the first instruction of a list of bytes, with the number of words it takes. -/
def decodeBytes (bs : List Byte) : Except DecodeError (Instr × Nat) :=
  match decodeWords (wordsOfBytes bs) with
  | .ok (i, rest) => .ok (i, (wordsOfBytes bs).length - rest.length)
  | .error e => .error e

/-- The hint words, opcode and payload of an instruction of the opcode map; none for a step of a unit. -/
def Instr.parts (i : Instr) : Option (List Hint × BitVec 8 × BitVec 24) :=
  match i with
  | .nop h f => some (h, 0x00#8, f.payload)
  | .bra h f => some (h, 0x01#8, f.payload)
  | .brx h f => some (h, 0x02#8, f.payload)
  | .call h f => some (h, 0x03#8, f.payload)
  | .callx h f => some (h, 0x04#8, f.payload)
  | .ret h f => some (h, 0x05#8, f.payload)
  | .rcv h f => some (h, 0x06#8, f.payload)
  | .fuse h f => some (h, 0x07#8, f.payload)
  | .brk h f => some (h, 0x08#8, f.payload)
  | .exit h f => some (h, 0x09#8, f.payload)
  | .wait h f => some (h, 0x0A#8, f.payload)
  | .park h f => some (h, 0x0B#8, f.payload)
  | .yield h f => some (h, 0x0C#8, f.payload)
  | .trap h f => some (h, 0x0D#8, f.payload)
  | .emset h f => some (h, 0x0E#8, f.payload)
  | .emget h f => some (h, 0x0F#8, f.payload)
  | .bkpt h f => some (h, 0xE1#8, f.payload)
  | .iadd h f => some (h, 0x10#8, f.payload)
  | .isub h f => some (h, 0x11#8, f.payload)
  | .imul h f => some (h, 0x12#8, f.payload)
  | .imulh h f => some (h, 0x13#8, f.payload)
  | .nmulh h f => some (h, 0x14#8, f.payload)
  | .imad h f => some (h, 0x15#8, f.payload)
  | .idiv h f => some (h, 0x16#8, f.payload)
  | .ndiv h f => some (h, 0x17#8, f.payload)
  | .irem h f => some (h, 0x18#8, f.payload)
  | .nrem h f => some (h, 0x19#8, f.payload)
  | .imin h f => some (h, 0x1A#8, f.payload)
  | .imax h f => some (h, 0x1B#8, f.payload)
  | .nmin h f => some (h, 0x1C#8, f.payload)
  | .nmax h f => some (h, 0x1D#8, f.payload)
  | .iabs h f => some (h, 0x1E#8, f.payload)
  | .ineg h f => some (h, 0x1F#8, f.payload)
  | .andL h f => some (h, 0x20#8, f.payload)
  | .orL h f => some (h, 0x21#8, f.payload)
  | .xorL h f => some (h, 0x22#8, f.payload)
  | .andn h f => some (h, 0x23#8, f.payload)
  | .shl h f => some (h, 0x24#8, f.payload)
  | .shrl h f => some (h, 0x25#8, f.payload)
  | .shra h f => some (h, 0x26#8, f.payload)
  | .rotl h f => some (h, 0x27#8, f.payload)
  | .bfx h f => some (h, 0x28#8, f.payload)
  | .bfi h f => some (h, 0x29#8, f.payload)
  | .popc h f => some (h, 0x2A#8, f.payload)
  | .clz h f => some (h, 0x2B#8, f.payload)
  | .brev h f => some (h, 0x2C#8, f.payload)
  | .bool3 h f => some (h, 0x2D#8, f.payload)
  | .iaddi h f => some (h, 0x2E#8, f.payload)
  | .mov h f => some (h, 0x2F#8, f.payload)
  | .fadd h f => some (h, 0x30#8, f.payload)
  | .fsub h f => some (h, 0x31#8, f.payload)
  | .fmul h f => some (h, 0x32#8, f.payload)
  | .ffma h f => some (h, 0x33#8, f.payload)
  | .fmin h f => some (h, 0x34#8, f.payload)
  | .fmax h f => some (h, 0x35#8, f.payload)
  | .fcpys h f => some (h, 0x36#8, f.payload)
  | .frnd h f => some (h, 0x37#8, f.payload)
  | .fdiv h f => some (h, 0x38#8, f.payload)
  | .fsqrt h f => some (h, 0x39#8, f.payload)
  | .hxadd h f => some (h, 0x3A#8, f.payload)
  | .hxmul h f => some (h, 0x3B#8, f.payload)
  | .hxfma h f => some (h, 0x3C#8, f.payload)
  | .bxadd h f => some (h, 0x3D#8, f.payload)
  | .bxmul h f => some (h, 0x3E#8, f.payload)
  | .bxfma h f => some (h, 0x3F#8, f.payload)
  | .dadd h f => some (h, 0x40#8, f.payload)
  | .dmul h f => some (h, 0x41#8, f.payload)
  | .dfma h f => some (h, 0x42#8, f.payload)
  | .dmin h f => some (h, 0x43#8, f.payload)
  | .dmax h f => some (h, 0x44#8, f.payload)
  | .ddiv h f => some (h, 0x45#8, f.payload)
  | .dsqrt h f => some (h, 0x46#8, f.payload)
  | .cvt h f => some (h, 0x47#8, f.payload)
  | .pack h f => some (h, 0x48#8, f.payload)
  | .unpk h f => some (h, 0x49#8, f.payload)
  | .fdot4 h f => some (h, 0x4A#8, f.payload)
  | .idot4 h f => some (h, 0x4B#8, f.payload)
  | .ldexp h f => some (h, 0x4C#8, f.payload)
  | .frexp h f => some (h, 0x4D#8, f.payload)
  | .fclass h f => some (h, 0x4E#8, f.payload)
  | .icmp h f => some (h, 0x50#8, f.payload)
  | .ncmp h f => some (h, 0x51#8, f.payload)
  | .fcmp h f => some (h, 0x52#8, f.payload)
  | .dcmp h f => some (h, 0x53#8, f.payload)
  | .sel h f => some (h, 0x54#8, f.payload)
  | .pand h f => some (h, 0x55#8, f.payload)
  | .por h f => some (h, 0x56#8, f.payload)
  | .pxor h f => some (h, 0x57#8, f.payload)
  | .pandn h f => some (h, 0x58#8, f.payload)
  | .pset h f => some (h, 0x59#8, f.payload)
  | .pget h f => some (h, 0x5A#8, f.payload)
  | .pcnt h f => some (h, 0x5B#8, f.payload)
  | .pff h f => some (h, 0x5C#8, f.payload)
  | .vote h f => some (h, 0x5D#8, f.payload)
  | .elect h f => some (h, 0x5E#8, f.payload)
  | .qset h f => some (h, 0x60#8, f.payload)
  | .qget h f => some (h, 0x61#8, f.payload)
  | .matchL h f => some (h, 0x62#8, f.payload)
  | .rank h f => some (h, 0x63#8, f.payload)
  | .balance h f => some (h, 0x64#8, f.payload)
  | .xsel h f => some (h, 0x65#8, f.payload)
  | .xput h f => some (h, 0x66#8, f.payload)
  | .scan h f => some (h, 0x67#8, f.payload)
  | .red h f => some (h, 0x68#8, f.payload)
  | .fscan h f => some (h, 0x69#8, f.payload)
  | .fred h f => some (h, 0x6A#8, f.payload)
  | .compact h f => some (h, 0x6B#8, f.payload)
  | .rcp h f => some (h, 0x70#8, f.payload)
  | .rsq h f => some (h, 0x71#8, f.payload)
  | .exp2 h f => some (h, 0x72#8, f.payload)
  | .log2 h f => some (h, 0x73#8, f.payload)
  | .sinp h f => some (h, 0x74#8, f.payload)
  | .cosp h f => some (h, 0x75#8, f.payload)
  | .tanh h f => some (h, 0x76#8, f.payload)
  | .sigm h f => some (h, 0x77#8, f.payload)
  | .hrcp h f => some (h, 0x78#8, f.payload)
  | .hexp2 h f => some (h, 0x79#8, f.payload)
  | .sftm h f => some (h, 0x7A#8, f.payload)
  | .sadd h f => some (h, 0x80#8, f.payload)
  | .ssub h f => some (h, 0x81#8, f.payload)
  | .smul h f => some (h, 0x82#8, f.payload)
  | .sand h f => some (h, 0x83#8, f.payload)
  | .sor h f => some (h, 0x84#8, f.payload)
  | .sxor h f => some (h, 0x85#8, f.payload)
  | .sshl h f => some (h, 0x86#8, f.payload)
  | .sshrl h f => some (h, 0x87#8, f.payload)
  | .sshra h f => some (h, 0x88#8, f.payload)
  | .smin h f => some (h, 0x89#8, f.payload)
  | .smax h f => some (h, 0x8A#8, f.payload)
  | .scmp h f => some (h, 0x8B#8, f.payload)
  | .ssel h f => some (h, 0x8C#8, f.payload)
  | .smovi h f => some (h, 0x8D#8, f.payload)
  | .sget h f => some (h, 0x8E#8, f.payload)
  | .sset h f => some (h, 0x8F#8, f.payload)
  | .ld h f => some (h, 0x90#8, f.payload)
  | .st h f => some (h, 0x91#8, f.payload)
  | .ldu h f => some (h, 0x92#8, f.payload)
  | .stu h f => some (h, 0x93#8, f.payload)
  | .ldln h f => some (h, 0x94#8, f.payload)
  | .ldd h f => some (h, 0x95#8, f.payload)
  | .std h f => some (h, 0x96#8, f.payload)
  | .pref h f => some (h, 0x97#8, f.payload)
  | .fence h f => some (h, 0x98#8, f.payload)
  | .cinv h f => some (h, 0x99#8, f.payload)
  | .cwb h f => some (h, 0x9A#8, f.payload)
  | .atom h f => some (h, 0xA0#8, f.payload)
  | .amon h f => some (h, 0xA1#8, f.payload)
  | .atomu h f => some (h, 0xA2#8, f.payload)
  | .cas h f => some (h, 0xA3#8, f.payload)
  | .casu h f => some (h, 0xA4#8, f.payload)
  | .binit h f => some (h, 0xA5#8, f.payload)
  | .badd h f => some (h, 0xA6#8, f.payload)
  | .bwait h f => some (h, 0xA7#8, f.payload)
  | .bdrop h f => some (h, 0xA8#8, f.payload)
  | .copy h f => some (h, 0xB0#8, f.payload)
  | .copyt h f => some (h, 0xB1#8, f.payload)
  | .kick h f => some (h, 0xB2#8, f.payload)
  | .mdld h f => some (h, 0xB3#8, f.payload)
  | .spawn h f => some (h, 0xC0#8, f.payload)
  | .spawnr h f => some (h, 0xC1#8, f.payload)
  | .joinF h f => some (h, 0xC2#8, f.payload)
  | .fset h f => some (h, 0xC3#8, f.payload)
  | .execR h f => some (h, 0xC4#8, f.payload)
  | .lease h f => some (h, 0xC5#8, f.payload)
  | .unlease h f => some (h, 0xC6#8, f.payload)
  | .tld h f => some (h, 0xD0#8, f.payload)
  | .tst h f => some (h, 0xD1#8, f.payload)
  | .tzero h f => some (h, 0xD2#8, f.payload)
  | .tcvt h f => some (h, 0xD3#8, f.payload)
  | .mma h f => some (h, 0xD4#8, f.payload)
  | .mmaq h f => some (h, 0xD5#8, f.payload)
  | .mmas h f => some (h, 0xD6#8, f.payload)
  | .mmak h f => some (h, 0xD7#8, f.payload)
  | .scout h f => some (h, 0xD8#8, f.payload)
  | .thresh h f => some (h, 0xD9#8, f.payload)
  | .ablk h f => some (h, 0xDA#8, f.payload)
  | .ard h f => some (h, 0xDB#8, f.payload)
  | .arow h f => some (h, 0xDC#8, f.payload)
  | .ascale h f => some (h, 0xDD#8, f.payload)
  | .aexp h f => some (h, 0xDE#8, f.payload)
  | .azero h f => some (h, 0xDF#8, f.payload)
  | .publish h f => some (h, 0xE0#8, f.payload)
  | .probe h f => some (h, 0xE2#8, f.payload)
  | .event h f => some (h, 0xE3#8, f.payload)
  | .ordmark h f => some (h, 0xE4#8, f.payload)
  | .claimServed => none
  | .slotBind => none
  | .taskEntry => none
  | .compactionMove => none
  | .compactionCopyEnd => none
  | .offCorePark => none
  | .saveComplete => none
  | .restoreGroup => none
  | .restoreComplete => none
  | .preemptRequest => none
  | .preemptTimeout => none
  | .taskEnd => none
  | .counterRetire => none
  | .loadComplete => none
  | .storeAcknowledge => none
  | .memoryRequestAtHome => none
  | .atomicAtHome => none
  | .deterministicAmonArrival => none
  | .routerMerge => none
  | .waitRequestAtHome => none
  | .waitRequestRetry => none
  | .wake => none
  | .descriptorFetch => none
  | .copySegment => none
  | .copyListEntry => none
  | .cpeKick => none
  | .tileOpStart => none
  | .tileOpComplete => none
  | .engineWatchdog => none
  | .blockScrubDone => none
  | .tileFetchFault => none
  | .relaunchPush => none
  | .stagingStart => none
  | .stagingComplete => none
  | .stagingFault => none
  | .leaseRequest => none
  | .leaseGranted => none
  | .leaseRenewal => none
  | .leaseLapse => none
  | .recordAvailable => none
  | .recordAged => none
  | .stealRequest => none
  | .stealBackoff => none
  | .stealRequestAtVictim => none
  | .stealReply => none
  | .inboundArrival => none
  | .spawnrReply => none
  | .inboundGrant => none
  | .spawnrResend => none
  | .queueEnable => none
  | .queueDisable => none
  | .queueRun => none
  | .queueDoorbell => none
  | .queuePoll => none
  | .launch => none
  | .graph => none
  | .copyPacket => none
  | .barrierAdd => none
  | .barrierWait => none
  | .linkRelease => none
  | .linkWait => none
  | .publishPacket => none
  | .marker => none
  | .packetComplete => none
  | .qlinkCfgWrite => none
  | .kernelEntryTaken => none
  | .rootPlacement => none
  | .kernelDone => none
  | .cancelKernel => none
  | .cancelRegion => none
  | .regionWatchdog => none
  | .contextOpen => none
  | .contextClose => none
  | .clusterRelease => none
  | .releaseComplete => none
  | .contextDrained => none
  | .scrubComplete => none
  | .semAcquire => none
  | .semRelease => none
  | .semLapse => none
  | .spadSplitWrite => none
  | .ctxFqHeadRead => none
  | .pageMigrate => none
  | .pageEvict => none
  | .pageUnmap => none
  | .pageSync => none
  | .spansCommand => none
  | .collapseComplete => none
  | .migrationDone => none
  | .drainDone => none
  | .linkTrainStart => none
  | .linkTrained => none
  | .linkTrainTimeout => none
  | .linkDisable => none
  | .badFlit => none
  | .retryDone => none
  | .retryExhausted => none
  | .routerForward => none
  | .vcPromote => none
  | .routerPowerDown => none
  | .routerWake => none
  | .routerWakeDone => none
  | .peerAccess => none
  | .hostApertureWrite => none
  | .hostApertureRead => none
  | .uncorrectable => none
  | .powerGood => none
  | .partReset => none
  | .bistComplete => none
  | .handoverStart => none
  | .fwImageWrite => none
  | .handoverCommit => none
  | .fwStatRead => none
  | .attestationRequest => none
  | .commandMessage => none
  | .firmwareTimeout => none
  | .reefInterval => none
  | .droopEvent => none
  | .droopHoldEnd => none
  | .dbgHalt => none
  | .haltComplete => none
  | .dbgRelease => none
  | .dbgStep => none
  | .stepEnded => none
  | .dbgCancelStep => none
  | .dbgDump => none
  | .dbgLoad => none
  | .dbgEvtRead => none
  | .dbgDetach => none
  | .barStatRead => none
  | .tskStatRead => none
  | .tleStatRead => none
  | .nocStatRead => none
  | .krnStatRead => none
  | .lnkPortStatRead => none
  | .lnyStatRead => none
  | .registerWrite => none
  | .unassignedOpcode h w => some (h, w.extractLsb' 24 8, w.extractLsb' 0 24)
  | .seventhHintWord _ => none
  | .invalidPacket => none

/-- The words of an instruction: its hint words, then the instruction word. A step of a unit has no words. -/
def encode (i : Instr) : List Word :=
  match i with
  | .seventhHintWord h => h.map Hint.word
  | i =>
    match i.parts with
    | some (h, op, p) => h.map Hint.word ++ [op ++ p]
    | none => []

/-- The payload bits that an opcode leaves reserved (R51): those its description neither names nor gives a meaning. -/
def reservedMask (op : BitVec 8) : BitVec 24 :=
  match op.toNat with
  | 0x00 => 0xFFFFFF#24
  | 0x02 => 0x03FFFF#24
  | 0x03 => 0x800000#24
  | 0x04 => 0x03FFFF#24
  | 0x05 => 0xFFFFFF#24
  | 0x06 => 0x800000#24
  | 0x07 => 0xFFFFFF#24
  | 0x08 => 0x83FFF0#24
  | 0x09 => 0x83FFFF#24
  | 0x0B => 0x00003F#24
  | 0x0C => 0xFFFFFF#24
  | 0x0E => 0x03FFFF#24
  | 0x0F => 0x03FFFF#24
  | 0xE1 => 0xFFFFC0#24
  | 0x1E => 0x0007F3#24
  | 0x1F => 0x0007F3#24
  | 0x2A => 0x0007F3#24
  | 0x2B => 0x0007F3#24
  | 0x2C => 0x0007F3#24
  | 0x2F => 0x0007F3#24
  | 0x37 => 0x0007F3#24
  | 0x39 => 0x0007F3#24
  | 0x46 => 0x0007F3#24
  | 0x4D => 0x0007F3#24
  | 0x4E => 0x000703#24
  | 0x54 => 0x000020#24
  | 0x55 => 0x00003F#24
  | 0x56 => 0x00003F#24
  | 0x57 => 0x00003F#24
  | 0x58 => 0x00003F#24
  | 0x59 => 0x000FFF#24
  | 0x5A => 0x000FFF#24
  | 0x5B => 0x000FFF#24
  | 0x5C => 0x000FFF#24
  | 0x5D => 0x0001FD#24
  | 0x5E => 0x0FFFFF#24
  | 0x60 => 0x000FFF#24
  | 0x61 => 0x000FFF#24
  | 0x62 => 0x0007F3#24
  | 0x63 => 0x0007F3#24
  | 0x64 => 0x000003#24
  | 0x65 => 0x000700#24
  | 0x66 => 0x000700#24
  | 0x67 => 0x000703#24
  | 0x68 => 0x000783#24
  | 0x69 => 0x000703#24
  | 0x6A => 0x000783#24
  | 0x6B => 0x000603#24
  | 0x70 => 0x0007F3#24
  | 0x71 => 0x0007F3#24
  | 0x72 => 0x0007F3#24
  | 0x73 => 0x0007F3#24
  | 0x74 => 0x0007F3#24
  | 0x75 => 0x0007F3#24
  | 0x76 => 0x0007F3#24
  | 0x77 => 0x0007F3#24
  | 0x78 => 0x0007F3#24
  | 0x79 => 0x0007F3#24
  | 0x81 => 0x00003F#24
  | 0x82 => 0x00003F#24
  | 0x83 => 0x00003F#24
  | 0x84 => 0x00003F#24
  | 0x85 => 0x00003F#24
  | 0x89 => 0x00003E#24
  | 0x8A => 0x00003E#24
  | 0x8B => 0x000020#24
  | 0x8E => 0x03FFC0#24
  | 0x8F => 0xFC0FC0#24
  | 0x92 => 0x000FC0#24
  | 0x93 => 0x000FC0#24
  | 0x94 => 0x000FC0#24
  | 0x95 => 0x000038#24
  | 0x96 => 0x000038#24
  | 0x97 => 0xFC003F#24
  | 0x98 => 0xFFFFFC#24
  | 0x99 => 0x000FFC#24
  | 0x9A => 0x000FFF#24
  | 0xA2 => 0x000FC0#24
  | 0xA5 => 0x00003F#24
  | 0xA6 => 0x000FFC#24
  | 0xA7 => 0x00003F#24
  | 0xA8 => 0x000FFF#24
  | 0xB0 => 0x00003C#24
  | 0xB1 => 0x00003E#24
  | 0xB2 => 0x000FFF#24
  | 0xB3 => 0x0FF03C#24
  | 0xC0 => 0x000FFF#24
  | 0xC1 => 0x00003E#24
  | 0xC2 => 0x000FFF#24
  | 0xC3 => 0x03FFF8#24
  | 0xC4 => 0x000FFF#24
  | 0xC5 => 0x00003F#24
  | 0xC6 => 0x000FFF#24
  | 0xD0 => 0x0FF038#24
  | 0xD1 => 0xF0F03A#24
  | 0xD2 => 0x0FFFFF#24
  | 0xD3 => 0x00FFC0#24
  | 0xD4 => 0x000FFF#24
  | 0xD5 => 0x000FFF#24
  | 0xD6 => 0x000FFF#24
  | 0xD7 => 0x00003C#24
  | 0xD8 => 0xF00000#24
  | 0xD9 => 0x0C0000#24
  | 0xDA => 0xF0F000#24
  | 0xDB => 0xF0F000#24
  | 0xDC => 0xF00FC0#24
  | 0xDD => 0x0FFFC0#24
  | 0xDE => 0x0FF000#24
  | 0xDF => 0x0FFFFF#24
  | 0xE0 => 0xFFFFF0#24
  | 0xE2 => 0x00003F#24
  | 0xE3 => 0x000FC0#24
  | 0xE4 => 0x03FFC0#24
  | _ => 0#24

/-- The instruction that the decoder reads from one word of nbits bits (32 for every row of the opcode map). -/
def decodeTableWord (nbits w : Nat) : Option Instr :=
  if nbits = 32 then
    match decodeBytes (bytesOfWord (BitVec.ofNat 32 w)) with
    | .ok (i, _) => some i
    | .error _ => none
  else none

end Sys2Proof
end

