-- ==== Sys2Proof/Config.lean ====
section
/-! DEFINITION. What the spec leaves to the implementation or leaves open, as constants without a body: nothing can be proved
about their values. -/
namespace Sys2Proof.Machine

/-- The free choices of the part (R336: an access uses the old entry or the new one), by the number of choices taken so far.
Log entry 2. -/
opaque Config.choice : Nat → Bool

/-- The entry that a full descriptor cache gives up (R174), by the number of choices taken so far. Log entry 23. -/
opaque Config.pick : Nat → Nat

/-- What a peer part answers to a request of this part (R210, R359), by the number of choices taken so far. Log entry 24. -/
opaque Config.peer : Nat → BitVec 64

/-- The code that a cancelled kernel leaves for a failing GRAPH (R304, R306): the spec states none. Log entry 4. -/
opaque Config.cancelCode : Nat → BitVec 16

/-- The SHAKE256 digest of 64 bytes (R403, R407): a function the spec names and does not define. Log entry 3. -/
opaque Config.shake256 : List Byte → List Byte

/-- Whether an ML-DSA-65 signature is valid (R403): public key, signature, message. Log entry 3. -/
opaque Config.mldsaValid : List Byte → List Byte → List Byte → Bool

/-- The key digest fused in the part (R403), 64 bytes. Log entry 3. -/
opaque Config.keyDigest : Unit → List Byte

/-- Whether a CXL port has IDE configured (R361): the host's choice, by messages (IDE_KM) that are outside the spec. Log entry 100. -/
opaque Config.ideOn : Nat → Bool

/-- The bytes that one member of a pending set takes in a spill area (R227): the spec gives the area's size and no layout. Log entry 30. -/
opaque Config.spillBytes : Nat

end Sys2Proof.Machine
end

