-- ==== Sys2Proof/Machine/State.lean ====
section
/-! DEFINITION. The state of the part as plain data: everything the spec gives the machine, the agenda that says which
step moves next, and the machine right after reset. Sparse things are banks: lists of number and value. -/
namespace Sys2Proof.Machine

/-- A sparse collection keyed by number; an unlisted number stands for a default that each reader names. -/
abbrev Bank (α : Type) := List (Nat × α)
/-- Bytes of storage by cell number, in canonical form: rising, none listed as zero. -/
abbrev Memory := List Host.Cell
/-- One 32-bit value for each lane (R83). -/
abbrev Lanes := Bank Word
/-- One 64-bit value for each lane: a window entry (R59). -/
abbrev Lanes64 := Bank DWord

/-! ## The group (R75 to R99) -/

/-- The state of a slot (R75). -/
inductive SlotState where
  | free | binding | restoring | active | frozen | saving | draining
deriving DecidableEq, Repr

/-- Why a slot is FROZEN (R75): a compaction move, the debugger's halt or a BKPT, or fault policy 2 (R326). -/
inductive FreezeCause where
  | none | compaction | halt | bkpt | policy
deriving DecidableEq, Repr

/-- The state of a strand (R77). -/
inductive StrandState where
  | ready | stalled | waiting
deriving DecidableEq, Repr

/-- What a WAITING strand waits in, in the order of the save block's wait-kind codes 0 to 7 (R86). -/
inductive WaitKind where
  | none | join | park | trap | bwait | wait | spawnr | exec
deriving DecidableEq, Repr

/-- A strand's wait (R77, R86): the word waited on, its target, the s register of the status, the continuation, the
scope of the satisfying read; for TRAP its phase (0 waits for the tail, 1 for the done counter), lanes, head_old,
vB and code; for WAIT its instruction word; once a wake met it, 0 (reached) or 1 (broken) plus one; for TRAP the ring's base and slots; and the
address of the first word of the hint sequence it issued in, which its faults name (R95). -/
structure Wait where
  kind : WaitKind := .none
  addr : DWord := 0
  target : DWord := 0
  dest : Nat := 0
  cont : DWord := 0
  scope : Nat := 0
  phase : Nat := 0
  lanes : DWord := 0
  head : DWord := 0
  vb : Nat := 0
  code : Nat := 0
  word : Word := 0
  met : Nat := 0
  ring : DWord := 0
  slots : Nat := 0
  issue : DWord := 0
deriving DecidableEq, Repr

/-- An open run (R57): instructions left, the gap, the give-way flag, and the time it opened (R87). -/
structure Run where
  left : Nat
  gap : Nat
  give : Bool
  opened : Nat
deriving DecidableEq, Repr

/-- A strand (R77): PC, owned mask O, em, innermost token, state, open run, window (most recent first), wait, and
what scheduling keeps (R87): give-way, the time it has waited since, how often it was passed over, the time before which its last issue or
transfer holds it (R380) and that before which the gap of its last run does (R57), how many hint words of the sequence at its PC have issued
(R60) and when the RUN word among them did, the scope of a fence that its next store releases (R200), and whether it
stands at a BKPT that has halted it (R113). -/
structure Strand where
  pc : DWord := 0
  owned : DWord := 0
  em : DWord := 0
  token : Option Nat := none
  state : StrandState := .ready
  run : Option Run := none
  window : List Lanes64 := []
  wait : Wait := {}
  give : Bool := false
  since : Nat := 0
  passed : Nat := 0
  notBefore : Nat := 0
  gapUntil : Nat := 0
  hinted : Nat := 0
  openedAt : Option Nat := none
  fenced : Option Nat := none
  passBkpt : Bool := false
deriving DecidableEq, Repr

/-- The kind of a token-pool entry (R78). -/
inductive TokenKind where
  | reconv | call | deferred
deriving DecidableEq, Repr

/-- A token-pool entry (R78): continuation (a deferred entry's target), M, pending, arrived, the arrived strands' em,
parent (the token a deferred entry hangs on), the FUSE address of a reconvergence token (R104), the strand that made
a deferred entry and the order it was made in (R80), ready (R80), its claim's place, 0 for none (R413), and the time of the event that
emptied its pending mask (R380). -/
structure Token where
  kind : TokenKind := .reconv
  cont : DWord := 0
  mask : DWord := 0
  pending : DWord := 0
  arrived : DWord := 0
  arrivedEm : DWord := 0
  parent : Option Nat := none
  maker : Option Nat := none
  order : Nat := 0
  ready : Bool := false
  claim : Nat := 0
  claimAt : Nat := 0
deriving DecidableEq, Repr

/-- A tile register (R263): 4,096 data bytes and a 256-byte scale strip. -/
structure Tile where
  data : Bank Byte := []
  strip : Bank Byte := []
deriving DecidableEq, Repr

/-- An accumulator (R264): 64 × 64 32-bit elements, element (i, j) at 64i + j, and its 2 KiB sparsity slot. -/
structure Accum where
  elems : Bank Word := []
  slot : Bank Byte := []
deriving DecidableEq, Repr

/-- The memory agents of R191. A group is named by its core and its own number, which it keeps wherever it runs: parked off-core,
pre-empted and restored to another slot it stays the same agent. -/
inductive Agent where
  | group (core uid : Nat)
  | copy (core : Nat)
  | tile (core : Nat)
  | staging (core : Nat)
  | task (core : Nat)
  | front
  | lanyard (port : Nat)
  | host
  | peer (rank : Nat)
deriving DecidableEq, Repr

/-- A release whose value, or a later member of whose chain, a byte holds (R194, R204); always says that the inclusion condition holds for it
whatever the scopes (R203). -/
structure Release where
  agent : Agent
  scope : Nat
  always : Bool := false
deriving DecidableEq, Repr

/-- Who makes a write, as a broken barrier's record names it: context and region (R216). -/
structure Breaker where
  ctx : Nat
  region : Nat := 0xFFFFFFFF
  ktag : Nat := 0
deriving DecidableEq, Repr

/-- A span as a core holds it (R330): virtual base, intermediate base, control word. -/
abbrev Span := Nat × Nat × DWord

/-- The counters of R92. -/
inductive Ctr where
  | ld | st | cp | tl | ms
deriving DecidableEq, Repr

/-- A range of global addresses that a task or kernel holds under a lease (R247). -/
structure LeaseRange where
  base : Nat
  size : Nat
deriving DecidableEq, Repr

/-- How a task is to end (R236): done, failed with a code, or cancelled; or its record is to be relaunched (R293). -/
inductive Ending where
  | done
  | failed (code : Nat)
  | cancelled
  | relaunch
deriving DecidableEq, Repr

/-- The task a group runs (R229 to R235, R247): logical id, record address, the task unit's copy of the record's
sixteen words (R293), context, kernel tag, number within a quad, deterministic flag, whether it is a handler (R327), spawn ordinal,
logged decisions (R256), deterministic AMON ordinals per lane (R227), ranges added by LEASE (R254), the number of
successive relaunches (R293), how often its record was stolen (R258), and a number of its own from its entry on, one for a quad's four groups. -/
structure TaskInfo where
  id : DWord := 0
  addr : DWord := 0
  record : List DWord := []
  ctx : Nat := 0
  ktag : Nat := 0
  quad : Option Nat := none
  det : Bool := false
  handler : Bool := false
  ordinal : Nat := 0
  decisions : Nat := 0
  amon : Bank Nat := []
  added : List LeaseRange := []
  relaunches : Nat := 0
  steals : Nat := 0
  no : Nat := 0
deriving DecidableEq, Repr

/-- A caller's EXEC frame (R253): where the save block lies, its size, the caller's task, the s register of the status, the address at
which the caller goes on, that of the EXEC's hint sequence, and what the save block does not hold: the scope of a fence whose release write is still to come, the
number of MMAQs issued, and who made its deferred entries and in which order (R80). -/
structure Frame where
  addr : Nat
  size : Nat
  task : TaskInfo
  dest : Nat
  cont : DWord
  issue : DWord := 0
  fenced : Option Nat
  mmaqs : Nat
  tokens : Bank Token
  made : Nat
deriving DecidableEq, Repr

/-- One issued variable-latency instruction that its counter still counts (R92): done once it has completed. -/
structure Outst where
  id : Nat
  ctr : Ctr
  done : Bool
deriving DecidableEq, Repr

/-- A debugger step in progress (R99): its strand, whether that strand was WAITING when the step began, and whether it has issued. -/
structure DbgStep where
  strand : Nat
  waits : Bool
  issued : Bool
deriving DecidableEq, Repr

/-- A group (R76, R77, R83, R86, R92): its task, its registers in every class, the status bits and enables (R130),
the rounding generators (R36), strands, token pool, exited lanes, counters, classes (vc, tc, ac, lc of R230),
EXEC frames, what a fault or cancellation has decided about its end, the MMAQs it has issued, those (number and fault code)
that a partner's fault withdrew before it issued them (R280), the locations that its engines have written and that it may not see
yet (R203): the command's number and the byte from before it; the releases whose values its plain loads have read, which a FENCE may
synchronise with (R200); and its number as a memory agent (R191). -/
structure Group where
  task : TaskInfo := {}
  vc : Nat := 0
  tc : Nat := 0
  ac : Nat := 0
  lc : Nat := 0
  exited : DWord := 0
  flags : DWord := 0
  gens : Lanes := []
  sregs : Bank DWord := []
  pregs : Bank DWord := []
  qregs : Bank Half := []
  kregs : Bank DWord := []
  vregs : Bank Lanes := []
  tiles : Bank Tile := []
  accums : Bank Accum := []
  strands : Bank Strand := []
  tokens : Bank Token := []
  made : Nat := 0
  outst : List Outst := []
  ld : Nat := 0
  st : Nat := 0
  cp : Nat := 0
  tl : Nat := 0
  ms : Nat := 0
  frames : List Frame := []
  ending : Option Ending := none
  faulted : Bool := false
  step : Option DbgStep := none
  mmaqs : Nat := 0
  mmaqBad : List (Nat × Nat) := []
  unseen : Bank (Nat × Byte) := []
  heard : List Release := []
  uid : Nat := 0
deriving DecidableEq, Repr

/-- A slot (R75): its state, why it is frozen, for policy 2 the fault's code (R326), since when (R98), whether pre-emption has been asked for and when (R97), whether the debugger is halting
it, the save block taken for it while it is SAVING (R86), and its group. -/
structure Slot where
  state : SlotState := .free
  cause : FreezeCause := .none
  policyCode : Nat := 0
  frozenAt : Nat := 0
  preempt : Option Nat := none
  halting : Bool := false
  saveAt : Option Nat := none
  group : Group := {}
deriving DecidableEq, Repr

/-! ## Memory accesses (R167 to R208) -/

/-- A router's place (R12). -/
structure Router where
  x : Nat
  y : Nat
  z : Nat
deriving DecidableEq, Repr

/-- What an address reaches: an intermediate address of a context (through an RME span or not), a byte of a core
scratchpad, an offset of a lane's slice in a block at a pool place of a core's scratchpad (R170), a byte of a die's chip
scratchpad, an offset of a host window, or an intermediate address on a peer. -/
inductive Target where
  | global (ctx ia : Nat) (rme : Bool)
  | spad (core off : Nat)
  | priv (core pool lane off : Nat)
  | csp (die byte : Nat)
  | window (n off : Nat)
  | peer (rank ctx ia : Nat)
deriving DecidableEq, Repr

/-- Whose program order an access belongs to (R196, R199): a strand's, or that of the strand that a token will form. -/
inductive Owner where
  | strand (n : Nat)
  | token (n : Nat)
deriving DecidableEq, Repr

/-- One access of an instruction (R195): its lane (64 for an access of the whole group), register offset, target,
size in bytes, data or operand, compare value, where its request packet is and goes, whether it was performed (and
whether before an older acquire, and whether another agent's acquire has then read a newer value there), acknowledged or completed, whether it
waits for a page, the value read, its pointer, whose program order it belongs to, the number of the decision that it is for the order log
(R256), the access (operation and index) whose packet carries it since routers merged the two (R226), whether its pointer is one for
the whole group, as a row's is (R177, R179), and the number that its packet took as it left its source, 0 before that (R352). -/
structure Access where
  lane : Nat
  reg : Nat := 0
  target : Target
  size : Nat
  data : Nat := 0
  cmp : Nat := 0
  place : Router
  goal : Router
  performed : Bool := false
  early : Bool := false
  passed : Bool := false
  completed : Bool := false
  held : Bool := false
  value : Nat := 0
  ptr : DWord := 0
  owners : List Owner := []
  decision : Option Nat := none
  carrier : Option (Nat × Nat) := none
  whole : Bool := false
  sent : Nat := 0
deriving DecidableEq, Repr

/-- What an outstanding instruction asks of memory. cache n is CINV (n = 0, 1) or CWB (n = 2); det is a deterministic
AMON; probe, event and publish are PROBE, EVENT and PUBLISH. -/
inductive OpKind where
  | load | store
  | atom (op : Nat) | amon (op : Nat) | det
  | cas | xch
  | cache (n : Nat)
  | probe | event | publish
deriving DecidableEq, Repr

/-- Where a value that returns is written: nowhere, into n registers from v d, or into s d. -/
inductive Dest where
  | none
  | vec (d n : Nat)
  | uni (d : Nat)
deriving DecidableEq, Repr

/-- An issued load, store, atomic or other memory operation of a group, with its accesses; uid is the group's number as an agent, em the
strand's at issue, ord the ord code (R226), and fence the scope of the fence whose release write it is (R200). engine says that it is a
barrier add of a copy command of the core, and whom a barrier that it breaks names (R190, R216); spans holds, of CINV and CWB, the core's spans
at issue (R330). -/
structure MemOp where
  id : Nat
  core : Nat
  slot : Nat
  strand : Nat
  task : DWord
  pc : DWord
  ctx : Nat
  ctr : Ctr
  kind : OpKind
  acquire : Bool := false
  release : Bool := false
  scope : Nat := 5
  fence : Option Nat := none
  uid : Nat := 0
  em : DWord := 0
  ord : Nat := 0
  engine : Option Breaker := none
  spans : List Span := []
  dest : Dest := .none
  words : List DWord := []
  accs : List Access := []
deriving DecidableEq, Repr

/-- Who waits for a word (R215, R302, R359): a strand of a group, by the group's number as an agent; a queue at a packet; or a strand of a peer
part, by its rank and the tag of its request. -/
inductive Waiter where
  | strand (core uid n : Nat)
  | queue (n : Nat)
  | peer (rank tag : Nat)
deriving DecidableEq, Repr

/-- Where a wait stands: its request is on the way, refused and to be sent again, an entry at the home, or answered
by a wake that carries the word and whether the barrier broke. -/
inductive WaitStage where
  | sent | refused | entry
  | woken (value : Nat) (broken : Bool)
deriving DecidableEq, Repr

/-- A wait on an 8-byte word (R215); heard holds the releases of the value that satisfied it (R194). -/
structure WaitReq where
  id : Nat
  who : Waiter
  ctx : Nat
  target : Target
  value : Nat
  scope : Nat := 5
  since : Nat := 0
  stage : WaitStage := .sent
  heard : List Release := []
deriving DecidableEq, Repr

/-- A registered barrier line (R211, R212): its first byte, its home, its context and the regions it counts against. -/
structure BarLine where
  target : Target
  die : Nat
  slice : Nat
  ctx : Nat
  regions : List Nat
deriving DecidableEq, Repr

/-- A member of a pending set (R227): its location and size, its key, its kernel's tag, its operand, its context, its home, and
whether it stands in the spill area. -/
structure Pending where
  target : Target
  size : Nat
  task : DWord
  lane : Nat
  ordinal : Nat
  ktag : Nat
  ctx : Nat
  operand : Nat
  die : Nat
  slice : Nat
  spilled : Bool
deriving DecidableEq, Repr

/-! ## Engines of a core (R184 to R190, R266 to R296) -/

/-- Why a copy command runs: for a group's instruction (its outstanding number), an entry of a KICK list, of a
register-started list or a COPY packet, or the staging of a record. -/
inductive CopyOwner where
  | group (slot strand : Nat) (pc : DWord) (op : Nat)
  | kick (list : Nat)
  | staging (record : Nat)
deriving DecidableEq, Repr

/-- One piece of a copy command: the bytes it writes and, per byte, where each comes from (none with the fill or
packed value given). -/
structure CopyByte where
  dst : Target
  src : Option Target
  fill : Byte := 0
deriving DecidableEq, Repr

/-- A segment (R184): its first destination byte, its source, or for a box (COPYT, staging) its bytes; how many bytes of it have been read, what
they are, and how many have been written; whether a protected line kept some of them back (R213) or it met another fault; landed once served. -/
structure Segment where
  dst : DWord
  src : DWord
  size : Nat
  got : Nat := 0
  bytes : Nat := 0
  put : Nat := 0
  kept : Bool := false
  landed : Bool := false
deriving DecidableEq, Repr

/-- Where a command's bytes land: a range by pointer, or an accumulator's sparsity slot (MDLD). -/
inductive CopyKind where
  | range
  | box (desc : List DWord) (origin : List Int)
  | slot (acc : Nat)
deriving DecidableEq, Repr

/-- A copy command (R184, R190): its number, owner, context, what it copies, its segments, its barrier, the scope of its adds, the strand's
em at issue, and the spans through which it is translated: those that its core held at its issue (R330). -/
structure CopyCmd where
  id : Nat
  owner : CopyOwner
  ctx : Nat
  ktag : Nat
  kind : CopyKind
  segs : List Segment
  barrier : Option DWord := none
  scope : Nat := 5
  em : DWord := 0
  spans : List Span := []
deriving DecidableEq, Repr

/-- A running copy list (R188, R189): from KICK (slot, strand, pc, outstanding number), or from the kick registers, or
a COPY packet (queue, packet number); the next entry, the count, the commands of its entries still running and the
entries retired. -/
inductive ListOwner where
  | group (slot strand : Nat) (pc : DWord) (op : Nat)
  | regs
  | packet (queue pkt : Nat)
deriving DecidableEq, Repr

/-- A copy list in progress: the scope that KICK gave (R185), the strand's em and the core's spans at issue; stopped once an entry without a
task has faulted (R189). -/
structure CopyList where
  id : Nat
  owner : ListOwner
  ctx : Nat
  ktag : Nat
  base : DWord
  count : Nat
  scope : Nat := 0
  em : DWord := 0
  spans : List Span := []
  next : Nat := 0
  running : List Nat := []
  retired : Nat := 0
  stopped : Bool := false
deriving DecidableEq, Repr

/-- A tile-engine operation (R267): TLD and TST with their box, the array's and the scout's with their numbers, and
the vector and s operands read at issue. -/
inductive TileKind where
  | tld (t : Nat) (desc : List DWord) (origin : List Int) (tr s4 strip : Bool)
  | tst (t : Nat) (desc : List DWord) (origin : List Int) (tr strip : Bool)
  | tzero (t : Nat)
  | tcvt (t a ty h : Nat) (tr : Bool) (mode : Nat) (sat : Bool)
  | mma (a ta tb tyA tyB : Nat) (mx : Bool)
  | mmaq (a ta tb tyA tyB : Nat) (mx : Bool) (n : Nat)
  | mmas (a ta tb tyA tyB : Nat) (mx : Bool)
  | scout (q k : Nat) (c : Word) (d : Nat)
  | ard (a c d : Nat)
  | arow (a op d : Nat)
  | ascale (a : Nat) (v : Lanes)
  | aexp (a : Nat) (v : Lanes) (k : Word)
  | azero (a : Nat)
deriving DecidableEq, Repr

/-- A queued or started tile operation; spans holds the core's spans at its issue (R330); held and slotBytes are what it read at its start beside its own registers: the B tiles of
its quad (R280), or its accumulator's sparsity slot (R279); moved and value say how many elements of its box TLD has read or TST written, and
what those read are. -/
structure TileOp where
  id : Nat
  slot : Nat
  strand : Nat
  pc : DWord
  em : DWord
  kind : TileKind
  spans : List Span := []
  started : Bool := false
  startedAt : Nat := 0
  held : List Tile := []
  slotBytes : Bank Byte := []
  moved : Nat := 0
  value : Nat := 0
deriving DecidableEq, Repr

/-- The state of an allocated block (R266); a granule of a BOUND one is BUSY while an operation that writes it is at work. -/
inductive BlockState where
  | bound | moving | scrub
deriving DecidableEq, Repr

/-- A block of an allocator (R84): the class (0 vector port 0, 1 vector port 1, 2 tile, 3 accumulator, 4 private pool),
the first granule, the number of granules, the slot that holds it, its state, and those of its granules, by number from its first, that are BUSY. -/
structure Block where
  cls : Nat
  base : Nat
  size : Nat
  slot : Nat
  state : BlockState := .bound
  busy : List Nat := []
deriving DecidableEq, Repr

/-- A compaction move in progress (R85): the class, the slot, where the block was and goes. -/
structure Move where
  cls : Nat
  slot : Nat
  src : Nat
  dst : Nat
deriving DecidableEq, Repr

/-! ## The task unit of a core (R229 to R261) -/

/-- The state of a record before it runs (R238). -/
inductive RecState where
  | pushed | staging | staged | leasing
deriving DecidableEq, Repr

/-- A record on a deque or inbound queue (R239): a number of its own, its address, its sixteen words, kernel tag, DET,
state, when it was pushed and by which task, whether it is available, aged or stolen (R240), whether its extra range is leased,
whether it is a handler (R327), the operand slots still to stage, its relaunches (R293), and how often it was stolen (R258). Its pusher is a
group's number as an agent and the number of the task that pushed. -/
structure Rec where
  id : Nat
  addr : DWord
  words : List DWord
  ctx : Nat
  ktag : Nat
  det : Bool
  state : RecState := .pushed
  pushedAt : Nat := 0
  pusher : Option (Nat × Nat) := none
  available : Bool := false
  aged : Bool := false
  stolen : Bool := false
  leased : Bool := false
  root : Bool := false
  handler : Bool := false
  toStage : List Nat := []
  relaunches : Nat := 0
  steals : Nat := 0
deriving DecidableEq, Repr

/-- A record chosen for a slot (R238 LEASING, R75 BINDING), or a saved group being restored (R75 RESTORING). -/
inductive Binding where
  | record (r : Rec) (slots : List Nat)
  | saved (group : Group) (addr size : Nat) (slot : Nat)
deriving DecidableEq, Repr

/-- A group parked off-core or pre-empted (R86, R96, R97): its group as the task unit keeps it, its save block, its private-pool
granule, and whether it was pre-empted. -/
structure Saved where
  group : Group
  addr : Nat
  size : Nat
  lpBase : Nat
  preempted : Bool
deriving DecidableEq, Repr

/-- A core's steal round (R242): the victims asked, the step and draws made in it, the request outstanding, the reply
on its way, and the time its backoff ends. -/
structure Steal where
  asked : List Nat := []
  stepNo : Nat := 1
  drawn : Nat := 0
  victim : Option Nat := none
  reply : Option Rec := none
  answered : Bool := false
  backoff : Option Nat := none
deriving DecidableEq, Repr

/-- A descriptor-cache entry (R174): context, address and the eight words held. -/
structure DescEntry where
  ctx : Nat
  addr : Nat
  words : List DWord
deriving DecidableEq, Repr

/-- A descriptor on its way into the cache (R174): the strand whose instruction names it, that instruction's address, the pointer, and the
core's spans as the instruction found them (R330). -/
structure Fetch where
  slot : Nat
  strand : Nat
  pc : DWord
  ptr : Nat
  spans : List Span := []
deriving DecidableEq, Repr

/-- A record or task that ends without its slot, whose future the task unit still has to complete (R236, R238); counts says whether
the kernel's live-task counter falls for it (R23), and no is the task's number where it had entered. -/
structure EndRec where
  record : Rec
  ending : Ending
  counts : Bool := true
  no : Nat := 0
deriving DecidableEq, Repr

/-- What a port issued last (R87, R88): when, the slot and strand, its owned mask, whether its instruction may have a partner,
and whether it faulted (R93). -/
structure Port where
  time : Nat
  slot : Nat
  strand : Nat
  owned : DWord
  pairs : Bool
  faulted : Bool := false
deriving DecidableEq, Repr

/-- The units of a core (R14) but for its management registers and scratchpad. cmds stands in the order in which the copy engine serves its
commands (R184); resetting says that the tile engine waits for the scrub of its last reset to end (R295); ends holds what still has to
be completed, ports what the issue ports issued last. -/
structure CoreState where
  slots : Bank Slot := []
  blocks : List Block := []
  move : Option Move := none
  deque : List Rec := []
  inbound : List Rec := []
  binding : List Binding := []
  relaunch : List Rec := []
  grants : List Nat := []
  saved : List Saved := []
  lfsr : Half := 0
  steal : Steal := {}
  desc : List DescEntry := []
  fetches : List Fetch := []
  cmds : List CopyCmd := []
  lists : List CopyList := []
  tileOps : List TileOp := []
  lastTile : Nat := 0
  resetting : Bool := false
  ends : List EndRec := []
  ports : Bank Port := []
deriving DecidableEq, Repr

/-! ## Spawned records on the way (R244, R245) -/

/-- A SPAWNR record on the way or waiting to be sent again (R244, R245, R250); uid is the sending group's number as an agent. -/
structure SpawnMsg where
  id : Nat
  core : Nat
  slot : Nat
  strand : Nat
  uid : Nat
  pc : DWord
  op : Nat
  ctx : Nat
  ktag : Nat
  target : Nat
  rank : Option Nat
  blk : Bool
  dest : Nat
  future : DWord
  record : Rec
  refused : Bool := false
  accepted : Bool := false
  dropped : Bool := false
  arrived : Bool := false
  granted : Bool := false
  since : Nat := 0
deriving DecidableEq, Repr

/-! ## Kernels, queues, regions (R297 to R318) -/

/-- A region's effective values as a kernel holds them (R308), with the path from the region to its root and, for each
region of the path, its own effective tile, accumulator, deque-share and line budgets. -/
structure Effective where
  path : List Nat := []
  clusters : BitVec 96 := 0
  budgets : List (Nat × Nat × Nat × Nat) := []
  priority : Nat := 0
  policy : Nat := 0
  watchdog : Nat := 0
  saveBase : Nat := 0
  saveSize : Nat := 0
  handler : DWord := 0
  logged : List DWord := []
  fd : Nat := 0
deriving DecidableEq, Repr

/-- Where a launch came from (R301, R306): a LAUNCH packet, or a node of a graph run. -/
inductive LaunchBy where
  | packet (queue pkt : Nat)
  | node (run i : Nat)
deriving DecidableEq, Repr

/-- A launch (R301): its source, context, code base, region, root id, lease words, record pointer, completion
barrier, and the packet's or image's address. -/
structure Launch where
  source : LaunchBy
  ctx : Nat
  codeBase : DWord
  region : Nat
  rootId : DWord
  leases : List DWord
  record : DWord
  barrier : DWord
  addr : DWord
deriving DecidableEq, Repr

/-- The states of a kernel that holds an entry (R313). -/
inductive KernelState where
  | launching | running | draining
deriving DecidableEq, Repr

/-- A kernel entry (R313): its launch, effective values, live-task counter, root record, what LAUNCHING still waits
for, the core chosen, a cancellation held or applied, when it was applied unless it has ended a task since, the order in which it entered RUNNING, and DET. -/
structure Kernel where
  tag : Nat
  launch : Launch
  eff : Effective
  state : KernelState
  live : Nat := 0
  root : List DWord := []
  leasesLeft : Nat := 0
  placed : Option Nat := none
  cancelHeld : Bool := false
  cancelled : Bool := false
  cancelAt : Option Nat := none
  runOrder : Nat := 0
  det : Bool := false
deriving DecidableEq, Repr

/-- A packet of a queue that has started and not completed (R302): its context and address, the completion barrier it adds to, and
the region and kernel that a barrier broken by that add names (R216). node: the launch of a graph's node, whose barrier's add is still
to come (R306, R313), which is no packet of the queue. -/
structure Started where
  id : Nat
  ctx : Nat
  addr : DWord
  barrier : DWord
  region : Nat := 0xFFFFFFFF
  ktag : Nat := 0
  finished : Bool := false
  node : Bool := false
deriving DecidableEq, Repr

/-- A queue (R297, R298) but for its registers: the current slot, the packet read there that has not started, the
packets started, the number of the next one, the start of the poll timer and the period it runs with (R299), whether a read of the slot waits for
its page, and, after a stop at a packet that had started, the slot and phase of that packet, which RUN reads again. -/
structure Queue where
  slot : Nat := 0
  current : Option (List DWord) := none
  started : List Started := []
  nextPkt : Nat := 0
  pollFrom : Nat := 0
  poll : Nat := 0
  reading : Bool := false
  redo : Option (Nat × Nat) := none
deriving DecidableEq, Repr

/-- A graph in progress (R306): its queue and packet, its context and the packet's address, the nodes' image pointers and successors,
the working counters, the nodes to be launched in order, those running, how many are done, and the code of the first FAULTED kernel. -/
structure GraphRun where
  id : Nat
  queue : Nat
  pkt : Nat
  ctx : Nat
  addr : DWord
  nodes : List (DWord × List Nat)
  counters : List Nat
  ready : List Nat
  running : List Nat := []
  finished : Nat := 0
  fault : Option Nat := none
deriving DecidableEq, Repr

/-- What Spar keeps for a region: its placement cursor (R316), when its watchdog last restarted (R311), and since when a group of it has been
frozen for the debugger (R98). -/
structure RegionRt where
  cursor : Nat := 0
  restarted : Nat := 0
  frozenFrom : Option Nat := none
deriving DecidableEq, Repr

/-- An allocated piece of a save area (R312). -/
structure SaveBlock where
  ctx : Nat
  base : Nat
  size : Nat
deriving DecidableEq, Repr

/-! ## Contexts and faults (R319 to R329) -/

/-- The state of a context (R320). -/
inductive CtxState where
  | free | opened | releasing | closing | scrubbing
deriving DecidableEq, Repr

/-- A fault record (R324). -/
structure FaultRec where
  code : Nat
  kind : Nat
  suppressed : Bool := false
  relaunched : Bool := false
  core : Nat := 0xFFFF
  slot : Nat := 0xFF
  strand : Nat := 0xFF
  region : Nat := 0xFFFFFFFF
  ktag : Nat := 0
  task : DWord := 0
  pc : DWord := 0
  mask : DWord := 0
  addr : DWord := 0
  info : DWord := 0
deriving DecidableEq, Repr

/-- An entry of an order log (R257): logical id, index and kind, value, address. -/
structure LogEntry where
  id : DWord
  index : Nat
  kind : Nat
  value : DWord
  addr : DWord
deriving DecidableEq, Repr

/-- A handler that waits for the page of its record or of one of its operands' descriptors (R327, R337): its core and kernel, its pointer, the
fault record that it receives with that record's number, and the logical id or region that its own id comes from. -/
structure HeldHandler where
  core : Nat
  ktag : Nat
  ptr : DWord
  fault : FaultRec
  seq : Nat
  id : DWord
deriving DecidableEq, Repr

/-- A context: its state, the span table that it gives its cores and the older ones that some cores still hold (R330), the clusters it is giving
up, fault records that wait for an ABSENT page (R325), the records written since the open (R324), the order-log entries that wait for an
ABSENT page (R412), and the handlers that wait for a page (R327). -/
structure Context where
  state : CtxState := .free
  spans : List Span := []
  lag : Bank (List Span) := []
  releasing : BitVec 96 := 0
  recsWaiting : List FaultRec := []
  seq : Nat := 0
  logWaiting : List LogEntry := []
  handlers : List HeldHandler := []
deriving DecidableEq, Repr

/-! ## Pages, leases, commands (R330 to R345) -/

/-- The state of a page that has a state entry (R337). -/
inductive PageState where
  | requested | replicated | collapsing | migrating | draining
deriving DecidableEq, Repr

/-- A page home's state entry (R333, R337): size, state, replica dies, the command that holds it, whether it drains next, and, for a DRAINING
page, each lease that was on it and the time at which that lapses there (R341), and whether a write waits there for its replicas to be
invalid (R338). -/
structure Page where
  size : Nat
  state : Option PageState := none
  replicas : List Nat := []
  cmd : Option Nat := none
  drainNext : Bool := false
  lapses : Bank Nat := []
  collapse : Bool := false
deriving DecidableEq, Repr

/-- Who holds a lease (R340, R247): a kernel, a record's or task's extra range, or a range of LEASE, of a task by its number, with the group
that asked for it, by its number as an agent. -/
inductive Holder where
  | kernel (tag : Nat)
  | record (core rec : Nat)
  | task (core uid no : Nat)
deriving DecidableEq, Repr

/-- A lease (R340, R342): its range of virtual addresses in a context, the intermediate ranges that these were when it was asked for (R330),
and in real time when it was granted and renewed last and its expiry. -/
structure Lease where
  id : Nat
  holder : Holder
  ctx : Nat
  base : Nat
  size : Nat
  pieces : List (Option (Nat × Nat)) := []
  granted : Nat
  renewed : Nat
  expiry : Nat
deriving DecidableEq, Repr

/-- A lease request (R340), with the intermediate ranges that its range is through the spans of its sender (none where no span leads, R330),
and for LEASE the strand that waits for its answer, and the answer; posted once its absent pages were asked for. -/
structure LeaseReq where
  id : Nat
  holder : Holder
  ctx : Nat
  base : Nat
  size : Nat
  pieces : List (Option (Nat × Nat)) := []
  strand : Nat := 0
  answer : Option Nat := none
  posted : Bool := false
deriving DecidableEq, Repr

/-- A page command (R343, R344). -/
structure PageCmd where
  id : Nat
  op : Nat
  ctx : Nat
  a : DWord
  b : DWord
  tag : DWord
  started : Bool := false
deriving DecidableEq, Repr

/-- A page-ring entry (R345). -/
structure RingEntry where
  ia : Nat
  tag : DWord
  freed : DWord
  ctx : Nat
  kind : Nat
  result : Nat
deriving DecidableEq, Repr

/-- A Lanyard notice (R363). -/
structure Notice where
  addr : DWord
  num : Nat
  ctx : Nat
  kind : Nat
deriving DecidableEq, Repr

/-! ## Links, routers, the part (R347 to R366, R401 to R410) -/

/-- The state of a link (R348). -/
inductive LinkState where
  | down | training | up | retry
deriving DecidableEq, Repr

/-- A link: its state, the sequence number (12 bits) of the flit in retry and its resends, and when training began. -/
structure Link where
  state : LinkState := .down
  bad : Nat := 0
  resends : Nat := 0
  since : Nat := 0
deriving DecidableEq, Repr

/-- A router's power (R356: 0 ON, 1 OFF, 2 WAKING), the end of its hold or wake, when a flit last passed, and, for output o, plane p and VC v
at 16·o + 4·p + v, the age counters and promotions, and at 4·o + p the VC whose turn it is with the packets that it has sent in it (R354). -/
structure RouterRt where
  power : Nat := 0
  hold : Nat := 0
  idleFrom : Nat := 0
  ages : Bank Nat := []
  promoted : List Nat := []
  turns : Bank (Nat × Nat) := []
deriving DecidableEq, Repr

/-- One direction of a link between Mainmast and a Spar controller (R402): the messages sent and not consumed, oldest first, each with a permit;
those that the sender holds for want of one; and when the receiver last answered. -/
structure CmdLink where
  sent : List Nat := []
  held : List Nat := []
  since : Nat := 0
deriving DecidableEq, Repr

/-- The boot state (R404). -/
inductive Boot where
  | reset | rom | bist | ready | halted
deriving DecidableEq, Repr

/-- A signed attestation report (R407): phase, the digests of the outgoing and incoming images, the nonce, and whether the incoming
image's key signed it. -/
structure Report where
  phase : Nat
  outgoing : List Byte
  incoming : List Byte
  nonce : Nat
  byIncoming : Bool
deriving DecidableEq, Repr

/-- A debugger event (R410). -/
structure DbgEvent where
  kind : Nat
  core : Nat
  slot : Nat
  strand : Nat
  code : Nat
  ctx : Nat
deriving DecidableEq, Repr

/-- The held bytes of one 128-byte line of a host window at a port, until they are published (R207). -/
structure Hold where
  port : Nat
  addr : Nat
  bytes : Bank Byte
deriving DecidableEq, Repr

/-! ## Whose turn it is -/

/-- The operands of a unit's step. core, slot, strand: whom it concerns; op and acc: an outstanding instruction and the
index of its access (op2, acc2: a second one); id: the number of a request, record, lease, command, kernel, queue,
region, link, router, die or cluster; ctx, ia, addr, size: a context, an intermediate address, a register address or
offset, a size; port: the CXL port of a host access; code: a fault code, VC or direction; v: a value written; data: one of more than eight
bytes; task, rank, hops: of a packet between parts, its task's logical id, the rank it is for and the hops it has made (R357); flag. -/
structure StepArgs where
  core : Nat := 0
  slot : Nat := 0
  strand : Nat := 0
  op : Nat := 0
  acc : Nat := 0
  op2 : Nat := 0
  acc2 : Nat := 0
  id : Nat := 0
  ctx : Nat := 0
  ia : Nat := 0
  addr : Nat := 0
  size : Nat := 0
  port : Nat := 0
  code : Nat := 0
  v : DWord := 0
  data : Nat := 0
  task : DWord := 0
  rank : Nat := 0
  hops : Nat := 0
  flag : Bool := false
deriving DecidableEq, Repr

/-- What a turn does: a port of a core issues a strand, chosen by R87 among those not named as held back by latency in
this cycle (slot and strand); or a unit takes a step with its operands; or the L2 gives up the line of an intermediate address of a
context, whose dirty bytes go to the storage beneath (R210); or a host reads size bytes of BAR 0 of a port, with CXL IDE or without (R361, R401). -/
inductive TurnKind where
  | issue (core port : Nat) (held : List (Nat × Nat))
  | unit (i : Instr) (a : StepArgs)
  | evict (ctx ia : Nat)
  | read (port addr size : Nat) (ide : Bool)
deriving DecidableEq, Repr

/-- A turn: router cycles that pass first (R6), then what happens. -/
structure Turn where
  delay : Nat
  what : TurnKind
deriving DecidableEq, Repr

/-- The strand whose instruction is being executed: where it is, and the address of its hint sequence (R60) and of the
instruction word itself. -/
structure Cur where
  core : Nat := 0
  slot : Nat := 0
  strand : Nat := 0
  pc : DWord := 0
  addr : DWord := 0
deriving DecidableEq, Repr

/-- The state of the part. time counts router cycles, real the real time, in parts of a nominal router cycle of which realTick make one (R6);
draws counts the free choices taken (Config.choice); nextId numbers
operations, requests and records. mgmt holds the management registers by their offset in BAR 0 (R401); mem holds
every byte of storage by cell number; l2 holds the dirty bytes of the L2 by the cell beneath them, each with the number (context and intermediate address) of the L2 byte; held
holds host-window bytes not yet published (R207), by port and host physical address; hostData holds what the last
host read through each port returned, and at 256 + rank and 512 + rank what a peer's last access returned and its fault code, the further words
of a longer read at 1,024·i above the first; hostQ holds the writes that each port has accepted and not applied yet, by BAR offset, size and
value (R206); owners names the context that each range of frames was mapped into last (R322); peerRefused holds the ranks whose records a core
has refused, by the number on its grant list (R245); pageUse lists die and page of the translations
used, the last one last (R344); logSeq counts the atomics of the logged lines, by context + 64 times the cell line, and ordMode is the mode of each context's
order log in force (R262); flash holds the module flash, incoming, digest and inDigest the firmware (R403, R406), permits the
messages on each link and when it was last served (R402), ctxCmds the CTX_CTL commands that wait for the end of a hand-over (R406),
dbgCmd the debugger command in progress (R410), droops the droop events (core and time) still counted (R408), slow the
spans of time (cluster, start, end) in which a cluster's clock was halved (R408), reefAt the end of Reef's
last interval, and tags the tags of the last packets of each source rank (R360). -/
structure State where
  time : Nat
  real : Nat
  agenda : List Turn
  arg : StepArgs
  cur : Cur
  draws : Nat
  nextId : Nat
  mem : Memory
  l2 : Bank (Nat × Byte)
  held : List Hold
  releases : Bank (List Release)
  mgmt : Bank DWord
  cores : Bank CoreState
  ops : List MemOp
  waits : List WaitReq
  lines : List BarLine
  pending : List Pending
  spawns : List SpawnMsg
  contexts : Bank Context
  kernels : Bank Kernel
  launches : List Launch
  reuse : Bank Nat
  queues : Bank Queue
  graphs : List GraphRun
  regions : Bank RegionRt
  saves : List SaveBlock
  pages : Bank Page
  leases : List Lease
  leaseReqs : List LeaseReq
  pageCmds : List PageCmd
  ptCache : Bank DWord
  /-- The words that stores have replaced where live kernels may fetch, by kernel, context and address (R48; Machine/Space.lean). -/
  code : Bank (List Word)
  pageUse : List (Nat × Nat)
  ringHeld : List RingEntry
  notices : Bank (List Notice)
  logSeq : Bank Nat
  ordMode : Bank Nat
  links : Bank Link
  routers : Bank RouterRt
  boot : Boot
  strap : Bool
  flash : Memory
  incoming : List DWord
  digest : List Byte
  inDigest : List Byte
  reports : List Report
  permits : Bank CmdLink
  ctxCmds : List (Nat × Nat)
  semBeat : Nat
  dbgEvents : List DbgEvent
  dbgCmd : Option DWord
  droops : List (Nat × Nat)
  slow : List (Nat × Nat × Nat)
  reefAt : Nat
  hostData : Bank DWord
  hostQ : Bank (List (Nat × Nat × Nat))
  owners : List (Nat × Nat × Nat)
  peerRefused : Bank Nat
  tags : Bank (List Nat)
deriving DecidableEq, Repr

/-- Why a step stops the machine. Every one is safe: the machine stops where the part would go on or where no such step
exists, so no false claim about a next state can be proved from it. -/
inductive Fault where
  /-- Raised by every instruction of the opcode map when State.cur names no strand of a bound slot: no issuing strand,
  so no instruction. The step function never calls a meaning so. Safe. -/
  | noStrand
deriving DecidableEq, Repr

/-- Why an instruction has no meaning. -/
inductive Refusal where
  /-- Raised by an arm of exec whose instruction has no meaning yet. Safe. -/
  | notModelled (mnemonic : String)
deriving DecidableEq, Repr

/-- The part right after reset (R404, and the reset column of every register table): boot state RESET, every slot FREE,
every queue, list and memory empty, every management register at its reset value (none listed), and the router clock
at zero. -/
def State.reset : State where
  time := 0
  real := 0
  agenda := []
  arg := {}
  cur := {}
  draws := 0
  nextId := 1
  mem := []
  l2 := []
  held := []
  releases := []
  mgmt := []
  cores := []
  ops := []
  waits := []
  lines := []
  pending := []
  spawns := []
  contexts := []
  kernels := []
  launches := []
  reuse := []
  queues := []
  graphs := []
  regions := []
  saves := []
  pages := []
  leases := []
  leaseReqs := []
  pageCmds := []
  ptCache := []
  code := []
  pageUse := []
  ringHeld := []
  notices := []
  logSeq := []
  ordMode := []
  links := []
  routers := []
  boot := .reset
  strap := false
  flash := []
  incoming := []
  digest := []
  inDigest := []
  reports := []
  permits := []
  ctxCmds := []
  semBeat := 0
  dbgEvents := []
  dbgCmd := none
  droops := []
  slow := []
  reefAt := 0
  hostData := []
  hostQ := []
  owners := []
  peerRefused := []
  tags := []

end Sys2Proof.Machine
end

