-- ==== Sys2Proof/Machine/Bits.lean ====
section
/-! DEFINITION. Plain helpers over numbers, banks and byte storage: sparse banks, canonical memory, little-endian access
(R4), sign extension, and lists of lanes. -/
namespace Sys2Proof.Machine

/-- The value listed for a number, if one is. -/
def Bank.look {α : Type} : Bank α → Nat → Option α
  | [], _ => none
  | (j, v) :: t, k => if j = k then some v else Bank.look t k

/-- The value of a number, or a default where none is listed. -/
def Bank.lookD {α : Type} (b : Bank α) (k : Nat) (d : α) : α := (Bank.look b k).getD d

/-- Lists a value for a number, in rising order of numbers. -/
def Bank.put {α : Type} : Bank α → Nat → α → Bank α
  | [], k, v => [(k, v)]
  | (j, w) :: t, k, v =>
    if k < j then (k, v) :: (j, w) :: t
    else if j = k then (k, v) :: t
    else (j, w) :: Bank.put t k v

/-- The same values under other numbers. -/
def Bank.rekey {α : Type} (f : Nat → Nat) (b : Bank α) : Bank α := b.foldl (fun c (k, v) => Bank.put c (f k) v) []

/-- Lists nothing for a number. -/
def Bank.drop {α : Type} : Bank α → Nat → Bank α
  | [], _ => []
  | (j, w) :: t, k => if j = k then Bank.drop t k else (j, w) :: Bank.drop t k

/-- Changes the listed value of a number, or the default's. -/
def Bank.alter {α : Type} (b : Bank α) (k : Nat) (d : α) (f : α → α) : Bank α := Bank.put b k (f (Bank.lookD b k d))

/-- The byte a cell holds: the listed one, or zero (a cell that nothing has written: DESIGN CHOICE, log entry 1). -/
def Memory.byte : Memory → Nat → Byte
  | [], _ => 0
  | (j, v) :: t, a => if j = a then v else if a < j then 0 else Memory.byte t a

/-- Writes one byte and keeps the canonical form: cells rise and none is listed as zero. -/
def Memory.setByte : Memory → Nat → Byte → Memory
  | [], a, v => if v = 0 then [] else [(a, v)]
  | (j, w) :: t, a, v =>
    if a < j then (if v = 0 then (j, w) :: t else (a, v) :: (j, w) :: t)
    else if j = a then (if v = 0 then t else (a, v) :: t)
    else (j, w) :: Memory.setByte t a v

/-- The canonical form of memory: cell numbers strictly rise and no cell is listed as zero. -/
def Memory.wf : Memory → Bool
  | [] => true
  | [(_, v)] => v != 0
  | (j, v) :: (k, w) :: t => v != 0 && decide (j < k) && Memory.wf ((k, w) :: t)

/-- The n bytes from cell a as one little-endian number (R4). -/
def Memory.read (m : Memory) (a : Nat) : Nat → Nat
  | 0 => 0
  | n + 1 => (Memory.byte m a).toNat + 256 * Memory.read m (a + 1) n

/-- Writes the low n bytes of a number from cell a, little-endian (R4). -/
def Memory.write (m : Memory) (a : Nat) : Nat → Nat → Memory
  | 0, _ => m
  | n + 1, v => Memory.write (Memory.setByte m a (BitVec.ofNat 8 v)) (a + 1) n (v / 256)

/-- The bits hi to lo of a number (R3). -/
def bits (x hi lo : Nat) : Nat := (x >>> lo) % 2 ^ (hi + 1 - lo)

/-- One bit of a number. -/
def bit (x n : Nat) : Bool := x.testBit n

/-- A number's low w bits read as a signed integer (R25, R114). -/
def sx (w x : Nat) : Int := if x % 2 ^ w < 2 ^ (w - 1) then (x % 2 ^ w : Nat) else (x % 2 ^ w : Nat) - (2 ^ w : Nat)

/-- The low w bits of an integer (R26). -/
def low (w : Nat) (x : Int) : Nat := (x % (2 ^ w : Nat)).toNat

/-- A number rounded up to a multiple. -/
def roundUp (x n : Nat) : Nat := (x + n - 1) / n * n

/-- The lanes 0 to 63 in increasing order. -/
def allLanes : List Nat := List.range 64

/-- The lanes of a mask, in increasing order. -/
def lanesOf (m : DWord) : List Nat := allLanes.filter fun l => m.getLsbD l

/-- The mask of the lanes that a test accepts. -/
def maskOf (p : Nat → Bool) : DWord :=
  BitVec.ofNat 64 (allLanes.foldr (fun l acc => if p l then acc ||| (1 <<< l) else acc) 0)

/-- The number of ones of a mask. -/
def ones (m : DWord) : Nat := (lanesOf m).length

/-- Lane values from a function of the lane. -/
def Lanes.of (f : Nat → Word) : Lanes := allLanes.map fun l => (l, f l)
/-- Window values from a function of the lane. -/
def Lanes64.of (f : Nat → DWord) : Lanes64 := allLanes.map fun l => (l, f l)

/-- The lane's value, zero where none is listed (R76). -/
def Lanes.at (v : Lanes) (l : Nat) : Word := Bank.lookD v l 0
/-- The lane's window value. -/
def Lanes64.at (v : Lanes64) (l : Nat) : DWord := Bank.lookD v l 0

/-- The first natural number below n that a test accepts. -/
def firstBelow (p : Nat → Bool) (n : Nat) : Option Nat := (List.range n).find? p

/-- The number's value in a list of natural numbers, zero past its end. -/
def nth (l : List Nat) (i : Nat) : Nat := l.getD i 0

/-- Inserts a value into a list before the first one it precedes. -/
def insertBy {α : Type} (le : α → α → Bool) (x : α) : List α → List α
  | [] => [x]
  | y :: t => if le x y then x :: y :: t else y :: insertBy le x t

/-- A list in order, equal values kept in theirs. -/
def sortBy {α : Type} (le : α → α → Bool) : List α → List α
  | [] => []
  | x :: t => insertBy le x (sortBy le t)

/-- Words of eight bytes of a byte function, from offset 0. -/
def dwords (f : Nat → Byte) (n : Nat) : List DWord :=
  (List.range n).map fun i =>
    f (8*i+7) ++ f (8*i+6) ++ f (8*i+5) ++ f (8*i+4) ++ f (8*i+3) ++ f (8*i+2) ++ f (8*i+1) ++ f (8*i)

/-- Byte k of a number, little-endian. -/
def byteOf (x k : Nat) : Byte := BitVec.ofNat 8 (x >>> (8 * k))

end Sys2Proof.Machine
end

