-- ==== Sys2Proof/Machine/Regs.lean ====
section
/-! DEFINITION. The management registers of BAR 0 (R401): where each stands, its reset value, and which of its bits take
which access code (R411). Their values stand in State.mgmt by offset, none listed at reset; fields that only mirror other
state are read from that state (Machine/RegEvents.lean). -/
namespace Sys2Proof.Machine

/-- The registers, with the number of the core, die, context, queue or other object each belongs to. -/
inductive Reg where
  | spadSplit (c : Nat) | cpeList (c : Nat) | cpeKick (c : Nat) | cpeStat (c : Nat)
  | stgDepth (c : Nat) | tskCfg (c : Nat) | tskStat (c : Nat)
  | tleCfg (c : Nat) | tleStat (c : Nat) | coreSens (c : Nat)
  | barCfg (d : Nat) | barStat (d : Nat) | hlyXcluMin (d : Nat) | hlyXdieMin (d : Nat) | hlyCfg (d : Nat)
  | spillBase (d n : Nat) | spillSize (d n : Nat)
  | nocCfg (d : Nat) | nocStat (d : Nat) | portCtl (d j : Nat) | portStat (d j : Nat)
  | aptIa (p i : Nat) | aptCtl (p i : Nat) | nqBase (p : Nat) | nqHead (p : Nat) | nqTail (p : Nat) | lnyStat (p : Nat)
  | ordBase (n : Nat) | ordSize (n : Nat) | ordCtl (n : Nat) | ordHead (n : Nat)
  | queBase (n : Nat) | queCtl (n : Nat) | queStat (n : Nat) | queDb (n : Nat) | queCfg
  | qlinkCfg (n : Nat) | qlinkCnt (n : Nat)
  | rgnBase | rgnCnt | krnCancel | krnStat | sparPlace | semOwner
  | ctxCtl (n : Nat) | ctxCluLo (n : Nat) | ctxCluHi (n : Nat) | ctxIa (n : Nat) | ctxIaSize (n : Nat) | ctxPt (n : Nat)
  | ctxRel (n : Nat) | ctxFq (n : Nat) | ctxFqHead (n : Nat) | ctxFqTail (n : Nat) | ctxPge (n : Nat) | ctxCsp (n : Nat)
  | ctxSpad (n : Nat)
  | spanVa (n i : Nat) | spanIa (n i : Nat) | spanCtl (n i : Nat) | spanRsv (n i : Nat)
  | pgeCmdA | pgeCmdB | pgeCmdTag | pgeCmdGo | pgeCmdStat | pgeRing | pgeRingHead | pgeRingTail
  | lnkDom | lnkRoute (r : Nat) | lnyRoute
  | hwBase (n : Nat) | hwCtl (n : Nat) | hwVer (n : Nat)
  | fwCtl | fwStat | fwImg | bistRes | reefLimit | reefStat
  | dbgAttach | dbgBuf | dbgCmd | dbgStat | dbgEvt
deriving DecidableEq, Repr

/-- The register of a core's block at an offset in it (R169, R189, R260, R296, R409). -/
def Reg.ofCore (c o : Nat) : Option Reg :=
  match o with
  | 0x040 => some (.spadSplit c)
  | 0x080 => some (.cpeList c)
  | 0x088 => some (.cpeKick c)
  | 0x090 => some (.cpeStat c)
  | 0x0C0 => some (.stgDepth c)
  | 0x0C8 => some (.tskCfg c)
  | 0x0D0 => some (.tskStat c)
  | 0x100 => some (.tleCfg c)
  | 0x108 => some (.tleStat c)
  | 0x140 => some (.coreSens c)
  | _ => none

/-- The register of any die's block at an offset in it (R228, R261, R355, R358, R362). -/
def Reg.ofDie (d o : Nat) : Option Reg :=
  if o = 0x200 then some (.barCfg d)
  else if o = 0x208 then some (.barStat d)
  else if o = 0x300 then some (.hlyXcluMin d)
  else if o = 0x308 then some (.hlyXdieMin d)
  else if o = 0x310 then some (.hlyCfg d)
  else if 0x400 ≤ o ∧ o < 0x800 then
    (if o % 16 = 0 then some (.spillBase d ((o - 0x400) / 16)) else some (.spillSize d ((o - 0x400) / 16)))
  else if o = 0x70000 then some (.nocCfg d)
  else if o = 0x70008 then some (.nocStat d)
  else if 0x73000 ≤ o ∧ o < 0x73180 then
    (if o % 64 = 0 then some (.portCtl d ((o - 0x73000) / 64))
     else if o % 64 = 8 then some (.portStat d ((o - 0x73000) / 64)) else none)
  else if d = 0 ∨ d = 7 then
    let p := d / 7
    (if 0x71000 ≤ o ∧ o < 0x71100 then
      (if o % 16 = 0 then some (.aptIa p ((o - 0x71000) / 16)) else some (.aptCtl p ((o - 0x71000) / 16)))
     else if o = 0x71100 then some (.nqBase p)
     else if o = 0x71108 then some (.nqHead p)
     else if o = 0x71110 then some (.nqTail p)
     else if o = 0x71118 then some (.lnyStat p)
     else none)
  else none

/-- The register of context n's block at an offset in it (R319, R325, R332). -/
def Reg.ofCtx (n o : Nat) : Option Reg :=
  match o with
  | 0x00 => some (.ctxCtl n)
  | 0x08 => some (.ctxCluLo n)
  | 0x10 => some (.ctxCluHi n)
  | 0x18 => some (.ctxIa n)
  | 0x20 => some (.ctxIaSize n)
  | 0x28 => some (.ctxPt n)
  | 0x30 => some (.ctxRel n)
  | 0x38 => some (.ctxFq n)
  | 0x40 => some (.ctxFqHead n)
  | 0x48 => some (.ctxFqTail n)
  | 0x50 => some (.ctxPge n)
  | 0x58 => some (.ctxCsp n)
  | 0x60 => some (.ctxSpad n)
  | _ => none

/-- The single registers of die 0's block (R305, R318, R323, R343, R358, R363, R409, R410). -/
def Reg.ofOne (o : Nat) : Option Reg :=
  match o with
  | 0x38000 => some .queCfg
  | 0x40000 => some .rgnBase
  | 0x40008 => some .rgnCnt
  | 0x40010 => some .krnCancel
  | 0x40018 => some .krnStat
  | 0x40020 => some .sparPlace
  | 0x40100 => some .semOwner
  | 0x68000 => some .pgeCmdA
  | 0x68008 => some .pgeCmdB
  | 0x68010 => some .pgeCmdTag
  | 0x68018 => some .pgeCmdGo
  | 0x68020 => some .pgeCmdStat
  | 0x68040 => some .pgeRing
  | 0x68048 => some .pgeRingHead
  | 0x68050 => some .pgeRingTail
  | 0x71200 => some .lnyRoute
  | 0x74000 => some .lnkDom
  | 0x80000 => some .fwCtl
  | 0x80008 => some .fwStat
  | 0x80010 => some .fwImg
  | 0x80020 => some .bistRes
  | 0x80040 => some .reefLimit
  | 0x80048 => some .reefStat
  | 0x80100 => some .dbgAttach
  | 0x80108 => some .dbgBuf
  | 0x80110 => some .dbgCmd
  | 0x80118 => some .dbgStat
  | 0x80120 => some .dbgEvt
  | _ => none

/-- A register of die 0's block alone (R262, R297, R303, R319, R330, R364 and those of Reg.ofOne). -/
def Reg.ofDie0 (o : Nat) : Option Reg :=
  if 0x800 ≤ o ∧ o < 0x1000 then
    (if o % 32 = 0 then some (.ordBase ((o - 0x800) / 32))
     else if o % 32 = 8 then some (.ordSize ((o - 0x800) / 32))
     else if o % 32 = 16 then some (.ordCtl ((o - 0x800) / 32))
     else some (.ordHead ((o - 0x800) / 32)))
  else if 0x10000 ≤ o ∧ o < 0x30000 then
    (if o % 32 = 0 then some (.queBase ((o - 0x10000) / 32))
     else if o % 32 = 8 then some (.queCtl ((o - 0x10000) / 32))
     else if o % 32 = 16 then some (.queStat ((o - 0x10000) / 32))
     else some (.queDb ((o - 0x10000) / 32)))
  else if 0x30000 ≤ o ∧ o < 0x31000 then
    (if o % 16 = 0 then some (.qlinkCfg ((o - 0x30000) / 16)) else some (.qlinkCnt ((o - 0x30000) / 16)))
  else if 0x50000 ≤ o ∧ o < 0x52000 then Reg.ofCtx ((o - 0x50000) / 128) (o % 128)
  else if 0x60000 ≤ o ∧ o < 0x68000 then
    (if o % 32 = 0 then some (.spanVa ((o - 0x60000) / 512) ((o - 0x60000) % 512 / 32))
     else if o % 32 = 8 then some (.spanIa ((o - 0x60000) / 512) ((o - 0x60000) % 512 / 32))
     else if o % 32 = 16 then some (.spanCtl ((o - 0x60000) / 512) ((o - 0x60000) % 512 / 32))
     else some (.spanRsv ((o - 0x60000) / 512) ((o - 0x60000) % 512 / 32)))
  else if 0x72000 ≤ o ∧ o < 0x72200 then
    (if o % 32 = 0 then some (.hwBase ((o - 0x72000) / 32))
     else if o % 32 = 8 then some (.hwCtl ((o - 0x72000) / 32))
     else if o % 32 = 16 then some (.hwVer ((o - 0x72000) / 32))
     else none)
  else if 0x74800 ≤ o ∧ o < 0x75000 then some (.lnkRoute ((o - 0x74800) / 8))
  else Reg.ofOne o

/-- The register at an offset in BAR 0 (R401): aligned to 8, in a die's or a core's block. -/
def Reg.ofAddr (a : Nat) : Option Reg :=
  if a % 8 ≠ 0 then none
  else if a < 0x800000 then
    match Reg.ofDie (a / 0x100000) (a % 0x100000) with
    | some r => some r
    | none => if a < 0x100000 then Reg.ofDie0 a else none
  else if 0x1000000 ≤ a ∧ a < 0x1600000 then Reg.ofCore ((a - 0x1000000) / 0x1000) (a % 0x1000)
  else none

/-- The offset in BAR 0 of a core's register. -/
def coreReg (c o : Nat) : Nat := 0x1000000 + 0x1000 * c + o
/-- The offset in BAR 0 of a die's register. -/
def dieReg (d o : Nat) : Nat := 0x100000 * d + o

/-- The offset in BAR 0 of a register. -/
def Reg.addr : Reg → Nat
  | .spadSplit c => coreReg c 0x040
  | .cpeList c => coreReg c 0x080
  | .cpeKick c => coreReg c 0x088
  | .cpeStat c => coreReg c 0x090
  | .stgDepth c => coreReg c 0x0C0
  | .tskCfg c => coreReg c 0x0C8
  | .tskStat c => coreReg c 0x0D0
  | .tleCfg c => coreReg c 0x100
  | .tleStat c => coreReg c 0x108
  | .coreSens c => coreReg c 0x140
  | .barCfg d => dieReg d 0x200
  | .barStat d => dieReg d 0x208
  | .hlyXcluMin d => dieReg d 0x300
  | .hlyXdieMin d => dieReg d 0x308
  | .hlyCfg d => dieReg d 0x310
  | .spillBase d n => dieReg d (0x400 + 16 * n)
  | .spillSize d n => dieReg d (0x408 + 16 * n)
  | .nocCfg d => dieReg d 0x70000
  | .nocStat d => dieReg d 0x70008
  | .portCtl d j => dieReg d (0x73000 + 64 * j)
  | .portStat d j => dieReg d (0x73008 + 64 * j)
  | .aptIa p i => dieReg (7 * p) (0x71000 + 16 * i)
  | .aptCtl p i => dieReg (7 * p) (0x71008 + 16 * i)
  | .nqBase p => dieReg (7 * p) 0x71100
  | .nqHead p => dieReg (7 * p) 0x71108
  | .nqTail p => dieReg (7 * p) 0x71110
  | .lnyStat p => dieReg (7 * p) 0x71118
  | .ordBase n => 0x800 + 32 * n
  | .ordSize n => 0x808 + 32 * n
  | .ordCtl n => 0x810 + 32 * n
  | .ordHead n => 0x818 + 32 * n
  | .queBase n => 0x10000 + 32 * n
  | .queCtl n => 0x10008 + 32 * n
  | .queStat n => 0x10010 + 32 * n
  | .queDb n => 0x10018 + 32 * n
  | .queCfg => 0x38000
  | .qlinkCfg n => 0x30000 + 16 * n
  | .qlinkCnt n => 0x30008 + 16 * n
  | .rgnBase => 0x40000
  | .rgnCnt => 0x40008
  | .krnCancel => 0x40010
  | .krnStat => 0x40018
  | .sparPlace => 0x40020
  | .semOwner => 0x40100
  | .ctxCtl n => 0x50000 + 128 * n
  | .ctxCluLo n => 0x50008 + 128 * n
  | .ctxCluHi n => 0x50010 + 128 * n
  | .ctxIa n => 0x50018 + 128 * n
  | .ctxIaSize n => 0x50020 + 128 * n
  | .ctxPt n => 0x50028 + 128 * n
  | .ctxRel n => 0x50030 + 128 * n
  | .ctxFq n => 0x50038 + 128 * n
  | .ctxFqHead n => 0x50040 + 128 * n
  | .ctxFqTail n => 0x50048 + 128 * n
  | .ctxPge n => 0x50050 + 128 * n
  | .ctxCsp n => 0x50058 + 128 * n
  | .ctxSpad n => 0x50060 + 128 * n
  | .spanVa n i => 0x60000 + 512 * n + 32 * i
  | .spanIa n i => 0x60008 + 512 * n + 32 * i
  | .spanCtl n i => 0x60010 + 512 * n + 32 * i
  | .spanRsv n i => 0x60018 + 512 * n + 32 * i
  | .pgeCmdA => 0x68000
  | .pgeCmdB => 0x68008
  | .pgeCmdTag => 0x68010
  | .pgeCmdGo => 0x68018
  | .pgeCmdStat => 0x68020
  | .pgeRing => 0x68040
  | .pgeRingHead => 0x68048
  | .pgeRingTail => 0x68050
  | .lnkDom => 0x74000
  | .lnkRoute r => 0x74800 + 8 * r
  | .lnyRoute => 0x71200
  | .hwBase n => 0x72000 + 32 * n
  | .hwCtl n => 0x72008 + 32 * n
  | .hwVer n => 0x72010 + 32 * n
  | .fwCtl => 0x80000
  | .fwStat => 0x80008
  | .fwImg => 0x80010
  | .bistRes => 0x80020
  | .reefLimit => 0x80040
  | .reefStat => 0x80048
  | .dbgAttach => 0x80100
  | .dbgBuf => 0x80108
  | .dbgCmd => 0x80110
  | .dbgStat => 0x80118
  | .dbgEvt => 0x80120

/-- The reset value of each register (the Reset columns); zero where none other stands below. -/
def Reg.resetVal : Reg → DWord
  | .spadSplit _ => 64 ||| (16 <<< 8)
  | .stgDepth _ => 2
  | .tskCfg _ => 64 ||| (256 <<< 16) ||| (0xFFFF <<< 32)
  | .tleCfg _ => 10000 ||| (3 <<< 32)
  | .barCfg _ => 512
  | .hlyXcluMin _ => 2
  | .hlyXdieMin _ => 8
  | .hlyCfg _ => 4 ||| (4 <<< 4) ||| (2 <<< 8) ||| (128 <<< 16)
  | .nocCfg _ => 64 ||| (2 <<< 8) ||| (4 <<< 12) ||| (4 <<< 16) ||| (2 <<< 20) ||| (1024 <<< 24) ||| (16 <<< 40)
  | .portCtl _ _ => 1
  | .nqBase _ => 6
  | .queCtl _ => 6
  | .queStat _ => 1 <<< 18
  | .queCfg => 4096
  | .sparPlace => 85
  | .ctxFq _ => 6
  | .ctxPge _ => 0xFF ||| (1000 <<< 24)
  | .ctxSpad _ => 64 ||| (16 <<< 8)
  | .pgeRing => 6
  | .lnkDom => 1 <<< 8
  | .reefLimit => 3000
  | .reefStat => 1000 <<< 16
  | _ => 0

/-- A mask of the bits hi to lo of a register. -/
def regMask (hi lo : Nat) : DWord := BitVec.ofNat 64 ((2 ^ (hi + 1 - lo) - 1) <<< lo)

/-- The bits of each register with access code RW (R411 and the register tables). -/
def Reg.rwMask : Reg → DWord
  | .spadSplit _ => regMask 13 0
  | .cpeList _ => regMask 63 0
  | .stgDepth _ => regMask 2 0
  | .tskCfg _ => regMask 47 0
  | .tleCfg _ => regMask 34 0
  | .barCfg _ => regMask 15 0
  | .hlyXcluMin _ => regMask 9 0
  | .hlyXdieMin _ => regMask 9 0
  | .hlyCfg _ => regMask 11 0 ||| regMask 31 16
  | .spillBase _ _ => regMask 63 0
  | .spillSize _ _ => regMask 31 0
  | .nocCfg _ => regMask 47 0
  | .portCtl _ _ => regMask 0 0
  | .aptIa _ _ => regMask 55 16
  | .aptCtl _ _ => regMask 39 0
  | .nqBase _ => regMask 63 12 ||| regMask 4 0
  | .nqTail _ => regMask 31 0
  | .ordBase _ => regMask 63 0
  | .ordSize _ => regMask 31 0
  | .ordCtl _ => regMask 1 0
  | .queBase _ => regMask 63 0
  | .queCtl _ => regMask 11 0
  | .queCfg => regMask 23 0
  | .qlinkCfg _ => regMask 11 0 ||| regMask 27 16 ||| regMask 31 31
  | .rgnBase => regMask 63 0
  | .rgnCnt => regMask 31 0
  | .sparPlace => regMask 7 0
  | .ctxCluLo _ => regMask 63 0
  | .ctxCluHi _ => regMask 31 0
  | .ctxIa _ => regMask 55 30
  | .ctxIaSize _ => regMask 31 0
  | .ctxPt _ => regMask 55 12
  | .ctxRel _ => regMask 33 0
  | .ctxFq _ => regMask 55 12 ||| regMask 4 0
  | .ctxFqTail _ => regMask 31 0
  | .ctxPge _ => regMask 7 0 ||| regMask 40 24
  | .ctxCsp _ => regMask 9 0 ||| regMask 26 16
  | .ctxSpad _ => regMask 13 0
  | .spanVa _ _ => regMask 51 16
  | .spanIa _ _ => regMask 55 16
  | .spanCtl _ _ => regMask 35 0
  | .pgeCmdA => regMask 55 0
  | .pgeCmdB => regMask 63 0
  | .pgeCmdTag => regMask 63 0
  | .pgeRing => regMask 55 12 ||| regMask 4 0
  | .pgeRingTail => regMask 31 0
  | .lnkDom => regMask 16 0
  | .lnkRoute _ => regMask 47 0
  | .lnyRoute => regMask 63 0
  | .hwBase _ => regMask 63 12
  | .hwCtl _ => regMask 39 0
  | .hwVer _ => regMask 63 3
  | .fwCtl => regMask 1 1
  | .reefLimit => regMask 11 0
  | .dbgAttach => regMask 63 0
  | .dbgBuf => regMask 55 12
  | _ => 0

/-- The bits of each register with access code WC (R411). -/
def Reg.wcMask : Reg → DWord
  | .cpeStat _ => regMask 2 1
  | .portCtl _ _ => regMask 4 4
  | .ordCtl _ => regMask 3 2
  | .semOwner => regMask 2 2
  | .ctxCtl _ => regMask 8 8
  | .pgeCmdStat => regMask 5 5
  | .fwStat => regMask 5 5
  | .dbgStat => regMask 4 4
  | _ => 0

/-- The bits of each register with access code RC (R411). -/
def Reg.rcMask : Reg → DWord
  | .tskStat _ => regMask 63 32
  | .tleStat _ => regMask 47 0
  | .barStat _ => regMask 47 0
  | .nocStat _ => regMask 47 0
  | .portStat _ _ => regMask 47 0
  | .lnyStat _ => regMask 31 0
  | .krnStat => regMask 47 32
  | .ctxFqHead _ => regMask 63 32
  | _ => 0

/-- The control registers: a write takes effect only from the port that holds SEM_OWNER (R323, R409, R410). -/
def Reg.control : Reg → Bool
  | .fwCtl | .fwImg | .reefLimit | .dbgAttach | .dbgBuf | .dbgCmd => true
  | _ => false

/-- The value a register holds. -/
def State.reg (s : State) (r : Reg) : DWord := Bank.lookD s.mgmt r.addr r.resetVal
/-- Gives a register a value. -/
def State.setReg (s : State) (r : Reg) (v : DWord) : State := { s with mgmt := Bank.put s.mgmt r.addr v }
/-- The bits hi to lo of a register. -/
def State.fld (s : State) (r : Reg) (hi lo : Nat) : Nat := bits (s.reg r).toNat hi lo
/-- Gives the bits hi to lo of a register a value. -/
def State.setFld (s : State) (r : Reg) (hi lo : Nat) (v : Nat) : State :=
  s.setReg r ((s.reg r &&& ~~~ regMask hi lo) ||| (BitVec.ofNat 64 ((v % 2 ^ (hi + 1 - lo)) <<< lo)))
/-- Adds to a counting field that stops at its largest value. -/
def State.bump (s : State) (r : Reg) (hi lo n : Nat) : State :=
  s.setFld r hi lo (min (s.fld r hi lo + n) (2 ^ (hi + 1 - lo) - 1))

end Sys2Proof.Machine
end

