-- ==== Sys2Proof/Machine/Space.lean ====
section
/-! DEFINITION. Where addresses lead: cells of storage, the geometry of the part (R11 to R19), spans (R330, R331), page
tables (R334 to R336), homes (R333), and reading and writing bytes there. -/
namespace Sys2Proof.Machine

/-! ## Cores and slots -/

/-- A core's units as they stand after reset: the LFSR holds core + 1 (R242). -/
def CoreState.fresh (c : Nat) : CoreState := { lfsr := BitVec.ofNat 16 (c + 1) }
/-- A core's units. -/
def State.core (s : State) (c : Nat) : CoreState := Bank.lookD s.cores c (CoreState.fresh c)
/-- Gives a core's units a value. -/
def State.setCore (s : State) (c : Nat) (x : CoreState) : State := { s with cores := Bank.put s.cores c x }
/-- A slot of a core, FREE where nothing has bound it. -/
def State.slot (s : State) (c k : Nat) : Slot := Bank.lookD (s.core c).slots k {}
/-- Gives a slot a value. -/
def State.setSlot (s : State) (c k : Nat) (x : Slot) : State :=
  s.setCore c { s.core c with slots := Bank.put (s.core c).slots k x }
/-- The group of a slot. -/
def State.group (s : State) (c k : Nat) : Group := (s.slot c k).group
/-- Gives a slot's group a value. -/
def State.setGroup (s : State) (c k : Nat) (g : Group) : State := s.setSlot c k { s.slot c k with group := g }

/-! ## Geometry (R11 to R19) -/

/-- The die of a core (R13). -/
def coreDie (c : Nat) : Nat := c / 192
/-- The cluster of a core in its die (R13). -/
def coreCluster (c : Nat) : Nat := c % 192 / 16
/-- The rank of a core in its cluster (R13). -/
def coreRank (c : Nat) : Nat := c % 16
/-- The number of a core's cluster in a 96-bit cluster mask (R307). -/
def coreBit (c : Nat) : Nat := c / 16
/-- The router that serves a core (R13). -/
def coreRouter (c : Nat) : Router :=
  let d := coreDie c
  let k := coreCluster c
  { x := 6 * (d % 4) + 2 * (k % 3) + coreRank c / 8, y := 4 * (d / 4) + k / 3, z := 0 }
/-- The cache-layer router of a slice of a die (R333, R171). -/
def sliceRouter (d slice : Nat) : Router := { x := 6 * (d % 4) + slice % 6, y := 4 * (d / 4) + slice / 6, z := 1 }
/-- The slice whose cache router lies beneath a core's router (R12, R13, R171). -/
def coreSlice (c : Nat) : Nat := (coreRouter c).x % 6 + 6 * ((coreRouter c).y % 4)
/-- The slice of a chip-scratchpad byte (R171). -/
def cspSlice (byte : Nat) : Nat := let u := byte / 65536; if u < 688 then u / 43 else 16 + (u - 688) / 42
/-- Mainmast's router (R19). -/
def mainmastRouter : Router := { x := 0, y := 0, z := 1 }
/-- The router at which the Spar controller of a cluster of a die sits: beneath the cluster's even router (R13, R19). -/
def sparRouter (d k : Nat) : Router := { x := 6 * (d % 4) + 2 * (k % 3), y := 4 * (d / 4) + k / 3, z := 1 }
/-- The die whose memory controllers hold a frame of a tier (R17): HBM in eighths, the second tier in quarters at dies 0, 3, 4 and 7. -/
def frameDie (tier frame : Nat) : Nat := if tier = 0 then frame / (96 * 2 ^ 30) else nth [0, 3, 4, 7] (frame / (512 * 2 ^ 30))
/-- The flits that a packet of a number of data bytes occupies on the mesh: a 16-byte header before them, 64 bytes a flit (R349). -/
def meshFlits (n : Nat) : Nat := (16 + n + 63) / 64
/-- The die that a CXL port attaches to (R19). -/
def portDie (port : Nat) : Nat := if port = 0 then 0 else 7

/-! ## Cells of storage -/

/-- Bytes of HBM: 768 GiB (R335). -/
def hbmSize : Nat := 768 * 2 ^ 30
/-- Bytes of the second tier: 2,048 GiB (R335). -/
def tier2Size : Nat := 2048 * 2 ^ 30
/-- The cell of an HBM byte. -/
def hbmCell (a : Nat) : Nat := a
/-- The cell of a second-tier byte. -/
def tier2Cell (a : Nat) : Nat := 2 ^ 44 + a
/-- The cell of a byte of a core's scratchpad (R169). -/
def spadCell (c o : Nat) : Nat := 2 ^ 45 + c * 2 ^ 20 + o
/-- The cell of a byte of a die's chip scratchpad (R171). -/
def cspCell (d b : Nat) : Nat := 2 ^ 46 + d * 2 ^ 26 + b
/-- The cell of a byte of host memory behind a CXL port (R335). -/
def hostCell (port a : Nat) : Nat := 2 ^ 66 + port * 2 ^ 64 + a % 2 ^ 64

/-! ## Spans, allocation, homes -/

/-- Whether a context's allocation holds the intermediate range (R319, R331). -/
def State.allocated (s : State) (n ia size : Nat) : Bool :=
  let base := (s.reg (.ctxIa n)).toNat
  decide (base ≤ ia) && decide (ia + size ≤ base + s.fld (.ctxIaSize n) 31 0 * 2 ^ 30)

/-- The span that covers a virtual address among those held (R330): its number, intermediate base less virtual base taken, and
its control word; none if no span covers it (R331). A span outside the allocation maps nothing and ends the search. -/
def spanFind (s : State) (n va : Nat) : List Span → Nat → Option (Nat × Nat × DWord)
  | [], _ => none
  | (base, ia, ctl) :: t, i =>
    let size := 65536 * bits ctl.toNat 31 0
    if size ≠ 0 ∧ base ≤ va ∧ va < base + size then
      (if s.allocated n ia size then some (i, (ia + (va - base)) % 2 ^ 56, ctl) else none)
    else spanFind s n va t (i + 1)

/-- A context's units. -/
def State.ctx (s : State) (n : Nat) : Context := Bank.lookD s.contexts n {}
/-- Gives a context a value. -/
def State.setCtx (s : State) (n : Nat) (x : Context) : State := { s with contexts := Bank.put s.contexts n x }

/-- The span, intermediate address and control word of a virtual address under a table of spans (R331). -/
def State.spanIn (s : State) (tbl : List Span) (n va : Nat) : Option (Nat × Nat × DWord) := spanFind s n va tbl 0
/-- The same under the table that a context gives its cores. -/
def State.span (s : State) (n va : Nat) : Option (Nat × Nat × DWord) := s.spanIn (s.ctx n).spans n va
/-- The table that a core holds for a context: the context's, or an older one that command 5 has not replaced there yet (R330). -/
def State.coreSpans (s : State) (c n : Nat) : List Span := Bank.lookD (s.ctx n).lag c (s.ctx n).spans

/-- The next virtual address above va at which the span that maps may change. -/
def spanTurn (va : Nat) : List Span → Nat
  | [] => 2 ^ 64
  | (base, _, ctl) :: t =>
    let stop := base + 65536 * bits ctl.toNat 31 0
    let r := spanTurn va t
    let r := if va < base then min r base else r
    if va < stop then min r stop else r

/-- The intermediate ranges that a range of virtual addresses is through a table of spans, none where no span leads (R331). A range of 16 spans
has at most 33 pieces. -/
def State.spanPieces (s : State) (tbl : List Span) (n : Nat) : Nat → Nat → Nat → List (Option (Nat × Nat))
  | 0, _, _ => []
  | fuel + 1, va, k =>
    if k = 0 then []
    else match s.spanIn tbl n va with
      | none => [none]
      | some (_, ia, _) =>
        let m := min k (spanTurn va tbl - va)
        some (ia, m) :: s.spanPieces tbl n fuel (va + m) (k - m)

/-- The span table that the registers hold, as cores copy it (R330). -/
def State.spanTable (s : State) (n : Nat) : List Span :=
  (List.range 16).map fun i => ((s.reg (.spanVa n i)).toNat, (s.reg (.spanIa n i)).toNat, s.reg (.spanCtl n i))

/-- The dies that home a context's lines (R332), in increasing order. -/
def State.homeDies (s : State) (n : Nat) : List Nat := (List.range 8).filter fun d => (s.reg (.ctxPge n)).getLsbD d

/-- The hash h of R333. -/
def homeHash (ia : Nat) : Nat :=
  bits ia 14 7 ^^^ bits ia 22 15 ^^^ bits ia 30 23 ^^^ bits ia 38 31 ^^^ bits ia 46 39 ^^^ bits ia 54 47
/-- The hash g of R333. -/
def sliceHash (ia : Nat) : Nat :=
  bits ia 18 11 ^^^ bits ia 26 19 ^^^ bits ia 34 27 ^^^ bits ia 42 35 ^^^ bits ia 50 43 ^^^ bits ia 55 51
/-- The home die of a line (R333). -/
def State.homeDie (s : State) (n ia : Nat) : Nat :=
  let ds := s.homeDies n
  nth ds (homeHash ia % ds.length)
/-- The home slice of a line (R333). -/
def homeSlice (ia : Nat) : Nat := sliceHash ia % 24
/-- The plane of an intermediate address (R333). -/
def homePlane (ia : Nat) : Nat := (homeHash ia ^^^ sliceHash ia) % 4

/-! ## Page tables (R334 to R336) -/

/-- A leaf: level, the page's base and size, the entry and the HBM address it stands at. -/
structure Leaf where
  level : Nat
  base : Nat
  size : Nat
  entry : DWord
  entryAddr : Nat
deriving DecidableEq, Repr

/-- The lowest address bit that a level's index covers (R334). -/
def levelShift (level : Nat) : Nat := if level = 0 then 16 else if level = 1 then 21 else if level = 2 then 30 else 39
/-- The index of a level (R334). -/
def levelIndex (level ia : Nat) : Nat :=
  if level = 0 then bits ia 20 16 else if level = 1 then bits ia 29 21 else if level = 2 then bits ia 38 30 else bits ia 55 39
/-- The key of a cached entry: context, level and the address bits from the level's index up. -/
def pteKey (n level ia : Nat) : Nat := n * 2 ^ 60 + level * 2 ^ 57 + ia / 2 ^ levelShift level

/-- An entry as the memory side reads it: the cached one, the stored one, or, where the two differ and no sync has come, a
free choice between them (R336). A first read caches the entry. -/
def State.pteRead (s : State) (n level ia addr : Nat) : DWord × State :=
  let m : DWord := BitVec.ofNat 64 (Memory.read s.mem (hbmCell addr) 8)
  let k := pteKey n level ia
  match Bank.look s.ptCache k with
  | none => (m, { s with ptCache := Bank.put s.ptCache k m })
  | some c =>
    if c = m then (m, s)
    else (if Config.choice s.draws then m else c, { s with draws := s.draws + 1 })

/-- Whether an entry is a valid non-leaf of a level (R335). -/
def pteTable (level : Nat) (e : DWord) : Bool :=
  let x := e.toNat
  bit x 0 && !bit x 1 && !bit x 3 && bits x 11 7 == 0 && bits x 63 60 == 0 && bits x 5 4 == 0 && level != 0

/-- Whether an entry is a valid leaf of a level: zero fields, PG, FRAME aligned to the page (R335), and a frame within its
tier (log entry 14). -/
def pteLeaf (level : Nat) (e : DWord) : Bool :=
  let x := e.toNat
  let frame := bits x 55 16 * 65536
  let size := 2 ^ levelShift level
  bit x 0 && bit x 1 && !bit x 3 && bits x 11 7 == 0 && bits x 63 60 == 0 && bits x 15 12 == 0 && level != 3
    && frame % size == 0
    && (bits x 5 4 != 0 || decide (frame + size ≤ hbmSize)) && (bits x 5 4 != 1 || decide (frame + size ≤ tier2Size))

/-- The walk from a level down; none is an unmapped page (R335). -/
def State.walkFrom (s : State) (n ia : Nat) : Nat → Nat → Nat → Option Leaf × State
  | 0, _, _ => (none, s)
  | fuel + 1, level, table =>
    let addr := table + 8 * levelIndex level ia
    let (e, s) := s.pteRead n level ia addr
    if pteLeaf level e then
      let size := 2 ^ levelShift level
      (some { level := level, base := ia / size * size, size := size, entry := e, entryAddr := addr }, s)
    else if pteTable level e then s.walkFrom n ia fuel (level - 1) (bits e.toNat 55 12 * 4096)
    else (none, s)

/-- The leaf of a context's intermediate address (R334). -/
def State.walk (s : State) (n ia : Nat) : Option Leaf × State :=
  s.walkFrom n ia 4 3 (bits (s.reg (.ctxPt n)).toNat 55 12 * 4096)

/-- The tier of a leaf (R335). -/
def Leaf.tier (l : Leaf) : Nat := bits l.entry.toNat 5 4
/-- Whether a leaf is read-mostly (R335). -/
def Leaf.rm (l : Leaf) : Bool := bit l.entry.toNat 2
/-- The collapse count of a leaf (R335). -/
def Leaf.cnt (l : Leaf) : Nat := bits l.entry.toNat 59 56
/-- The frame address of a leaf (R335). -/
def Leaf.frame (l : Leaf) : Nat := bits l.entry.toNat 55 16 * 65536
/-- The cell of a byte of a present leaf's page. -/
def Leaf.cell (l : Leaf) (ia : Nat) : Nat :=
  let a := l.frame + ia % l.size
  match l.tier with
  | 0 => hbmCell a
  | 1 => tier2Cell a
  | _ => hostCell (if bit l.entry.toNat 6 then 1 else 0) a

/-- Writes an entry at its place, as the part does with atomic updates at its home, and in what is cached (R336). -/
def State.pteWrite (s : State) (n : Nat) (l : Leaf) (e : DWord) : State :=
  { s with mem := Memory.write s.mem (hbmCell l.entryAddr) 8 e.toNat, ptCache := Bank.put s.ptCache (pteKey n l.level l.base) e }

/-- The number of a page's state entry: its context and base. -/
def pageKey (n base : Nat) : Nat := n * 2 ^ 56 + base
/-- A page's state entry at its page home. -/
def State.page (s : State) (n : Nat) (l : Leaf) : Page := Bank.lookD s.pages (pageKey n l.base) { size := l.size }
/-- Gives a page a state entry, or none where it needs none (R337). -/
def State.setPage (s : State) (n : Nat) (l : Leaf) (p : Page) : State :=
  { s with pages := if p = { size := l.size } then Bank.drop s.pages (pageKey n l.base)
                    else Bank.put s.pages (pageKey n l.base) p }

/-! ## Bytes -/

/-- The number of a byte of the L2: context and intermediate address (R339: lines are tagged by intermediate address). A dirty byte is kept
under the cell beneath it, so that two pages of one frame reach one byte (R192). -/
def l2Key (n ia : Nat) : Nat := n * 2 ^ 56 + ia

/-- Where a byte stands: a cell, an L2 byte over its frame's cell, a held byte of a host window, or nowhere. -/
inductive Place where
  | cell (c : Nat)
  | line (key c : Nat)
  | held (port a : Nat)
  | absent (l : Leaf)
  | unmapped
deriving DecidableEq, Repr

/-- The host physical address of an offset of a window, and the window's port (R364). -/
def State.windowAddr (s : State) (n o : Nat) : Nat × Nat :=
  (s.fld (.hwCtl n) 38 38, (bits (s.reg (.hwBase n)).toNat 63 12 * 4096 + o) % 2 ^ 64)

/-- Where byte o past the start of a target stands; peers have no place on this part. -/
def State.place (s : State) (t : Target) (o : Nat) : Place × State :=
  match t with
  | .global n ia _ =>
    let ia := (ia + o) % 2 ^ 56
    match s.walk n ia with
    | (none, s) => (.unmapped, s)
    | (some l, s) => (if l.tier = 3 then .absent l else .line (l2Key n ia) (l.cell ia), s)
  | .spad c b => (.cell (spadCell c (b + o)), s)
  | .priv c pool l b => let k := b + o; (.cell (spadCell c (pool + 256 * (k / 4) + 4 * l + k % 4)), s)
  | .csp d b => (.cell (cspCell d (b + o)), s)
  | .window n b => let (p, a) := s.windowAddr n (b + o); (.held p a, s)
  | .peer _ _ _ => (.unmapped, s)

/-- The held bytes of a host line at a port, if it is held (R207). -/
def heldLine (hs : List Hold) (port a : Nat) : Option Hold := hs.find? fun h => h.port == port && h.addr == a / 128 * 128

/-- The byte at a place; zero where there is none. -/
def State.byteAt (s : State) : Place → Byte
  | .cell c => Memory.byte s.mem c
  | .line _ c => ((Bank.look s.l2 c).map (·.2)).getD (Memory.byte s.mem c)
  | .held p a =>
    match (heldLine s.held p a).bind fun h => Bank.look h.bytes (a % 128) with
    | some b => b
    | none => Memory.byte s.mem (hostCell p a)
  | _ => 0

/-- Writes the byte at a place: storage itself, the L2, or the port's hold. -/
def State.setByteAt (s : State) (p : Place) (v : Byte) : State :=
  match p with
  | .cell c => { s with mem := Memory.setByte s.mem c v }
  | .line k c => { s with l2 := Bank.put s.l2 c (k, v) }
  | .held port a =>
    let base := a / 128 * 128
    match heldLine s.held port a with
    | some h => { s with held := (s.held.filter fun x => !(x.port == port && x.addr == base))
                                  ++ [{ h with bytes := Bank.put h.bytes (a % 128) v }] }
    | none => { s with held := s.held ++ [{ port := port, addr := base, bytes := [(a % 128, v)] }] }
  | _ => s

/-- The place k bytes on, within what stands together. -/
def Place.shift : Place → Nat → Place
  | .cell c, k => .cell (c + k)
  | .line key c, k => .line (key + k) (c + k)
  | .held p a, k => .held p (a + k)
  | p, _ => p

/-- The n bytes from a place as one little-endian number (R4). -/
def State.readPlace (s : State) (p : Place) : Nat → Nat
  | 0 => 0
  | n + 1 => (s.byteAt p).toNat + 256 * s.readPlace (p.shift 1) n

/-- Writes the low n bytes of a number from a place, little-endian (R4). -/
def State.writePlace (s : State) (p : Place) : Nat → Nat → State
  | 0, _ => s
  | n + 1, v => State.writePlace (s.setByteAt p (BitVec.ofNat 8 v)) (p.shift 1) n (v / 256)

/-- Whether code may be fetched from an intermediate address of a context: a span with X set leads there (R47, R330). -/
def State.codeWord (s : State) (n ia : Nat) : Bool :=
  (s.ctx n).spans.any fun (_, base, ctl) => ctl.getLsbD 34 && decide (base ≤ ia) && decide (ia < base + 65536 * bits ctl.toNat 31 0)

/-- The number of a word of code that a kernel may fetch: its tag, and the word's L2 number. -/
def codeKey (tag key : Nat) : Nat := tag * 2 ^ 62 + key / 4 * 4

/-- A store over n bytes of an L2 line keeps the words it replaces, for every live kernel of the context, where code may be fetched from
them (R48); a store that reaches the code through another page is seen by every later fetch (log entry 84). -/
def State.noteCode (s : State) (p : Place) (n : Nat) : State :=
  match p with
  | .line key c =>
    if s.codeWord (key / 2 ^ 56) (key % 2 ^ 56) then
      let tags := (s.kernels.filter fun (_, k) => k.launch.ctx == key / 2 ^ 56).map (·.1)
      (List.range ((key % 4 + n + 3) / 4)).foldl (fun s i =>
        let a := key / 4 * 4 + 4 * i
        let old : Word := BitVec.ofNat 32 (s.readPlace (.line a (c / 4 * 4 + 4 * i)) 4)
        { s with code := tags.foldl (fun b t =>
            Bank.alter b (codeKey t a) [] fun l => if l.contains old then l else l ++ [old]) s.code }) s
    else s
  | _ => s

/-- A store of the low n bytes of a number from a place: what it replaces is kept where it may be code. -/
def State.putPlace (s : State) (p : Place) (n v : Nat) : State := (s.noteCode p n).writePlace p n v

/-- How many of n bytes from offset o of a target stand together: to the end of the smallest page (R334), of a word of a
lane-private slice (R170), or of 4 KiB of a host window (R364). -/
def Target.run (t : Target) (o n : Nat) : Nat :=
  match t with
  | .global _ ia _ => min n (65536 - (ia + o) % 65536)
  | .priv _ _ _ b => min n (4 - (b + o) % 4)
  | .window _ b => min n (4096 - (b + o) % 4096)
  | _ => n

/-- Reads n bytes from offset o of a target, run by run: bytes that stand together are placed once. -/
def State.readRun (s : State) (t : Target) : Nat → Nat → Nat → Nat × State
  | 0, _, _ => (0, s)
  | fuel + 1, o, n =>
    if n = 0 then (0, s)
    else
      let k := t.run o n
      let (p, s1) := s.place t o
      let (v, s2) := State.readRun s1 t fuel (o + k) (n - k)
      (s1.readPlace p k + 2 ^ (8 * k) * v, s2)

/-- The n bytes of a target from offset o as one little-endian number; zero where a byte has no place. -/
def State.readT (s : State) (t : Target) (o n : Nat) : Nat × State := s.readRun t n o n

/-- Writes n bytes from offset o of a target, run by run. -/
def State.writeRun (s : State) (t : Target) : Nat → Nat → Nat → Nat → State
  | 0, _, _, _ => s
  | fuel + 1, o, n, v =>
    if n = 0 then s
    else
      let k := t.run o n
      let (p, s1) := s.place t o
      State.writeRun (s1.putPlace p k v) t fuel (o + k) (n - k) (v / 2 ^ (8 * k))

/-- Writes the low n bytes of a number to a target from offset o. -/
def State.writeT (s : State) (t : Target) (o n v : Nat) : State := s.writeRun t n o n v

/-- Reads a dword of a context's structure by intermediate address. -/
def State.readIA (s : State) (n ia size : Nat) : Nat × State := s.readT (.global n ia false) 0 size
/-- Writes bytes of a context's structure by intermediate address. -/
def State.writeIA (s : State) (n ia size v : Nat) : State := s.writeT (.global n ia false) 0 size v

/-- One little-endian number of eight-byte words. -/
def wordsNat : List DWord → Nat
  | [] => 0
  | w :: t => w.toNat + 2 ^ 64 * wordsNat t

/-- The eight-byte words of a little-endian number. -/
def natWords (v : Nat) (n : Nat) : List DWord := (List.range n).map fun i => BitVec.ofNat 64 (v >>> (64 * i))

end Sys2Proof.Machine
end

