-- ==== Sys2Proof/Machine/Float.lean ====
section
/-! DEFINITION. Floating point by the rules of the chapter on values: the formats (R28 to R31), exact dyadic reals, the
rounding helper (R35), stochastic rounding (R37), flags (R39), saturation (R42) and the arithmetic of R135 and R137. -/
namespace Sys2Proof.Machine

/-- The status bits as numbers (R130). -/
def flDZ : Nat := 1
/-- Integer divide overflow. -/
def flOV : Nat := 2
/-- Invalid operation. -/
def flNV : Nat := 4
/-- Division of a finite non-zero value by zero. -/
def flFZ : Nat := 8
/-- Overflow. -/
def flOF : Nat := 16
/-- Underflow. -/
def flUF : Nat := 32
/-- Inexact. -/
def flNX : Nat := 64

/-- Which special encodings a format has (R30): infinities and NaNs, the NaN of e4m3 alone, or none. -/
inductive Specials where
  | ieee | nanOnly | none
deriving DecidableEq, Repr

/-- A floating-point format (R28): exponent and mantissa bits, bias, special encodings, and whether every NaN is quiet. -/
structure Fmt where
  E : Nat
  M : Nat
  bias : Nat
  spec : Specials := .ieee
  allQuiet : Bool := false
deriving DecidableEq, Repr

/-- binary64 (R28). -/
def f64 : Fmt := { E := 11, M := 52, bias := 1023 }
/-- binary32 (R28). -/
def f32 : Fmt := { E := 8, M := 23, bias := 127 }
/-- binary16 (R28). -/
def f16 : Fmt := { E := 5, M := 10, bias := 15 }
/-- Bits [31:16] of an f32 (R28). -/
def bf16 : Fmt := { E := 8, M := 7, bias := 127 }
/-- R28, R30: all NaNs quiet. -/
def e5m2 : Fmt := { E := 5, M := 2, bias := 15, allQuiet := true }
/-- R28, R30: no infinity, one NaN mantissa. -/
def e4m3 : Fmt := { E := 4, M := 3, bias := 7, spec := .nanOnly, allQuiet := true }
/-- R28, R30: no special encoding. -/
def e3m2 : Fmt := { E := 3, M := 2, bias := 3, spec := .none }
/-- R28, R30: no special encoding. -/
def e2m3 : Fmt := { E := 2, M := 3, bias := 1, spec := .none }
/-- R28, R30: no special encoding. -/
def e2m1 : Fmt := { E := 2, M := 1, bias := 1, spec := .none }

/-- A floating-point value: a NaN (signalling or quiet), an infinity, or the exact dyadic (-1)^neg · man · 2^exp. -/
inductive Fl where
  | nan (sig : Bool)
  | inf (neg : Bool)
  | fin (neg : Bool) (man : Nat) (exp : Int)
deriving DecidableEq, Repr

namespace Fmt

/-- The width in bits. -/
def width (F : Fmt) : Nat := 1 + F.E + F.M

/-- The exponent of the smallest grain, 1 - bias - M. -/
def minGrain (F : Fmt) : Int := 1 - (F.bias : Int) - F.M

/-- The largest exponent field of a finite value. -/
def topField (F : Fmt) : Nat := match F.spec with
  | .ieee => 2 ^ F.E - 2
  | _ => 2 ^ F.E - 1

/-- The significand of the largest finite value (R28), in grains of its binade. -/
def topMan (F : Fmt) : Nat := match F.spec with
  | .nanOnly => 2 ^ (F.M + 1) - 2
  | _ => 2 ^ (F.M + 1) - 1

/-- The grain exponent of the largest finite value. -/
def topGrain (F : Fmt) : Int := (F.topField : Int) - F.bias - F.M

/-- The canonical NaN (R30); formats without NaNs hold +0 (R42). -/
def nan (F : Fmt) : Nat := match F.spec with
  | .ieee => (2 ^ F.E - 1) * 2 ^ F.M + 2 ^ (F.M - 1)
  | .nanOnly => 2 ^ (F.E + F.M) - 1
  | .none => 0

/-- The sign bit in place. -/
def sign (F : Fmt) (neg : Bool) : Nat := if neg then 2 ^ (F.E + F.M) else 0

/-- The infinity of a sign, for a format that has one. -/
def inf (F : Fmt) (neg : Bool) : Nat := F.sign neg + (2 ^ F.E - 1) * 2 ^ F.M

/-- The largest finite value with a sign. -/
def largest (F : Fmt) (neg : Bool) : Nat := F.sign neg + F.topField * 2 ^ F.M + (F.topMan - 2 ^ F.M)

/-- The value of an encoding (R29, R30). -/
def value (F : Fmt) (x : Nat) : Fl :=
  let neg := bit x (F.E + F.M)
  let e := bits x (F.E + F.M - 1) F.M
  let m := x % 2 ^ F.M
  let special := match F.spec with
    | .ieee => e == 2 ^ F.E - 1
    | .nanOnly => e == 2 ^ F.E - 1 && m == 2 ^ F.M - 1
    | .none => false
  if special then
    if F.spec == .ieee && m == 0 then .inf neg
    else .nan (!F.allQuiet && !bit m (F.M - 1))
  else if e = 0 then .fin neg m F.minGrain
  else .fin neg (2 ^ F.M + m) ((e : Int) - F.bias - F.M)

end Fmt

/-- Whether a value is a non-zero one below the smallest normal (R28). -/
def Fl.subnormal (F : Fmt) : Fl → Bool
  | .fin _ m e => m != 0 && decide (m < 2 ^ F.M) && e == F.minGrain
  | _ => false

/-- Flush-to-zero of a source (R38): a subnormal reads as the zero of its sign. -/
def Fl.flush (F : Fmt) (ftz : Bool) (x : Fl) : Fl :=
  match x with
  | .fin n m e => if ftz && Fl.subnormal F (.fin n m e) then .fin n 0 e else x
  | _ => x

/-- Whether a value is a NaN. -/
def Fl.isNan : Fl → Bool
  | .nan _ => true
  | _ => false

/-- NV for a signalling NaN (R40). -/
def Fl.nv : Fl → Nat
  | .nan true => flNV
  | _ => 0

/-- The sign of a value. -/
def Fl.neg : Fl → Bool
  | .nan _ => false
  | .inf n => n
  | .fin n _ _ => n

/-- The value with the sign reversed. -/
def Fl.negate : Fl → Fl
  | .nan s => .nan s
  | .inf n => .inf (!n)
  | .fin n m e => .fin (!n) m e

/-! ## Rounding (R34, R35, R37) -/

/-- Whether a rounding increments the truncated magnitude: q its low end in grains, rem / 2^sh the fraction of a
grain beyond it, mode by R34, r the sixteen bits that R37 draws for mode 4 (SR). -/
def roundsUp (mode : Nat) (neg : Bool) (r q rem sh : Nat) : Bool :=
  match mode with
  | 0 => decide (2 ^ sh < 2 * rem) || (2 * rem == 2 ^ sh && q % 2 == 1)
  | 1 => false
  | 2 => !neg && rem != 0
  | 3 => neg && rem != 0
  | _ => decide (r < rem * 2 ^ 16 / 2 ^ sh)

/-- Rounds the magnitude man · 2^exp to grains of 2^ge (R35 step 2): the number of grains, and whether it is inexact. A
magnitude more than 20 binary places below the grain stands as one 2^20th of the grain, which every mode rounds alike. -/
def roundTo (ge : Int) (mode : Nat) (neg : Bool) (r man : Nat) (exp : Int) : Nat × Bool :=
  if man = 0 then (0, false)
  else if ge ≤ exp then (man <<< (exp - ge).toNat, false)
  else
    let sh := (ge - exp).toNat
    if man.log2 + 20 < sh then (if roundsUp mode neg r 0 1 20 then 1 else 0, true)
    else
      let q := man >>> sh
      let rem := man % 2 ^ sh
      (if roundsUp mode neg r q rem sh then q + 1 else q, rem != 0)

/-- A rounded magnitude: grains, grain exponent, inexact, overflowing (R35 step 3), tiny by R39's rule for UF. -/
structure Rounded where
  q : Nat
  ge : Int
  nx : Bool
  above : Bool
  tiny : Bool
deriving DecidableEq, Repr

/-- R35 step 2 and the tests of step 3 and of R39: man · 2^exp in format F. -/
def Fmt.round (F : Fmt) (mode : Nat) (neg : Bool) (r man : Nat) (exp : Int) : Rounded :=
  let e := exp + man.log2
  let free := e - F.M
  let ge := max free F.minGrain
  let (q, nx) := roundTo ge mode neg r man exp
  let (q', _) := roundTo free mode neg r man exp
  { q := q, ge := ge, nx := nx,
    above := decide (F.topGrain < ge) || (ge == F.topGrain && decide (F.topMan < q)),
    tiny := decide (e < 1 - (F.bias : Int)) && !(e == -(F.bias : Int) && q' == 2 ^ (F.M + 1)) }

/-- The encoding of q grains of 2^ge that do not overflow. -/
def Fmt.encode (F : Fmt) (neg : Bool) (q : Nat) (ge : Int) : Nat :=
  let body :=
    if q < 2 ^ F.M then q
    else if q = 2 ^ (F.M + 1) then (ge + 1 + F.M + F.bias).toNat * 2 ^ F.M
    else (ge + F.M + F.bias).toNat * 2 ^ F.M + (q - 2 ^ F.M)
  F.sign neg + body

/-- What an overflowing magnitude becomes (R35 steps 3 and 4, R42): the largest value under saturation or where the mode
rounds towards zero from beyond it, else the infinity, or what stands for it in a format without one. -/
def Fmt.overflow (F : Fmt) (mode : Nat) (neg sat : Bool) : Nat :=
  let toInf := mode == 0 || mode == 4 || (mode == 2 && !neg) || (mode == 3 && neg)
  if sat || !toInf then F.largest neg
  else match F.spec with
    | .ieee => F.inf neg
    | .nanOnly => F.nan
    | .none => F.largest neg

/-- Modes and switches of an instruction: R34's mode, .sat, .ftz, .nanp, and R37's sixteen bits. -/
structure FpMode where
  mode : Nat := 0
  sat : Bool := false
  ftz : Bool := false
  nanp : Bool := false
  r : Nat := 0
deriving DecidableEq, Repr

/-- An exact finite real in format F, with the flags of R39 (R35; R38 for .ftz). An exact zero keeps its sign. SR beyond
the largest value: R35 step 3 gives the largest where the chosen neighbour does not lie beyond it, which is then no overflow
of the rounded magnitude. -/
def Fmt.fit (F : Fmt) (m : FpMode) (neg : Bool) (man : Nat) (exp : Int) : Nat × Nat :=
  if man = 0 then (F.sign neg, 0)
  else
    let x := F.round m.mode neg m.r man exp
    if x.above then (F.overflow m.mode neg m.sat, flOF ||| flNX)
    else if m.ftz && x.q != 0 && decide (x.q < 2 ^ F.M) then (F.sign neg, flUF ||| flNX)
    else (F.encode neg x.q x.ge, (if x.nx then flNX else 0) ||| (if x.nx && x.tiny then flUF else 0))

/-- fp_result of R135: an exact value, whether an operand is a NaN, whether the operation is invalid, and the flags already
raised. -/
def fpResult (F : Fmt) (m : FpMode) (e : Fl) (nanIn invalid : Bool) (fl : Nat) : Nat × Nat :=
  if nanIn || invalid then (F.nan, fl ||| (if invalid then flNV else 0))
  else match e with
    | .nan _ => (F.nan, fl)
    | .inf n => (F.inf n, fl)
    | .fin n man exp => let (v, f) := F.fit m n man exp; (v, fl ||| f)

/-! ## Exact sums and products -/

/-- An exact sum under construction: mantissa and exponent, the infinities met, a NaN met, an invalid product met, whether
a term of each sign of zero and a non-zero term were met (R35 step 1). -/
structure Sum where
  man : Int := 0
  exp : Int := 0
  posInf : Bool := false
  negInf : Bool := false
  isNan : Bool := false
  invalid : Bool := false
  posZero : Bool := false
  negZero : Bool := false
  nonzero : Bool := false
deriving DecidableEq, Repr

/-- Adds one term. -/
def Sum.add (s : Sum) : Fl → Sum
  | .nan _ => { s with isNan := true }
  | .inf true => { s with negInf := true }
  | .inf false => { s with posInf := true }
  | .fin n m e =>
    if m = 0 then (if n then { s with negZero := true } else { s with posZero := true })
    else
      let t : Int := if n then -(m : Int) else m
      if s.man = 0 then { s with man := t, exp := e, nonzero := true }
      else if s.exp ≤ e then { s with man := s.man + t * 2 ^ (e - s.exp).toNat, nonzero := true }
      else { s with man := s.man * 2 ^ (s.exp - e).toNat + t, exp := e, nonzero := true }

/-- The exact product of two values; none where it is 0 × ∞. -/
def Fl.mul : Fl → Fl → Option Fl
  | .nan s, _ => some (.nan s)
  | _, .nan s => some (.nan s)
  | .inf a, .inf b => some (.inf (a != b))
  | .inf a, .fin b m _ => if m = 0 then none else some (.inf (a != b))
  | .fin a m _, .inf b => if m = 0 then none else some (.inf (a != b))
  | .fin a m e, .fin b n f => some (.fin (a != b) (m * n) (e + f))

/-- Adds a product; 0 × ∞ makes the sum invalid. -/
def Sum.addMul (s : Sum) (a b : Fl) : Sum :=
  if a.isNan || b.isNan then { s with isNan := true }
  else match Fl.mul a b with
    | none => { s with invalid := true }
    | some p => s.add p

/-- The sum's value: an infinity, or the exact real, a zero taking its sign by R35 step 1. -/
def Sum.total (s : Sum) (mode : Nat) : Fl :=
  if s.posInf then .inf false
  else if s.negInf then .inf true
  else if s.man = 0 then
    let neg := if s.nonzero || (s.posZero && s.negZero) then mode == 3 else s.negZero
    .fin neg 0 0
  else .fin (decide (s.man < 0)) s.man.natAbs s.exp

/-- Whether a sum is invalid: ∞ - ∞ or 0 × ∞. -/
def Sum.bad (s : Sum) : Bool := s.invalid || (s.posInf && s.negInf)

/-- The rounded sum with its flags (R135). -/
def Sum.result (F : Fmt) (m : FpMode) (s : Sum) (fl : Nat) : Nat × Nat :=
  fpResult F m (s.total m.mode) s.isNan s.bad fl

/-- X + Y (R135). -/
def fpAdd (F : Fmt) (m : FpMode) (x y : Fl) : Nat × Nat := ((({} : Sum).add x).add y).result F m (x.nv ||| y.nv)
/-- X - Y (R135): the sum X + (-Y) (R35 step 1). -/
def fpSub (F : Fmt) (m : FpMode) (x y : Fl) : Nat × Nat := fpAdd F m x y.negate
/-- X × Y (R135). -/
def fpMul (F : Fmt) (m : FpMode) (x y : Fl) : Nat × Nat :=
  match Fl.mul x y with
  | none => fpResult F m (.nan false) false true (x.nv ||| y.nv)
  | some p => fpResult F m p (x.isNan || y.isNan) false (x.nv ||| y.nv)
/-- X × Y + Z with one rounding (R135): 0 × ∞ is invalid even when Z is a quiet NaN. -/
def fpFma (F : Fmt) (m : FpMode) (x y z : Fl) : Nat × Nat :=
  ((({} : Sum).addMul x y).add z).result F m (x.nv ||| y.nv ||| z.nv)

/-- A quotient to p more bits than its divisor, with a sticky bit below. -/
def quotient (a b p : Nat) : Nat := 2 * ((a <<< p) / b) + (if (a <<< p) % b = 0 then 0 else 1)

/-- The largest number whose square is at most n, from a start with b bits left to try. -/
def isqrtFrom (n : Nat) : Nat → Nat → Nat
  | 0, r => r
  | b + 1, r => let t := r + 2 ^ b; if t * t ≤ n then isqrtFrom n b t else isqrtFrom n b r

/-- The integer square root. -/
def isqrt (n : Nat) : Nat := isqrtFrom n (n.log2 / 2 + 1) 0

/-- X ÷ Y (R135): the quotient to 64 bits beyond the format's precision, with a sticky bit. -/
def fpDiv (F : Fmt) (m : FpMode) (x y : Fl) : Nat × Nat :=
  let fl := x.nv ||| y.nv
  let neg := x.neg != y.neg
  match x, y with
  | .nan _, _ => fpResult F m x true false fl
  | _, .nan _ => fpResult F m y true false fl
  | .inf _, .inf _ => fpResult F m x false true fl
  | .inf _, .fin _ _ _ => fpResult F m (.inf neg) false false fl
  | .fin _ _ _, .inf _ => fpResult F m (.fin neg 0 0) false false fl
  | .fin _ a e, .fin _ b f =>
    if b = 0 then (if a = 0 then fpResult F m x false true fl else fpResult F m (.inf neg) false false (fl ||| flFZ))
    else
      let p := 64 + F.M + b.log2
      fpResult F m (.fin neg (quotient a b p) (e - f - p - 1)) false false fl

/-- √X (R135): the root to at least 64 bits beyond the format's precision, with a sticky bit. -/
def fpSqrt (F : Fmt) (m : FpMode) (x : Fl) : Nat × Nat :=
  match x with
  | .nan _ => fpResult F m x true false x.nv
  | .inf true => fpResult F m x false true 0
  | .inf false => fpResult F m x false false 0
  | .fin neg a e =>
    if a = 0 then fpResult F m x false false 0
    else if neg then fpResult F m x false true 0
    else
      let p := 2 * (64 + F.M) + (if e % 2 = 0 then 0 else 1)
      let n := a <<< p
      let r := isqrt n
      fpResult F m (.fin false (2 * r + (if r * r = n then 0 else 1)) ((e - p) / 2 - 1)) false false 0

/-! ## Comparison, minimum and maximum (R40, R41, R137) -/

/-- The order of two values that are not NaNs: less, equal or greater, zeros equal. -/
def Fl.cmp : Fl → Fl → Ordering
  | .inf a, .inf b => if a = b then .eq else if a then .lt else .gt
  | .inf a, _ => if a then .lt else .gt
  | _, .inf b => if b then .gt else .lt
  | .fin a m e, .fin b n f =>
    let lo := min e f
    let x : Int := (if a then -1 else 1) * (m * 2 ^ (e - lo).toNat : Nat)
    let y : Int := (if b then -1 else 1) * (n * 2 ^ (f - lo).toNat : Nat)
    if x < y then .lt else if x = y then .eq else .gt
  | _, _ => .eq

/-- minimumNumber and maximumNumber (R40) on encodings: the smaller (or larger) operand, -0 below +0, .nanp, and the flags. -/
def fpMinMax (F : Fmt) (m : FpMode) (maxp : Bool) (xb yb : Nat) : Nat × Nat :=
  let flushed (b : Nat) : Nat :=
    let v := F.value b
    if m.ftz && v.subnormal F then F.sign v.neg else b
  let xb := flushed xb
  let yb := flushed yb
  let x := F.value xb
  let y := F.value yb
  let fl := x.nv ||| y.nv
  if x.isNan && y.isNan then (F.nan, fl)
  else if x.isNan then (if m.nanp then F.nan else yb, fl)
  else if y.isNan then (if m.nanp then F.nan else xb, fl)
  else match Fl.cmp x y with
    | .lt => (if maxp then yb else xb, fl)
    | .gt => (if maxp then xb else yb, fl)
    | .eq => (if maxp then (if x.neg then yb else xb) else (if x.neg then xb else yb), fl)

/-- FCPYS (R137): the magnitude of X with the sign bit of Y's encoding. -/
def fpCopySign (F : Fmt) (m : FpMode) (xb yb : Nat) : Nat × Nat :=
  let x := F.value xb
  if x.isNan then (F.nan, x.nv)
  else
    let mag := if m.ftz && x.subnormal F then 0 else xb % 2 ^ (F.E + F.M)
    (F.sign (bit yb (F.E + F.M)) + mag, 0)

/-- FRND (R137): X rounded to an integral value in the format. -/
def fpRound (F : Fmt) (m : FpMode) (x : Fl) : Nat × Nat :=
  match x with
  | .nan _ => (F.nan, x.nv)
  | .inf n => (F.inf n, 0)
  | .fin n man exp =>
    let (q, nx) := if 0 ≤ exp then (man, false) else roundTo 0 m.mode n 0 man exp
    let e : Int := if 0 ≤ exp then exp else 0
    let (v, _) := F.fit {} n q e
    (v, if nx then flNX else 0)

/-- The relation code of R124: 0 equal, 1 less, 2 greater, 3 unordered. -/
def fpRel (x y : Fl) : Nat :=
  if x.isNan || y.isNan then 3
  else match Fl.cmp x y with
    | .eq => 0
    | .lt => 1
    | .gt => 2

/-! ## Element types (R24, R31) and conversion (R42, R141) -/

/-- The element types of R24. -/
inductive Ty where
  | int (signed : Bool) (w : Nat)
  | flt (F : Fmt)
  | s4
deriving DecidableEq, Repr

/-- The type of a 4-bit code (R24). -/
def Ty.ofCode : Nat → Ty
  | 0 => .int true 8
  | 1 => .int false 8
  | 2 => .int true 16
  | 3 => .int false 16
  | 4 => .int true 32
  | 5 => .int false 32
  | 6 => .flt f16
  | 7 => .flt bf16
  | 8 => .flt e4m3
  | 9 => .flt e5m2
  | 10 => .flt e3m2
  | 11 => .flt e2m3
  | 12 => .flt e2m1
  | 13 => .s4
  | 14 => .flt f32
  | _ => .flt f64

/-- The width of an element in bits as it stands in a word (R31): the 6-bit types take one byte. -/
def Ty.slot : Ty → Nat
  | .int _ w => w
  | .s4 => 4
  | .flt F => if F.width = 6 then 8 else F.width

/-- The bits of an element that its value uses. -/
def Ty.width : Ty → Nat
  | .int _ w => w
  | .s4 => 4
  | .flt F => F.width

/-- Element i of a word, its value bits alone (R31: bits [7:6] of a 6-bit element are ignored on read). -/
def Ty.elem (t : Ty) (word i : Nat) : Nat := (word >>> (t.slot * i)) % 2 ^ t.width

/-- Puts an element into a word. -/
def Ty.setElem (t : Ty) (word i v : Nat) : Nat :=
  let w := t.slot
  word % 2 ^ (w * i) + (v % 2 ^ w) * 2 ^ (w * i) + (word >>> (w * (i + 1))) * 2 ^ (w * (i + 1))

/-- A value of a source type: an integer, or a floating-point value. -/
inductive Val where
  | int (z : Int)
  | flt (x : Fl)
deriving DecidableEq, Repr

/-- The value of an element's bits. -/
def Ty.value (t : Ty) (b : Nat) : Val :=
  match t with
  | .int true w => .int (sx w b)
  | .int false w => .int (b % 2 ^ w : Nat)
  | .s4 => .int (sx 4 b)
  | .flt F => .flt (F.value b)

/-- The range of an integer type (R25). -/
def intRange (signed : Bool) (w : Nat) : Int × Int :=
  if signed then (-(2 ^ (w - 1) : Nat), (2 ^ (w - 1) : Nat) - 1) else (0, (2 ^ w : Nat) - 1)

/-- The nearer end of a range. -/
def clamp (r : Int × Int) (z : Int) : Int := if z < r.1 then r.1 else if r.2 < z then r.2 else z

/-- A finite real rounded to an integer, cut off at a bound that no integer type reaches (R141). -/
def roundInt (m : FpMode) (neg : Bool) (man : Nat) (exp : Int) : Int × Bool :=
  if man = 0 then (0, false)
  else if 128 < exp + man.log2 then ((if neg then -1 else 1) * (2 ^ 128 : Nat), false)
  else
    let (q, nx) := roundTo 0 m.mode neg m.r man exp
    ((if neg then -(q : Int) else q), nx)

/-- The conversion of a value to a type (R42, R141): the result's bits and its flags. -/
def convert (t : Ty) (m : FpMode) (v : Val) : Nat × Nat :=
  match t, v with
  | .int s w, .int z =>
    let r := intRange s w
    (low w (if m.sat then clamp r z else z), 0)
  | .int s w, .flt x =>
    let r := intRange s w
    match x with
    | .nan _ => (0, flNV)
    | .inf n => (low w (if n then r.1 else r.2), flNV)
    | .fin n man exp =>
      let (z, nx) := roundInt m n man exp
      if z < r.1 ∨ r.2 < z then (low w (clamp r z), flNV) else (low w z, if nx then flNX else 0)
  | .flt F, .int z => F.fit m (decide (z < 0)) z.natAbs 0
  | .flt F, .flt x =>
    match x with
    | .nan sig => (F.nan, if sig || F.spec == .none then flNV else 0)
    | .inf n => match F.spec with
      | .ieee => (if m.sat then F.largest n else F.inf n, 0)
      | .nanOnly => (if m.sat then F.largest n else F.nan, flNV)
      | .none => (F.largest n, flNV)
    | .fin n man exp => F.fit m n man exp
  | .s4, _ => (0, 0)

/-- R40 and R141 read a floating source under .ftz as a zero of its sign (R38). -/
def Ty.source (t : Ty) (ftz : Bool) (b : Nat) : Val :=
  match t with
  | .flt F => .flt ((F.value b).flush F ftz)
  | t => t.value b

/-- q of an s4 element under a finite scale (R33): the quotient rounded by RNE and clamped; 0 when the scale is zero or the value a
NaN. TLD.s4 alone converts to s4, and its scales are finite (R273). -/
def s4Of (x scale : Fl) : Int :=
  match x, scale with
  | .inf n, .fin sn sm _ => if sm = 0 then 0 else if n != sn then -8 else 7
  | .fin n a e, .fin sn b f =>
    if b = 0 then 0
    else
      let p := 16 + b.log2
      let (z, _) := roundInt {} (n != sn) (quotient a b p) (e - f - p - 1)
      clamp (-8, 7) z
  | _, _ => 0

/-- The value 2^(x - 127) of a block scale, or a NaN for 0xFF (R32). -/
def e8m0 (x : Nat) : Fl := if x = 255 then .nan false else .fin false 1 ((x : Int) - 127)

/-! ## The rounding generator (R36, R37) -/

/-- One step of the generator. -/
def sgenStep (g : Word) : Word := if g.getLsbD 0 then (g >>> 1) ^^^ 0x80200003#32 else g >>> 1

/-- n steps. -/
def sgenSteps : Nat → Word → Word
  | 0, g => g
  | n + 1, g => sgenSteps n (sgenStep g)

/-- The generator of a lane at the entry of a task with logical id id (R36). -/
def sgenInit (id : DWord) (l : Nat) : Word :=
  let g := id.truncate 32 ^^^ (id >>> 32).truncate 32 ^^^ BitVec.ofNat 32 ((l + 1) * 0x9E3779B9)
  if g = 0 then 1 else g

end Sys2Proof.Machine
end

