-- ==== Sys2Proof/Machine/Desc.lean ====
section
/-! DEFINITION. Tensor descriptors (R172, R173, R180), as 512-bit numbers of their 64 bytes, and the fields of task records
(R229 to R232). -/
namespace Sys2Proof.Machine

/-- The descriptor's base pointer. -/
def descBase (d : Nat) : Nat := bits d 63 0
/-- The element type code. -/
def descType (d : Nat) : Nat := bits d 67 64
/-- The rank. -/
def descRank (d : Nat) : Nat := bits d 70 68
/-- The 32-bit fill value. -/
def descFill (d : Nat) : Nat := bits d 127 96
/-- The extent of dimension k. -/
def descDim (d k : Nat) : Nat := bits d (32 * k + 159) (32 * k + 128)
/-- The stride of dimension k in elements; dimension 0 is contiguous. -/
def descStride (d k : Nat) : Nat := if k = 0 then 1 else bits d (32 * k + 287) (32 * k + 256)
/-- The box extent of dimension k, one above the rank (R180). -/
def descExt (d k : Nat) : Nat := if k < descRank d then bits d (8 * k + 423) (8 * k + 416) + 1 else 1
/-- The number of elements of the box. -/
def descCount (d : Nat) : Nat := descExt d 0 * descExt d 1 * descExt d 2 * descExt d 3 * descExt d 4
/-- Bits of an element as it stands in memory (R31). -/
def typeBits (t : Nat) : Nat := (Ty.ofCode t).slot
/-- The bytes of the dense box (R187): 4-bit elements stand two to a byte. -/
def descBytes (d : Nat) : Nat := (descCount d * typeBits (descType d) + 7) / 8

/-- Whether a descriptor breaks R172 and R174: a zero field, the rank, the base's space or alignment. -/
def descBad (d : Nat) : Bool :=
  let r := descRank d
  bit d 71 || bits d 95 72 != 0 || r == 0 || decide (5 < r)
    || (List.range 5).any (fun k => decide (r ≤ k) && descDim d k != 0)
    || (List.range 5).any (fun k => decide (1 ≤ k) && decide (r ≤ k) && descStride d k != 0)
    || (List.range 5).any (fun k => decide (r ≤ k) && bits d (8 * k + 423) (8 * k + 416) != 0)
    || bits d 511 456 != 0 || descBase d / 2 ^ 60 == 1 || descBase d / 2 ^ 60 == 5
    || descBase d % max 1 (typeBits (descType d) / 8) != 0

/-- The coordinates of position i of the box, from dimension k on (R180). -/
def boxCoords (d : Nat) : Nat → Nat → Nat → List Nat
  | 0, _, _ => []
  | n + 1, k, i => i % descExt d k :: boxCoords d n (k + 1) (i / descExt d k)

/-- The element index of position i of a box with its origin, if the element lies in the tensor: the exact sum of R172. -/
def boxElem (d : Nat) (origin : List Int) (i : Nat) : Option Nat :=
  let cs := boxCoords d (descRank d) 0 i
  let gs : List Int := cs.zipIdx.map fun (c, k) => origin.getD k 0 + c
  if decide (i < descCount d) && gs.zipIdx.all fun (g, k) => decide (0 ≤ g) && decide (g < descDim d k) then
    some ((gs.zipIdx.map fun (g, k) => g.toNat * descStride d k).foldl (· + ·) 0)
  else none

/-- The address of an element, tag bits kept, and for a 4-bit type whether it is the upper half of its byte. -/
def elemAddr (d e : Nat) : Nat × Bool :=
  let w := typeBits (descType d)
  if w = 4 then ((descBase d + e / 2) % 2 ^ 64, e % 2 == 1) else ((descBase d + w / 8 * e) % 2 ^ 64, false)

/-- The origin that three s registers hold (R173). -/
def boxOrigin (w1 w2 w3 : DWord) : List Int :=
  [sx 32 (bits w1.toNat 31 0), sx 32 (bits w1.toNat 63 32), sx 32 (bits w2.toNat 31 0), sx 32 (bits w2.toNat 63 32),
   sx 32 (bits w3.toNat 31 0)]

/-! ## Records (R229 to R232) -/

/-- Word i of a record. -/
def recWord (r : List DWord) (i : Nat) : Nat := (r.getD i 0).toNat
/-- The entry's offset. -/
def recEntry (r : List DWord) : Nat := bits (recWord r 0) 39 0
/-- The vector class code. -/
def recVc (r : List DWord) : Nat := bits (recWord r 0) 41 40
/-- The tile class code. -/
def recTc (r : List DWord) : Nat := bits (recWord r 0) 44 42
/-- The accumulator class code. -/
def recAc (r : List DWord) : Nat := bits (recWord r 0) 47 45
/-- The lane-private class code. -/
def recLc (r : List DWord) : Nat := bits (recWord r 0) 49 48
/-- QUAD. -/
def recQuad (r : List DWord) : Bool := bit (recWord r 0) 50
/-- IDEM. -/
def recIdem (r : List DWord) : Bool := bit (recWord r 0) 51
/-- DET. -/
def recDet (r : List DWord) : Bool := bit (recWord r 0) 52
/-- The binding priority. -/
def recPrio (r : List DWord) : Nat := bits (recWord r 0) 55 53
/-- IDV. -/
def recIdv (r : List DWord) : Bool := bit (recWord r 0) 56
/-- The future pointer. -/
def recFuture (r : List DWord) : Nat := recWord r 1
/-- The logical id. -/
def recId (r : List DWord) : DWord := r.getD 2 0
/-- Tile-operand slot i. -/
def recSlot (r : List DWord) (i : Nat) : Nat := recWord r (3 + i)
/-- The operand slots in use. -/
def recOperands (r : List DWord) : List Nat := (List.range 4).filter fun i => bit (recSlot r i) 0
/-- The extra lease range word. -/
def recLease (r : List DWord) : Nat := recWord r 7
/-- The record with a logical id in place and IDV set (R234). -/
def recWithId (r : List DWord) (id : DWord) : List DWord := (r.set 2 id).set 0 (r.getD 0 0 ||| (1 <<< 56))

/-- Vector registers of a class (R230). -/
def classV (c : Nat) : Nat := 16 * 2 ^ c
/-- Tiles of a class (R230). -/
def classT (c : Nat) : Nat := if c = 0 then 0 else 2 ^ c
/-- Accumulators of a class (R230). -/
def classA (c : Nat) : Nat := if c = 0 then 0 else 2 ^ (c - 1)
/-- Bytes of a lane's slice of a class (R230). -/
def classL (c : Nat) : Nat := match c with | 0 => 0 | 1 => 256 | 2 => 1024 | _ => 4096

/-- The range of a lease word (R232), if it names one. -/
def leaseRange (w : Nat) : Option LeaseRange :=
  if bits w 4 0 = 0 then none else some { base := bits w 63 16 * 65536, size := 2 ^ (bits w 4 0 + 15) }

/-- Whether a lease word breaks R232: a reserved size, a non-zero zero field, a base in another space or misaligned. -/
def leaseBad (w : Nat) : Bool :=
  let sz := bits w 4 0
  decide (20 < sz) || bits w 15 5 != 0
    || (if sz = 0 then bits w 63 16 != 0 else bits w 63 60 != 0 || bits w 63 16 * 65536 % 2 ^ (sz + 15) != 0)

/-- Whether an operand slot breaks R231: a non-zero zero field, or bits set in an unused slot. -/
def operandBad (w : Nat) : Bool := if bit w 0 then bits w 5 1 != 0 else w != 0

/-- Whether a future pointer breaks R229. -/
def futureBad (p : Nat) : Bool :=
  let sp := p / 2 ^ 60
  p == 0 || p % 128 != 0 || !(sp == 0 || sp == 4 || sp == 6)

/-- Whether a record breaks the parts of R233 that its own bytes decide, with budgets of tile and accumulator granules. -/
def recBad (r : List DWord) (tileBudget accBudget : Nat) : Bool :=
  recVc r == 3 || decide (4 < recTc r) || decide (4 < recAc r) || bits (recWord r 0) 63 57 != 0
    || recEntry r % 4 != 0 || futureBad (recFuture r)
    || (List.range 4).any (fun i => operandBad (recSlot r i)) || leaseBad (recLease r)
    || decide (tileBudget < classT (recTc r) / 2) || decide (accBudget < classA (recAc r))

end Sys2Proof.Machine
end

