-- ==== Sys2Proof/Machine/Strands.lean ====
section
/-! DEFINITION. Strands, tokens and claims of a group (R77 to R82, R413), and its registers (R50, R76, R83). -/
namespace Sys2Proof.Machine

/-! ## Registers -/

/-- The number of vector registers allocated (R55). -/
def Group.nv (g : Group) : Nat := classV g.vc
/-- The number of tiles allocated. -/
def Group.nt (g : Group) : Nat := classT g.tc
/-- The number of accumulators allocated. -/
def Group.na (g : Group) : Nat := classA g.ac

/-- An s register; s63 reads as zero (R50). -/
def Group.sreg (g : Group) (n : Nat) : DWord := if n = 63 then 0 else Bank.lookD g.sregs n 0
/-- Writes an s register; a write to s63 is discarded (R50). -/
def Group.setS (g : Group) (n : Nat) (v : DWord) : Group :=
  if n = 63 then g else { g with sregs := Bank.put g.sregs n v }
/-- A predicate register; p15 reads as all ones (R50). -/
def Group.preg (g : Group) (n : Nat) : DWord := if n = 15 then BitVec.allOnes 64 else Bank.lookD g.pregs n 0
/-- Writes a predicate register; p15 cannot be written (R50). -/
def Group.setP (g : Group) (n : Nat) (v : DWord) : Group :=
  if n = 15 then g else { g with pregs := Bank.put g.pregs n v }
/-- A q register; q0 is the straight route (R150). -/
def Group.qreg (g : Group) (n : Nat) : Half := if n = 0 then 0 else Bank.lookD g.qregs n 0
/-- Writes a q register. -/
def Group.setQ (g : Group) (n : Nat) (v : Half) : Group := { g with qregs := Bank.put g.qregs n v }
/-- A keep mask. -/
def Group.kreg (g : Group) (n : Nat) : DWord := Bank.lookD g.kregs n 0
/-- Writes a keep mask. -/
def Group.setK (g : Group) (n : Nat) (v : DWord) : Group := { g with kregs := Bank.put g.kregs n v }
/-- Lane l of a vector register; v63 reads as zero (R53). -/
def Group.vreg (g : Group) (n l : Nat) : Word := if n = 63 then 0 else Lanes.at (Bank.lookD g.vregs n []) l
/-- Writes the lanes of a mask of a vector register; v63 is no register (R56). -/
def Group.setV (g : Group) (n : Nat) (m : DWord) (f : Nat → Word) : Group :=
  if n = 63 then g
  else { g with vregs := Bank.put g.vregs n (Lanes.of fun l => if m.getLsbD l then f l else g.vreg n l) }
/-- A tile register. -/
def Group.tile (g : Group) (n : Nat) : Tile := Bank.lookD g.tiles n {}
/-- Writes a tile register. -/
def Group.setTile (g : Group) (n : Nat) (t : Tile) : Group := { g with tiles := Bank.put g.tiles n t }
/-- An accumulator. -/
def Group.accum (g : Group) (n : Nat) : Accum := Bank.lookD g.accums n {}
/-- Writes an accumulator. -/
def Group.setAccum (g : Group) (n : Nat) (a : Accum) : Group := { g with accums := Bank.put g.accums n a }
/-- A lane's rounding generator (R36). -/
def Group.gen (g : Group) (l : Nat) : Word := Lanes.at g.gens l

/-- A strand of a group. -/
def Group.strand (g : Group) (n : Nat) : Strand := Bank.lookD g.strands n {}
/-- Gives a strand a value. -/
def Group.setStrand (g : Group) (n : Nat) (x : Strand) : Group := { g with strands := Bank.put g.strands n x }
/-- The value of a counter (R92). -/
def Group.ctr (g : Group) : Ctr → Nat
  | .ld => g.ld
  | .st => g.st
  | .cp => g.cp
  | .tl => g.tl
  | .ms => g.ms
/-- Gives a counter a value. -/
def Group.setCtr (g : Group) (c : Ctr) (n : Nat) : Group :=
  match c with
  | .ld => { g with ld := n }
  | .st => { g with st := n }
  | .cp => { g with cp := n }
  | .tl => { g with tl := n }
  | .ms => { g with ms := n }
/-- Whether every counter is zero. -/
def Group.drained (g : Group) : Bool := g.ld == 0 && g.st == 0 && g.cp == 0 && g.tl == 0 && g.ms == 0
/-- Whether no strand stands inside a hint sequence (R60): an instruction boundary. -/
def Group.atBoundary (g : Group) : Bool := g.strands.all fun (_, x) => x.hinted == 0
/-- Whether no strand has an open run or a hint sequence half-issued: a pre-emption point (R97). -/
def Group.atPoint (g : Group) : Bool := g.atBoundary && g.strands.all fun (_, x) => x.run.isNone

/-! ## Tokens -/

/-- The lowest strand number not in use (R80, R413). -/
def Group.freeStrand (g : Group) : Option Nat := firstBelow (fun n => (Bank.look g.strands n).isNone) 8
/-- The lowest free entry of the token pool (R78). -/
def Group.freeToken (g : Group) : Option Nat := firstBelow (fun n => (Bank.look g.tokens n).isNone) 16
/-- A token-pool entry. -/
def Group.token (g : Group) (j : Nat) : Token := Bank.lookD g.tokens j {}
/-- Gives a token-pool entry a value. -/
def Group.setToken (g : Group) (j : Nat) (t : Token) : Group := { g with tokens := Bank.put g.tokens j t }
/-- Frees a token-pool entry. -/
def Group.dropToken (g : Group) (j : Nat) : Group := { g with tokens := Bank.drop g.tokens j }

/-- A chain of tokens from an innermost one outwards (R78). -/
def Group.chainFrom (g : Group) : Nat → Option Nat → List Nat
  | 0, _ => []
  | _, none => []
  | n + 1, some j => j :: Group.chainFrom g n (g.token j).parent
/-- The chain of a strand (R78). -/
def Group.chain (g : Group) (x : Strand) : List Nat := g.chainFrom 16 x.token

/-- Pushes a reconvergence or call token under a strand (R79). -/
def Group.pushToken (g : Group) (n j : Nat) (kind : TokenKind) (cont : DWord) : Group :=
  let x := g.strand n
  let t : Token := { kind := kind, cont := cont, mask := x.owned, pending := x.owned, parent := x.token }
  (g.setToken j t).setStrand n { x with token := some j }

/-- The next place among the group's claims. -/
def Group.nextClaim (g : Group) : Nat := (g.tokens.map fun (_, t) => t.claim).foldl max 0 + 1

/-- Makes a claim for an entry, at a time (R413). -/
def Group.makeClaim (g : Group) (j time : Nat) : Group := g.setToken j { g.token j with claim := g.nextClaim, claimAt := time }

/-- Fuses the tokens of a chain whose pending masks are empty, innermost first (R81): a token with arrived lanes claims a
strand number, one without is freed. -/
def Group.fuseChain (g : Group) (time : Nat) : List Nat → Group
  | [] => g
  | j :: t =>
    let k := g.token j
    if k.pending = 0 ∧ k.claim = 0 then
      (if k.arrived = 0 then g.dropToken j else g.makeClaim j time).fuseChain time t
    else g.fuseChain time t

/-- The deferred entries a strand made, latest first (R80). -/
def Group.deferredOf (g : Group) (n : Nat) : List Nat :=
  let es := ((List.range 16).map fun j => (j, g.token j)).filter fun (_, t) => t.kind == .deferred && t.maker == some n && !t.ready
  (sortBy (fun a b => decide (b.2.order ≤ a.2.order)) es).map (·.1)

/-- Makes the deferred entries of a strand that ceases ready, each with its claim, latest made first (R80, R413). -/
def Group.readyDeferred (g : Group) (n time : Nat) : Group :=
  (g.deferredOf n).foldl (fun g j => (g.setToken j { g.token j with ready := true }).makeClaim j time) g

/-- Takes lanes out of the pending masks of tokens. -/
def Group.unpend (g : Group) (m : DWord) (js : List Nat) : Group :=
  js.foldl (fun g j => g.setToken j { g.token j with pending := (g.token j).pending &&& ~~~m }) g

/-- The lanes m of a strand leave it; with no lane left the strand ceases and its number is freed. -/
def Group.leave (g : Group) (n : Nat) (m : DWord) : Group :=
  let x := g.strand n
  let o := x.owned &&& ~~~m
  if o = 0 then { g with strands := Bank.drop g.strands n }
  else g.setStrand n { x with owned := o, em := x.em &&& ~~~m }

/-- The lanes m of a strand, active in a, arrive at a token of its chain (R81): the tokens passed are broken past, the token
collects them, pending masks are reduced, and empty ones fuse; a strand that ceases makes its deferred entries ready. -/
def Group.arrive (g : Group) (n : Nat) (m a : DWord) (u time : Nat) : Group :=
  let x := g.strand n
  let chain := g.chain x
  let passed := chain.takeWhile (· ≠ u) ++ [u]
  let g := g.unpend m passed
  let t := g.token u
  let g := g.setToken u { t with arrived := t.arrived ||| m, arrivedEm := t.arrivedEm ||| a }
  let g := g.leave n m
  let g := g.fuseChain time chain
  if (Bank.look g.strands n).isNone then g.readyDeferred n time else g

/-- The lanes m of a strand exit (R81, R82, R107). -/
def Group.exitLanes (g : Group) (n : Nat) (m : DWord) (time : Nat) : Group :=
  let chain := g.chain (g.strand n)
  let g := g.unpend m chain
  let g := { g with exited := g.exited ||| m }
  let g := g.leave n m
  let g := g.fuseChain time chain
  if (Bank.look g.strands n).isNone then g.readyDeferred n time else g

/-- The waiting claim that is first in order (R413). -/
def Group.firstClaim (g : Group) : Option Nat :=
  let cs := g.tokens.filter fun (_, t) => t.claim != 0
  match sortBy (fun a b => decide (a.2.claim ≤ b.2.claim)) cs with
  | (j, _) :: _ => some j
  | [] => none

/-- Whether a claim can be served (R413). -/
def Group.servable (g : Group) : Bool := g.firstClaim.isSome && g.freeStrand.isSome

/-- Serves the first waiting claim: a strand forms on the lowest free number and the entry is freed (R80, R81, R413). One that a fusion forms
issues from the second port cycle after the event that emptied the token's pending mask (R380). -/
def Group.serveClaim (g : Group) (time : Nat) : Group :=
  match g.firstClaim, g.freeStrand with
  | some j, some n =>
    let t := g.token j
    let x : Strand :=
      if t.kind = .deferred then { pc := t.cont, owned := t.mask, em := t.mask, token := t.parent, since := time }
      else { pc := t.cont, owned := t.arrived, em := t.arrivedEm, token := t.parent, since := time, notBefore := t.claimAt + 4 }
    (g.dropToken j).setStrand n x
  | _, _ => g

/-- The innermost call token of a chain, and the tokens before it (R103). -/
def Group.callToken (g : Group) (chain : List Nat) : Option Nat := chain.find? fun j => (g.token j).kind == .call

/-- The n-th reconvergence token of a chain before any call token (R106). -/
def Group.breakToken (g : Group) (chain : List Nat) (n : Nat) : Option Nat :=
  ((chain.takeWhile fun j => (g.token j).kind == .reconv))[n]?

/-- The first reconvergence token of a chain, before any call token, whose FUSE address is given: the continuation less 4
(R79, R105). -/
def Group.fuseToken (g : Group) (chain : List Nat) (addr : DWord) : Option Nat :=
  (chain.takeWhile fun j => (g.token j).kind == .reconv).find? fun j => (g.token j).cont == addr + 4

/-! ## Entry to a task -/

/-- The group at entry to a task (R76): arguments in s0 to s7, one strand with every lane, generators by R36. -/
def Group.entry (task : TaskInfo) (vc tc ac lc : Nat) (pc : DWord) (time : Nat) : Group :=
  { task := task, vc := vc, tc := tc, ac := ac, lc := lc
    gens := Lanes.of (sgenInit task.id)
    sregs := (List.range 8).map fun i => (i, task.record.getD (8 + i) 0)
    strands := [(0, { pc := pc, owned := BitVec.allOnes 64, em := BitVec.allOnes 64, since := time })] }

end Sys2Proof.Machine
end

