-- ==== Sys2Proof/Machine/Kernels.lean ====
section
/-! DEFINITION. Regions and their effective values (R307, R308), kernels and their live-task counters (R23, R313), pointers
of the part's own accesses, waiters of a word (R215, R216), notices and page-ring entries (R345, R363), page requests
(R337), and the release tags that synchronisation needs (R194, R204). -/
namespace Sys2Proof.Machine

/-! ## Time -/

/-- A time as a core's cycles count it, two to a core cycle (R6): while its cluster's clock is halved, each router cycle counts for half (R408). -/
def State.coreAt (s : State) (c t : Nat) : Nat :=
  t - ((s.slow.filter fun w => w.1 == coreBit c).foldl (fun n w => n + (min t w.2.2 - min t w.2.1)) 0) / 2
/-- What has passed for a core since a time, two to a core cycle (R6). -/
def State.coreSince (s : State) (c t : Nat) : Nat := s.coreAt c s.time - s.coreAt c t
/-- The core cycle counter of a core: two router cycles to a core cycle (R6). -/
def State.cycle (s : State) (c : Nat) : Nat := s.coreAt c s.time / 2
/-- The parts of State.real in a nominal router cycle: a number that each clock of Reef's steps, 500 to 1,000 MHz by 50, divides (R408). -/
def realTick : Nat := 11639628
/-- A microsecond of real time: 2,000 nominal router cycles (R6). -/
def realMicro : Nat := 2000 * realTick
/-- Router cycles pass: at a clock of Reef below the nominal 1,000 MHz each takes longer in real time (R6, R408). -/
def State.pass (s : State) (n : Nat) : State :=
  { s with time := s.time + n, real := s.real + n * (20 * realTick / max 10 (s.fld .reefStat 27 16 / 50)) }

/-! ## Regions -/

/-- A region's control block as a number of its 128 bytes (R307, R412: an HBM frame address). -/
def State.regionBlock (s : State) (n : Nat) : Nat := Memory.read s.mem (hbmCell ((s.reg .rgnBase).toNat + 128 * n)) 128
/-- The parent's id. -/
def rgnParent (b : Nat) : Nat := bits b 31 0
/-- The context. -/
def rgnCtx (b : Nat) : Nat := bits b 37 32
/-- Whether the block is valid and its zero bytes are zero (R308). -/
def rgnValid (b : Nat) : Bool :=
  bit b 39 && bits b 63 56 == 0 && bits b 191 160 == 0 && bits b 319 288 == 0 && bits b 447 416 == 0 && bits b 1023 768 == 0

/-- The path from a region to its root with the blocks (R308); none where the walk fails. -/
def State.regionPathFrom (s : State) (ctx : Nat) : Nat → Nat → Option (List (Nat × Nat))
  | 0, _ => none
  | fuel + 1, n =>
    let b := s.regionBlock n
    if s.fld .rgnCnt 31 0 ≤ n ∨ rgnValid b = false ∨ rgnCtx b ≠ ctx then none
    else if rgnParent b = 0xFFFFFFFF then some [(n, b)]
    else (s.regionPathFrom ctx fuel (rgnParent b)).map fun t => (n, b) :: t

/-- The path of at most 16 regions (R308). -/
def State.regionPath (s : State) (ctx n : Nat) : Option (List (Nat × Nat)) := s.regionPathFrom ctx 16 n

/-- A budget of a path: the smallest value, 0xFFFF counting as the hardware's limit (R308). -/
def pathBudget (path : List (Nat × Nat)) (hi lo limit : Nat) : Nat :=
  (path.map fun (_, b) => let v := bits b hi lo; if v = 0xFFFF then limit else v).foldl min limit

/-- The four budgets of each region of a path: its own and its ancestors' smallest (R308, R309). -/
def pathBudgets : List (Nat × Nat) → List (Nat × Nat × Nat × Nat)
  | [] => []
  | p :: t =>
    (pathBudget (p :: t) 207 192 32, pathBudget (p :: t) 223 208 16, pathBudget (p :: t) 239 224 512,
      pathBudget (p :: t) 255 240 786432) :: pathBudgets t

/-- The value of the nearest region of a path that a test accepts, or a default. -/
def pathNearest {α : Type} (path : List (Nat × Nat)) (own : Nat → Bool) (val : Nat → α) (d : α) : α :=
  match path.find? fun (_, b) => own b with
  | some (_, b) => val b
  | none => d

/-- The clusters of a context (R319). -/
def State.ctxClusters (s : State) (n : Nat) : BitVec 96 := (s.reg (.ctxCluHi n)).truncate 32 ++ s.reg (.ctxCluLo n)

/-- The clusters of a context for new placements: those it is giving up are out (R308, R320). -/
def State.openClusters (s : State) (n : Nat) : BitVec 96 := s.ctxClusters n &&& ~~~ (s.ctx n).releasing

/-- A kernel's effective values (R308); none where the walk fails. -/
def State.effective (s : State) (ctx region : Nat) : Option Effective :=
  (s.regionPath ctx region).map fun path =>
    { path := path.map (·.1)
      clusters := (path.map fun (_, b) => let m := bits b 159 64
                                          if m = 0 then BitVec.allOnes 96 else BitVec.ofNat 96 m).foldl (· &&& ·) (s.ctxClusters ctx)
      budgets := pathBudgets path
      priority := pathNearest path (fun b => !bit b 43) (fun b => bits b 42 40) 0
      policy := pathNearest path (fun b => !bit b 50) (fun b => bits b 49 48) 0
      watchdog := pathNearest path (fun b => bits b 287 256 != 0) (fun b => bits b 287 256) 0xFFFFFFFF
      saveBase := pathNearest path (fun b => bits b 383 320 != 0) (fun b => bits b 383 320) 0
      saveSize := pathNearest path (fun b => bits b 383 320 != 0) (fun b => bits b 415 384 * 4096) 0
      handler := BitVec.ofNat 64 (pathNearest path (fun b => bits b 511 448 != 0) (fun b => bits b 511 448) 0)
      logged := match path with
        | (_, b) :: _ => (List.range 4).map fun i => BitVec.ofNat 64 (bits b (64 * i + 575) (64 * i + 512))
        | [] => []
      fd := match path.find? fun (_, b) => bit b 38 with
        | some (n, _) => n
        | none => (path.getLast?.map (·.1)).getD region }

/-! ## Kernels -/

/-- The kernel of a tag. -/
def State.kernel (s : State) (tag : Nat) : Option Kernel := Bank.look s.kernels tag
/-- Gives a kernel a value. -/
def State.setKernel (s : State) (k : Kernel) : State := { s with kernels := Bank.put s.kernels k.tag k }
/-- Changes a kernel, if there is one. -/
def State.onKernel (s : State) (tag : Nat) (f : Kernel → Kernel) : State :=
  match s.kernel tag with
  | some k => s.setKernel (f k)
  | none => s
/-- The effective values of a kernel. -/
def State.eff (s : State) (tag : Nat) : Effective := ((s.kernel tag).map (·.eff)).getD {}
/-- The region of a kernel. -/
def State.regionOf (s : State) (tag : Nat) : Nat := ((s.kernel tag).map fun k => k.launch.region).getD 0xFFFFFFFF
/-- The clusters where a kernel's records may go now (R308, R320). -/
def State.kernelClusters (s : State) (tag : Nat) : BitVec 96 :=
  match s.kernel tag with
  | some k => k.eff.clusters &&& s.openClusters k.launch.ctx
  | none => 0

/-- Raises the live-task counter (R23). -/
def State.liveUp (s : State) (tag : Nat) : State := s.onKernel tag fun k => { k with live := k.live + 1 }
/-- Lowers the live-task counter; a RUNNING kernel whose counter reaches zero drains (R313). -/
def State.liveDown (s : State) (tag : Nat) : State :=
  s.onKernel tag fun k =>
    let k := { k with live := k.live - 1 }
    if k.live = 0 ∧ k.state = .running then { k with state := .draining } else k

/-- Lowers the live-task counter for a task that ends, of its own or by a fault where natural says so. A cancellation in the same cycle as
such ends that bring the counter to zero, none of them its own doing, is applied after them, and finds the kernel in DRAINING (R313). -/
def State.liveEnd (s : State) (tag : Nat) (natural : Bool) : State :=
  (s.liveDown tag).onKernel tag fun k =>
    if !natural then { k with cancelAt := none }
    else if k.live = 0 ∧ k.cancelAt.map (· / 2) = some (s.time / 2) then { k with cancelled := false }
    else k

/-- Restarts the watchdogs of a kernel's region and of those above it (R311). -/
def State.progress (s : State) (tag : Nat) : State :=
  { s with regions := (s.eff tag).path.foldl (fun rs r => Bank.alter rs r {} fun x => { x with restarted := s.real }) s.regions }

/-! ## Pointers of the part's own accesses -/

/-- The byte of a die's chip scratchpad at an offset of a context's window, if the window holds it (R171). -/
def State.cspByte (s : State) (ctx o size : Nat) : Option Nat :=
  if o + size ≤ 65536 * s.fld (.ctxCsp ctx) 26 16 then some (65536 * s.fld (.ctxCsp ctx) 9 0 + o) else none

/-- Where a global, chip-scratchpad or peer pointer leads under a context through a table of spans; none where nothing is mapped. -/
def State.ownTargetIn (s : State) (tbl : List Span) (ctx p size : Nat) : Option Target :=
  match p / 2 ^ 60 with
  | 0 => (s.spanIn tbl ctx (bits p 51 0)).map fun (_, ia, ctl) => .global ctx ia (bit ctl.toNat 35)
  | 4 => (s.cspByte ctx (bits p 25 0) size).map fun b => .csp (bits p 59 57) b
  | 6 =>
    if bits p 59 52 = s.fld .lnkDom 7 0 then
      (s.spanIn tbl ctx (bits p 51 0)).map fun (_, ia, ctl) => .global ctx ia (bit ctl.toNat 35)
    else (s.spanIn tbl ctx (bits p 51 0)).map fun (_, ia, _) => .peer (bits p 59 52) ctx ia
  | _ => none

/-- The same for a unit that is no core's. -/
def State.ownTarget (s : State) (ctx p size : Nat) : Option Target := s.ownTargetIn (s.ctx ctx).spans ctx p size
/-- The same for a core's own units, through the spans that the core holds (R330). -/
def State.coreTarget (s : State) (c ctx p size : Nat) : Option Target := s.ownTargetIn (s.coreSpans c ctx) ctx p size

/-- The number of the location at a place: its cell's, whatever spaces, spans or pages lead there (R192). -/
def Place.loc : Place → Option Nat
  | .cell c => some c
  | .line _ c => some c
  | .held p a => some (hostCell p a)
  | _ => none

/-- The number of the byte at an offset of a target, one number for each location (R192); a byte without a cell on this part, absent or a
peer's, is numbered by its intermediate address. -/
def State.loc (s : State) (t : Target) (o : Nat) : Nat :=
  match (s.place t o).1.loc with
  | some c => c
  | none =>
    match t with
    | .global n ia _ => 2 ^ 90 + l2Key n ((ia + o) % 2 ^ 56)
    | .peer r n ia => 2 ^ 100 + r * 2 ^ 64 + l2Key n ((ia + o) % 2 ^ 56)
    | _ => 2 ^ 110 + o

/-- The numbers of n bytes of a target from an offset on, run by run. -/
def State.locRun (s : State) (t : Target) : Nat → Nat → Nat → List Nat
  | 0, _, _ => []
  | fuel + 1, o, n =>
    if n = 0 then []
    else
      let k := t.run o n
      let a := s.loc t o
      (List.range k).map (a + ·) ++ s.locRun t fuel (o + k) (n - k)

/-- The numbers of the first n bytes of a target (R192). -/
def State.locsOf (s : State) (t : Target) (n : Nat) : List Nat := s.locRun t n 0 n

/-- The home slice of a target on this part: die and slice (R171, R210, R333). A core's scratchpad is no slice's memory: what is kept for it
stands at the slice beneath the core, a choice of the model (log entry 90). -/
def State.homeOf (s : State) (t : Target) : Nat × Nat :=
  match t with
  | .global n ia _ => (s.homeDie n ia, homeSlice ia)
  | .csp d b => (d, cspSlice b)
  | .spad c _ => (coreDie c, coreSlice c)
  | .priv c _ _ _ => (coreDie c, coreSlice c)
  | .window n o => (portDie (s.windowAddr n o).1, 0)
  | .peer _ _ ia => (homeHash ia % 8, homeSlice ia)

/-! ## Waiters (R215, R216) -/

/-- Whether two targets name the same byte. -/
def State.sameLoc (s : State) (t u : Target) : Bool := s.loc t 0 == s.loc u 0

/-- The releases that some of the first n bytes of a target hold (R194). -/
def State.releasesAt (s : State) (t : Target) (n : Nat) : List Release :=
  (s.locsOf t n).foldl (fun rs l => rs ++ (Bank.lookD s.releases l []).filter fun r => !rs.contains r) []

/-- An agent reads a location by an acquire (R202): a load of another group that was performed early and holds an older value of it has been
passed, so that the two agents still agree on the order of the writes they see. -/
def State.overtakes (s : State) (t : Target) (n core uid : Nat) : State :=
  let ls := s.locsOf t n
  { s with ops := s.ops.map fun p =>
      if p.core = core ∧ p.uid = uid then p
      else { p with accs := p.accs.map fun x =>
        if x.early && !x.completed && (s.locsOf x.target x.size).any ls.contains && (s.readT x.target 0 x.size).1 != x.value then
          { x with passed := true }
        else x } }

/-- A group that waits for a word reads it by an acquire (R200, R202). -/
def State.waiterReads (s : State) (w : WaitReq) : State :=
  match w.who with
  | .strand c u _ => s.overtakes w.target 8 c u
  | _ => s

/-- Wakes the entries on the words that a write of n bytes touched whose targets the word now reaches; answers how many
(R215, R236). The satisfying read takes the releases of the word's value with it (R194, R200). -/
def State.wakeAt (s : State) (t : Target) (n : Nat) : Nat × State :=
  let ls := s.locsOf t n
  let hit (w : WaitReq) : Bool := w.stage == .entry && (s.locsOf w.target 8).any ls.contains
  s.waits.foldl (fun (acc : Nat × State) w =>
    if hit w then
      let (v, s1) := acc.2.readT w.target 0 8
      if w.value ≤ v then
        (acc.1 + 1, { s1.waiterReads w with waits := s1.waits.map fun x =>
          if x.id = w.id then { x with stage := .woken v false, heard := s1.releasesAt w.target 8 } else x })
      else (acc.1, s1)
    else acc) (0, s)

/-- The waiter entries on a line. -/
def State.lineWaits (s : State) (t : Target) : List WaitReq :=
  let a := s.loc t 0 / 128
  s.waits.filter fun w => w.stage == .entry && s.loc w.target 0 / 128 == a

/-- Wakes every waiter of a line with status 1 (R216). -/
def State.breakWaits (s : State) (t : Target) (v : Nat) : State :=
  let a := s.loc t 0 / 128
  { s with waits := s.waits.map fun w =>
      if w.stage == .entry && s.loc w.target 0 / 128 == a then
        { w with stage := .woken v true, heard := s.releasesAt w.target 8 } else w }

/-! ## Releases (R193, R194, R204) -/

/-- The core of an agent that belongs to one. -/
def Agent.core : Agent → Option Nat
  | .group c _ => some c
  | .copy c => some c
  | .tile c => some c
  | .staging c => some c
  | .task c => some c
  | _ => none
/-- The die of an agent on the part (R191). -/
def Agent.die : Agent → Option Nat
  | .front => some 0
  | .lanyard p => some (portDie p)
  | .host => none
  | .peer _ => none
  | a => a.core.map coreDie

/-- Whether an agent is of this part (R191). -/
def Agent.onPart : Agent → Bool
  | .host => false
  | .peer _ => false
  | _ => true

/-- Whether agent q lies in scope n of agent p (R193); scope 0 is the default, device (R64). -/
def inScope (n : Nat) (p q : Agent) : Bool :=
  match n with
  | 1 => p == q
  | 2 => p == q || (p.core.isSome && p.core == q.core)
  | 3 => p == q || (p.core.isSome && p.core.map coreBit == q.core.map coreBit)
  | 4 => p == q || (p.die.isSome && p.die == q.die)
  | 6 => q != .host
  | 7 => true
  | _ => p == q || (q.onPart && p.onPart)

/-- The release of an agent's write heads the chain of each byte written (R194, R204). -/
def State.tagRelease (s : State) (t : Target) (n : Nat) (rs : List Release) : State :=
  { s with releases := (s.locsOf t n).foldl (fun b l => if rs.isEmpty then Bank.drop b l else Bank.put b l rs) s.releases }
/-- An atomic joins the chain of its bytes, with a release of its own or without (R204). -/
def State.joinChain (s : State) (t : Target) (n : Nat) (r : Option Release) : State :=
  match r with
  | none => s
  | some r => { s with releases := (s.locsOf t n).foldl (fun b l => Bank.alter b l [] (r :: ·)) s.releases }
/-- Whether an acquire of an agent at a scope is included with a release (R194, R203). -/
def Release.includes (r : Release) (q : Agent) (scope : Nat) : Bool := r.always || (inScope r.scope r.agent q && inScope scope q r.agent)
/-- Whether an acquire of an agent at a scope synchronises with a release of the value it reads in n bytes (R194). -/
def State.synchronises (s : State) (t : Target) (n : Nat) (q : Agent) (scope : Nat) : Bool :=
  (s.releasesAt t n).any fun r => r.includes q scope

/-! ## Registered lines and plain writes (R204, R209 to R215) -/

/-- The registered line that holds a target's byte, if there is one. -/
def State.lineAt (s : State) (t : Target) : Option BarLine :=
  let a := s.loc t 0 / 128
  s.lines.find? fun l => s.loc l.target 0 / 128 == a

/-- Whether a target lies on a registered line that protects it from a write (R213). -/
def State.protects (s : State) (t : Target) (permitted : Bool) : Bool := (s.lineAt t).isSome && !permitted

/-- The counter of refused protected writes at a line's home (R213, R228). -/
def State.countProtect (s : State) (t : Target) : State := s.bump (.barStat (s.homeOf t).1) 31 16 1

/-- A group no longer reads bytes from before its engines' writes at locations that a test accepts. -/
def Group.unhide (g : Group) (hit : Nat → Bool) : Group := { g with unseen := g.unseen.filter fun (l, _) => !hit l }

/-- The groups of a core, on slots, saved or being restored. -/
def CoreState.mapGroups (x : CoreState) (f : Group → Group) : CoreState :=
  { x with
    slots := x.slots.map fun (k, y) => (k, { y with group := f y.group })
    saved := x.saved.map fun v => { v with group := f v.group }
    binding := x.binding.map fun b => match b with
      | .saved g a n k => .saved (f g) a n k
      | r => r }

/-- A write of n bytes at its home is visible to every later read of every agent (R202): what an engine wrote there before it is no longer
hidden from its group. -/
def State.unhide (s : State) (t : Target) (n : Nat) : State :=
  if s.cores.all fun (_, x) => x.slots.all (fun (_, y) => y.group.unseen.isEmpty) && x.saved.all (fun v => v.group.unseen.isEmpty)
      && x.binding.isEmpty then s
  else
    let ls := s.locsOf t n
    { s with cores := s.cores.map fun (c, x) => (c, x.mapGroups fun g => if g.unseen.isEmpty then g else g.unhide ls.contains) }

/-- A plain write of n bytes at its home: a new chain, and waiters compared again (R202, R204, R215). -/
def State.storeAt (s : State) (t : Target) (n v : Nat) (rel : List Release) : State :=
  (((s.writeT t 0 n v).tagRelease t n rel).unhide t n |>.wakeAt t n).2

/-! ## Deterministic adds and their settling (R227) -/

/-- A floating-point add at the home (R219): RNE, canonical NaNs, no status bit. -/
def homeFadd (size x y : Nat) : Nat :=
  let F := if size = 8 then f64 else f32
  (fpAdd F {} (F.value x) (F.value y)).1

/-- The order in which a pending set is applied: address, then logical id, lane and ordinal. -/
def State.pendingLe (s : State) (x y : Pending) : Bool :=
  let k (p : Pending) : List Nat := [s.loc p.target 0, p.task.toNat, p.lane, p.ordinal]
  decide (k x < k y) || k x == k y

/-- Whether a member's location meets a test on location numbers. -/
def State.pendingIn (s : State) (p : Pending) (hit : Nat → Bool) : Bool :=
  (s.locsOf p.target p.size).any hit

/-- Applies one member of a pending set to its location's stored value (R219). -/
def State.applyPending (s : State) (p : Pending) : State :=
  let (old, s) := s.readT p.target 0 p.size
  (((s.writeT p.target 0 p.size (homeFadd p.size old p.operand)).unhide p.target p.size).wakeAt p.target p.size).2

/-- Settles every location of a pending set that a test meets, whole (R227). -/
def State.settleWhere (s : State) (hit : Pending → Bool) : State :=
  let keys := (s.pending.filter hit).map fun p => s.loc p.target 0
  let mine (p : Pending) : Bool := keys.contains (s.loc p.target 0)
  let members := sortBy s.pendingLe (s.pending.filter mine)
  members.foldl State.applyPending { s with pending := s.pending.filter fun p => !mine p }

/-- Settles the locations that an access touches (R227). -/
def State.settleAt (s : State) (t : Target) (n : Nat) : State :=
  if s.pending.isEmpty then s
  else
    let l := s.locsOf t n
    s.settleWhere fun p => s.pendingIn p l.contains

/-! ## Notices and the page ring -/

/-- The port that a context's notices take (R363). -/
def State.noticePort (s : State) (ctx : Nat) : Nat := if (s.reg .lnyRoute).getLsbD ctx then 1 else 0

/-- Whether a port's notice queue has room (R362, R363). -/
def State.noticeRoom (s : State) (p : Nat) : Bool :=
  decide ((s.fld (.nqHead p) 31 0 + 2 ^ 32 - s.fld (.nqTail p) 31 0) % 2 ^ 32 < 2 ^ s.fld (.nqBase p) 4 0)

/-- Writes a notice to host memory and advances HEAD (R363). -/
def State.writeNotice (s : State) (p : Nat) (n : Notice) : State :=
  let h := s.fld (.nqHead p) 31 0
  let a := bits (s.reg (.nqBase p)).toNat 63 12 * 4096 + 16 * (h % 2 ^ s.fld (.nqBase p) 4 0)
  let v := n.addr.toNat + (n.num % 2 ^ 32) * 2 ^ 64 + n.ctx * 2 ^ 96 + n.kind * 2 ^ 104
  ({ s with mem := Memory.write s.mem (hostCell p a) 16 v }).setFld (.nqHead p) 31 0 (h + 1)

/-- Sends a notice; a full queue holds it until TAIL advances (R363). -/
def State.notice (s : State) (n : Notice) : State :=
  let p := s.noticePort n.ctx
  let q := Bank.lookD s.notices p []
  if q.isEmpty && s.noticeRoom p then s.writeNotice p n else { s with notices := Bank.put s.notices p (q ++ [n]) }

/-- Writes the notices that a port holds while there is room. -/
def State.flushNotices (s : State) (p : Nat) : Nat → State
  | 0 => s
  | n + 1 =>
    match Bank.lookD s.notices p [] with
    | [] => s
    | x :: t =>
      if s.noticeRoom p then State.flushNotices ({ s with notices := Bank.put s.notices p t }.writeNotice p x) p n else s

/-- Whether the page ring has room (R345). -/
def State.ringRoom (s : State) : Bool :=
  decide ((s.fld .pgeRingHead 31 0 + 2 ^ 32 - s.fld .pgeRingTail 31 0) % 2 ^ 32 < 2 ^ s.fld .pgeRing 4 0)

/-- Writes a page-ring entry as a release at system scope, advances HEAD and sends the notice (R345, R363). -/
def State.writeRing (s : State) (e : RingEntry) : State :=
  let h := s.fld .pgeRingHead 31 0
  let a := bits (s.reg .pgeRing).toNat 55 12 * 4096 + 32 * (h % 2 ^ s.fld .pgeRing 4 0)
  let v := wordsNat [BitVec.ofNat 64 e.ia, e.tag, e.freed, BitVec.ofNat 64 (e.ctx + 256 * e.kind + 65536 * e.result)]
  let s := ({ s with mem := Memory.write s.mem (hbmCell a) 32 v }).setFld .pgeRingHead 31 0 (h + 1)
  s.notice { addr := BitVec.ofNat 64 a, num := h, ctx := e.ctx, kind := 3 }

/-- Posts a page-ring entry; a full ring holds it until TAIL advances (R345). -/
def State.postRing (s : State) (e : RingEntry) : State :=
  if s.ringHeld.isEmpty && s.ringRoom then s.writeRing e else { s with ringHeld := s.ringHeld ++ [e] }

/-- Writes the ring entries held while there is room. -/
def State.flushRing (s : State) : Nat → State
  | 0 => s
  | n + 1 =>
    match s.ringHeld with
    | [] => s
    | x :: t => if s.ringRoom then State.flushRing ({ s with ringHeld := t }.writeRing x) n else s

/-- An access, lease request or PREF reaches an ABSENT page: it becomes REQUESTED and posts one request (R337, R345). -/
def State.requestPage (s : State) (n : Nat) (l : Leaf) (kind : Nat) : State :=
  let p := s.page n l
  if p.state = none then
    (s.setPage n l { p with state := some .requested }).postRing
      { ia := l.base, tag := 0, freed := 0, ctx := n, kind := kind, result := 0 }
  else s

/-- Requests the page of an intermediate address, if it is ABSENT. -/
def State.requestAt (s : State) (n ia kind : Nat) : State :=
  match s.walk n ia with
  | (some l, s) => if l.tier = 3 then s.requestPage n l kind else s
  | (none, s) => s

/-! ## The part's own accesses (R325, R337 to R339, R412) -/

/-- How a unit's own access to a page goes: it is there, it waits, or it is refused (R412). -/
inductive Reach where
  | present | absent | refused
deriving DecidableEq, Repr

/-- Whether two ranges of numbers share one. -/
def rangesMeet (a n b m : Nat) : Bool := decide (n ≠ 0) && decide (m ≠ 0) && decide (a < b + m) && decide (b < a + n)

/-- What of a range of cells with its context lies outside another range. -/
def cutRange (base size : Nat) (o : Nat × Nat × Nat) : List (Nat × Nat × Nat) :=
  if rangesMeet o.1 o.2.1 base size then
    [(o.1, base - o.1, o.2.2), (base + size, o.1 + o.2.1 - (base + size), o.2.2)].filter fun p => p.2.1 != 0
  else [o]

/-- A range of cells holds zeros, in storage and in the L2. -/
def State.zeroCells (s : State) (base size : Nat) : State :=
  let here (a : Nat) : Bool := decide (base ≤ a) && decide (a < base + size)
  { s with mem := s.mem.filter fun (a, _) => !here a
           l2 := s.l2.filter fun (a, _) => !here a
           releases := s.releases.filter fun (a, _) => !here a }

/-- A present page is mapped into a context (R322): where another context held its frames last they are zero first (log entry 98). -/
def State.claimPage (s : State) (n : Nat) (l : Leaf) : State :=
  let base := l.cell l.base
  if 2 ≤ l.tier ∨ s.owners.any (fun o => o.2.2 == n && decide (o.1 ≤ base) && decide (base + l.size ≤ o.1 + o.2.1)) = true then s
  else
    let s := (s.owners.filter fun o => o.2.2 != n && rangesMeet o.1 o.2.1 base l.size).foldl
      (fun s o => s.zeroCells (max base o.1) (min (base + l.size) (o.1 + o.2.1) - max base o.1)) s
    { s with owners := (base, l.size, n) :: s.owners.flatMap (cutRange base l.size) }

/-- The lines of 128 bytes that a slice of the L2 holds: 256 MiB of a die over its 24 slices (R16). -/
def sliceLines : Nat := 2 ^ 21 / 24

/-- Whether the slices can hold lines of the L2, given by their numbers, beside the dirty ones that they hold (R16). A write that finds no room
waits until the L2 has given up a line. -/
def State.l2Takes (s : State) (lines : List Nat) : Bool :=
  decide (s.l2.length + lines.length ≤ sliceLines) ||
    (let held := (s.l2.map fun x => x.2.1 / 128).eraseDups
     let new := lines.eraseDups.filter fun x => !held.contains x
     let home (x : Nat) : Nat × Nat := let ia := x * 128 % 2 ^ 56; (s.homeDie (x * 128 / 2 ^ 56) ia, homeSlice ia)
     new.all fun x => decide (((held ++ new).filter fun y => home y == home x).length ≤ sliceLines))

/-- The lines of a range of intermediate addresses of a context. -/
def l2Lines (n ia size : Nat) : List Nat :=
  (List.range ((ia % 128 + size + 127) / 128)).map (l2Key n ia / 128 + ·)

/-- A page as an access of one of the part's own units meets it: a draining page refuses it; an ABSENT one is requested and waited for, as is
one that is REQUESTED or MIGRATING (R337, R339); before a write a page with replicas collapses (R338). -/
def State.unitPage (s : State) (n : Nat) (l : Leaf) (write : Bool) : Reach × State :=
  let p := s.page n l
  if p.state = some .draining then (.refused, s)
  else if l.tier = 3 then (.absent, s.requestPage n l 1)
  else match p.state with
    | some .requested => (.absent, s)
    | some .migrating => (.absent, s)
    | some .replicated => if write then (.absent, s.setPage n l { p with state := some .collapsing }) else (.present, s)
    | some .collapsing => (if write then .absent else .present, s)
    | _ => (.present, s.claimPage n l)

/-- Whether an intermediate range of a context can be reached by the part's own accesses (R412, R325): page by page, and a write where the L2
has room for its lines (R16). -/
def State.reachFrom (s : State) (n ia size : Nat) (write : Bool) : Nat → Nat → Reach × State
  | 0, _ => (.present, s)
  | fuel + 1, o =>
    if size ≤ o then (.present, s)
    else if !s.allocated n ia size then (.refused, s)
    else match s.walk n (ia + o) with
      | (none, s) => (.refused, s)
      | (some l, s) =>
        match s.unitPage n l write with
        | (.present, s) =>
          if write && !s.l2Takes (l2Lines n (ia + o) (min (size - o) (l.base + l.size - (ia + o)))) then (.absent, s)
          else State.reachFrom s n ia size write fuel (l.base + l.size - ia)
        | r => r

/-- Whether the part's own access to an intermediate range reaches it (R412). -/
def State.reach (s : State) (n ia size : Nat) (write : Bool) : Reach × State := s.reachFrom n ia size write (size / 65536 + 2) 0

/-- A plain write of one of the part's own units, within 128 bytes, at its home: what is pending there settles first (R227); a registered line
is not written, and the refusal counted (R213, log entry 91). -/
def State.unitStore (s : State) (t : Target) (n v : Nat) (rel : List Release) : State :=
  if s.protects t false then s.countProtect t else (s.settleAt t n).storeAt t n v rel

/-! ## Leases of a task (R247) -/

/-- The lease set of a task: the kernel's ranges, the record's extra range, the ranges added by LEASE. -/
def State.leaseSet (s : State) (t : TaskInfo) : List LeaseRange :=
  let kernel := match s.kernel t.ktag with
    | some k => k.launch.leases.filterMap fun w => leaseRange w.toNat
    | none => []
  kernel ++ (leaseRange (recLease t.record)).toList ++ t.added

/-- Whether a range lies wholly within one of a list of leased ranges (R168, R186). -/
def inLeases (ls : List LeaseRange) (va size : Nat) : Bool :=
  ls.any fun r => decide (r.base ≤ va) && decide (va + size ≤ r.base + r.size)

end Sys2Proof.Machine
end

