-- ==== Sys2Proof/Machine/Gate.lean ====
section
/-! DEFINITION. What an access finds at its home before it is performed: its page's state (R337 to R339), the leases on a draining page (R340,
R341), the room of the L2 (R16) and of a host port's hold (R364). -/
namespace Sys2Proof.Machine

/-! ## Pages and leases at the home (R337, R338, R341) -/

/-- The lease period of a context in real time (R332, R6). -/
def State.leasePeriod (s : State) (ctx : Nat) : Nat := s.fld (.ctxPge ctx) 40 24 * realMicro

/-- When a lease was renewed last before now (R340): every half period from its grant on. A renewal of this very cycle comes after a command of
it (R341). -/
def State.renewedBefore (s : State) (e : Lease) : Nat :=
  let half := s.leasePeriod e.ctx / 2
  if s.real ≤ e.renewed then (if e.granted < e.renewed then e.renewed - half else e.renewed)
  else e.renewed + (s.real - 1 - e.renewed) / half * half

/-- Whether a lease's range covers part of a page of its context. -/
def Lease.covers (e : Lease) (n : Nat) (l : Leaf) : Bool :=
  e.ctx == n && e.pieces.any fun p => match p with
    | some (ia, k) => decide (ia < l.base + l.size) && decide (l.base < ia + k)
    | none => false

/-- Whether every lease on a DRAINING page has lapsed there, or ended (R341). -/
def State.allLapsed (s : State) (n : Nat) (l : Leaf) : Bool :=
  (s.page n l).lapses.all fun (id, t) => decide (t ≤ s.real) || !(s.leases.any fun e => e.id == id)

/-- What an access finds at the home: it goes on, at a place where translation gives one; it waits there; or its page is gone
(R341). -/
inductive Gate where
  | go (p : Option Place)
  | wait
  | gone
deriving DecidableEq, Repr

/-- Whether a pending set waits on a line, so that a read of it settles and writes there (R227). -/
def State.pendingLine (s : State) (n ia : Nat) : Bool :=
  s.pending.any fun p => match p.target with
    | .global m ja _ => l2Key m ja / 128 == l2Key n ia / 128
    | _ => false

/-- A page that a write meets (R338): a page with replicas collapses first, and one that drains has its replicas invalidated (log entry 113). -/
def State.pageWrite (s : State) (n : Nat) (l : Leaf) (g : Gate) : Gate × State :=
  let p := s.page n l
  match p.state with
  | some .replicated => (.wait, s.setPage n l { p with state := some .collapsing })
  | some .collapsing => (.wait, s)
  | some .draining => if p.replicas.isEmpty then (g, s) else (.wait, s.setPage n l { p with collapse := true })
  | _ => (g, s)

/-- A page that a read through a span with RME meets from a die other than the line's home (R337, R338): the die gets a
replica. -/
def State.pageRead (s : State) (n : Nat) (l : Leaf) (rme : Bool) (die : Option Nat) (ia : Nat) (g : Gate) : Gate × State :=
  let p := s.page n l
  match die with
  | some d =>
    if rme && l.rm && d != s.homeDie n ia && (p.state == none || p.state == some .replicated)
        && (s.lineAt (.global n ia false)).isNone then
      (g, s.setPage n l { p with state := some .replicated
                                 replicas := if p.replicas.contains d then p.replicas else d :: p.replicas })
    else (g, s)
  | none => (g, s)

/-- A die's translation of a page is used (R344): the pages of each die, the one used last at the end. -/
def State.touch (s : State) (n : Nat) (l : Leaf) (ia : Nat) : State :=
  let x := (s.homeDie n ia, pageKey n l.base)
  { s with pageUse := s.pageUse.filter (fun y => y != x) ++ [x] }

/-- A global access at its home: its page's state decides (R337 to R341). task says whether the agent runs a task's accesses,
which a DRAINING page serves until its leases lapse; any other agent finds such a page gone. -/
def State.pageGate (s : State) (n ia : Nat) (task write rme : Bool) (die : Option Nat) (kind : Nat) : Gate × State :=
  match s.walk n ia with
  | (none, s) => (.gone, s)
  | (some l, s) =>
    let p := s.page n l
    let ok : Gate := .go (some (.line (l2Key n ia) (l.cell ia)))
    if p.state == some .draining && (!task || s.allLapsed n l) then (.gone, s)
    else if l.tier = 3 then (.wait, s.requestPage n l kind)
    else if p.state == some .requested || p.state == some .migrating then (.wait, s)
    else
      let s := (s.claimPage n l).touch n l ia
      if (write || s.pendingLine n ia) && !s.l2Takes [l2Key n ia / 128] then (.wait, s)
      else if write then s.pageWrite n l ok else s.pageRead n l rme die ia ok

/-- The lines that a port of a host window holds. -/
def State.heldLines (s : State) (p : Nat) : Nat := (s.held.filter fun h => h.port == p).length

/-- A target as an agent's access meets it: a global page (R337), the hold of a host port (R364), or plain storage. -/
def State.gate (s : State) (t : Target) (task write : Bool) (die : Option Nat) : Gate × State :=
  match t with
  | .global n ia rme => s.pageGate n ia task write rme die 1
  | .window n o =>
    let (p, a) := s.windowAddr n o
    if write && (heldLine s.held p a).isNone && decide (65536 ≤ s.heldLines p) then (.wait, s)
    else (.go none, s)
  | _ => (.go none, s)

/-- Whether the L2 and the holds of the host ports have room for every line of ranges that a unit is about to write (R16, R364): targets and
sizes. -/
def State.roomFor (s : State) (rs : List (Target × Nat)) : Bool :=
  let l2 := rs.flatMap fun (t, n) => match t with
    | .global c ia _ => l2Lines c ia n
    | _ => []
  let held := (rs.flatMap fun (t, n) => match t with
    | .window w o => (List.range ((o % 128 + n + 127) / 128)).map fun k => let (p, a) := s.windowAddr w (o / 128 * 128 + 128 * k); (p, a / 128 * 128)
    | _ => []).eraseDups.filter fun (p, a) => (heldLine s.held p a).isNone
  s.l2Takes l2 && [0, 1].all fun p => decide (s.heldLines p + (held.filter fun x => x.1 == p).length ≤ 65536) || !(held.any fun x => x.1 == p)

/-- Whether the task unit of a core can read the bytes of a pointer now: a page that is not ready is asked for and waited for (R337). -/
def State.readReady (s : State) (c ctx p size : Nat) : Bool × State :=
  match s.coreTarget c ctx p size with
  | none => (true, s)
  | some t =>
    match s.gate t true false (some (coreDie c)) with
    | (.wait, s) => (false, s)
    | (_, s) => (true, s)

end Sys2Proof.Machine
end

