-- ==== Sys2Proof/Machine/Ops.lean ====
section
/-! DEFINITION. The operations that the meanings share: fault records and what a fault does (R93 to R95, R324 to R328), the
return from a fault's freeze, the end of tasks, records and kernels (R236, R310, R315, R326, R327), the write of a word
with its waiters (R212 to R216), and the order log (R256 to R258). -/
namespace Sys2Proof.Machine

/-! ## Codes (R328) -/

/-- ILLEGAL_INSTRUCTION. -/
def fcIllegalInstruction : Nat := 0x0101
/-- ILLEGAL_HINT. -/
def fcIllegalHint : Nat := 0x0102
/-- ILLEGAL_OPERAND. -/
def fcIllegalOperand : Nat := 0x0103
/-- ILLEGAL_ROUTE. -/
def fcIllegalRoute : Nat := 0x0104
/-- UNIFORMITY. -/
def fcUniformity : Nat := 0x0201
/-- ILLEGAL_CONVERGENCE. -/
def fcIllegalConvergence : Nat := 0x0202
/-- TOKEN_OVERFLOW. -/
def fcTokenOverflow : Nat := 0x0203
/-- ARITHMETIC. -/
def fcArithmetic : Nat := 0x0301
/-- SPACE. -/
def fcSpace : Nat := 0x0401
/-- ALIGNMENT. -/
def fcAlignment : Nat := 0x0402
/-- PERMISSION. -/
def fcPermission : Nat := 0x0403
/-- LEASE_RANGE. -/
def fcLeaseRange : Nat := 0x0404
/-- LEASE_EXPIRED. -/
def fcLeaseExpired : Nat := 0x0405
/-- BARRIER_PROTECT. -/
def fcBarrierProtect : Nat := 0x0501
/-- BARRIER_BROKEN. -/
def fcBarrierBroken : Nat := 0x0502
/-- RECORD_INVALID. -/
def fcRecordInvalid : Nat := 0x0601
/-- INBOUND_REFUSED. -/
def fcInboundRefused : Nat := 0x0602
/-- NO_PROGRESS. -/
def fcNoProgress : Nat := 0x0603
/-- ENGINE_HANG. -/
def fcEngineHang : Nat := 0x0701
/-- METADATA. -/
def fcMetadata : Nat := 0x0702
/-- LINK_DOWN. -/
def fcLinkDown : Nat := 0x0801
/-- UNCORRECTABLE. -/
def fcUncorrectable : Nat := 0x0802
/-- FIRMWARE. -/
def fcFirmware : Nat := 0x0901

/-- What a peer part answers: a free value (log entry 24). -/
def State.peerAnswer (s : State) : DWord × State := (Config.peer s.draws, { s with draws := s.draws + 1 })

/-- With what a peer part refuses (R210, R357): PERMISSION, or, where the packet was dropped at a fifth hop on its way, LINK_DOWN; which it is the
turn says (log entry 24). -/
def State.peerRefusal (s : State) : Nat := if s.arg.hops = 0 then fcPermission else fcLinkDown

/-! ## Fault records (R324, R325) -/

/-- The 64 bytes of a record with its sequence number (R324). -/
def FaultRec.words (r : FaultRec) (seq : Nat) : List DWord :=
  [BitVec.ofNat 64 (r.code + r.kind * 2 ^ 16 + (if r.suppressed then 2 ^ 24 else 0) + (if r.relaunched then 2 ^ 25 else 0)
      + r.core * 2 ^ 32 + r.slot * 2 ^ 48 + r.strand * 2 ^ 56),
   BitVec.ofNat 64 (r.region + r.ktag * 2 ^ 32), r.task, r.pc, r.mask, r.addr, r.info, BitVec.ofNat 64 seq]

/-- The intermediate address of a context's next record (R325). -/
def State.faultPlace (s : State) (n : Nat) : Nat :=
  bits (s.reg (.ctxFq n)).toNat 55 12 * 4096 + 64 * (s.fld (.ctxFqHead n) 31 0 % 2 ^ s.fld (.ctxFq n) 4 0)

/-- Whether a context's fault queue is full (R325). -/
def State.faultFull (s : State) (n : Nat) : Bool :=
  decide (2 ^ s.fld (.ctxFq n) 4 0 ≤ (s.fld (.ctxFqHead n) 31 0 + 2 ^ 32 - s.fld (.ctxFqTail n) 31 0) % 2 ^ 32)

/-- Writes a record as a release at system scope, drops it and counts it as lost, or, where its place lies on an ABSENT page, holds it until the
page is resident (R325). The agent of the release is the front end's (log entry 92). -/
def State.writeRecordNow (s : State) (n : Nat) (r : FaultRec) : State :=
  if s.faultFull n then s.bump (.ctxFqHead n) 63 32 1
  else
    let a := s.faultPlace n
    match s.reach n a 64 true with
    | (.refused, s) => s.bump (.ctxFqHead n) 63 32 1
    | (.absent, s) =>
      let c := s.ctx n
      s.setCtx n { c with recsWaiting := c.recsWaiting ++ [r] }
    | (.present, s) =>
      let c := s.ctx n
      let h := s.fld (.ctxFqHead n) 31 0
      let s := s.unitStore (.global n a false) 64 (wordsNat (r.words c.seq)) [{ agent := .front, scope := 7 }]
      let s := (s.setFld (.ctxFqHead n) 31 0 (h + 1)).setCtx n { c with seq := c.seq + 1 }
      s.notice { addr := BitVec.ofNat 64 a, num := h, ctx := n, kind := 2 }

/-- Writes a record after those that wait for an ABSENT page (R325). -/
def State.writeRecord (s : State) (n : Nat) (r : FaultRec) : State :=
  let c := s.ctx n
  if c.recsWaiting.isEmpty then s.writeRecordNow n r else s.setCtx n { c with recsWaiting := c.recsWaiting ++ [r] }

/-- Writes the records that waited, once their page may be resident (R325). -/
def State.flushRecords (s : State) (n : Nat) : State :=
  let c := s.ctx n
  c.recsWaiting.foldl (fun s r => s.writeRecord n r) (s.setCtx n { c with recsWaiting := [] })

/-! ## Ends of records, launches and kernels -/

/-- A graph's node is done (R306): each successor's counter falls, in list order, and one that reaches zero is to be launched. -/
def GraphRun.nodeDone (g : GraphRun) (i : Nat) : GraphRun :=
  let g := { g with running := g.running.filter (· ≠ i), finished := g.finished + 1 }
  ((g.nodes.getD i (0, [])).2).foldl (fun g j =>
    let c := nth g.counters j
    { g with counters := g.counters.set j (c - 1), ready := if c = 1 then g.ready ++ [j] else g.ready }) g

/-- A graph's node whose kernel is FAULTED decrements nothing; the first such code is kept (R304, R306). -/
def GraphRun.nodeFault (g : GraphRun) (i code : Nat) : GraphRun :=
  { g with running := g.running.filter (· ≠ i), fault := some (g.fault.getD code) }

/-- A LAUNCH packet or a graph node whose kernel is over, FAULTED with a code or DONE: the packet's work is done, or the node's, and the
completion barrier is to have its add (R301, R306, R313). -/
def State.launchOver (s : State) (l : Launch) (tag : Nat) (code : Option Nat) : State :=
  let s := if code.isSome then s.bump .krnStat 47 32 1 else s
  match l.source with
  | .packet q p =>
    let x := Bank.lookD s.queues q {}
    let started := x.started.map fun y => if y.id = p then { y with finished := true, ktag := tag } else y
    { s with queues := Bank.put s.queues q { x with started := started } }
  | .node r i =>
    match s.graphs.find? fun g => g.id == r with
    | none => s
    | some g =>
      let x := Bank.lookD s.queues g.queue {}
      let y : Started := { id := x.nextPkt, ctx := l.ctx, addr := g.addr, barrier := l.barrier, region := l.region, ktag := tag
                           finished := true, node := true }
      { s with
        queues := if l.barrier = 0 then s.queues
          else Bank.put s.queues g.queue { x with started := x.started ++ [y], nextPkt := x.nextPkt + 1 }
        graphs := s.graphs.map fun g =>
          if g.id = r then (match code with | none => g.nodeDone i | some c => g.nodeFault i c) else g }

/-- A kernel that a cancellation sent to FAULTED: the spec gives it no code, so the code is a free value (log entry 4). -/
def State.launchCancelled (s : State) (l : Launch) (tag : Nat) : State :=
  { s with draws := s.draws + 1 }.launchOver l tag (some (Config.cancelCode s.draws).toNat)

/-- Whether two records are the same one. -/
def Rec.same (a b : Rec) : Bool := a.id == b.id

/-- The record of a task that ends without its slot, as its future needs it. -/
def TaskInfo.asRec (t : TaskInfo) : Rec :=
  { id := 0, addr := t.addr, words := t.record, ctx := t.ctx, ktag := t.ktag, det := t.det, steals := t.steals }

/-- A private-pool block that its group no longer keeps. -/
def CoreState.freePrivate (x : CoreState) (base : Nat) : CoreState :=
  { x with blocks := x.blocks.filter fun b => !(b.cls == 4 && b.base == base) }

/-- What ends with a group that is not on a slot: its task and those of its EXEC frames, of which the outermost alone counts as a
live task; of a quad, the first group's (R23, R253). -/
def Group.ends (g : Group) (e : Ending) : List EndRec :=
  if (g.task.quad.getD 0) ≠ 0 then []
  else match (g.task :: g.frames.map (·.task)).reverse with
    | [] => []
    | t :: inner =>
      { record := t.asRec, ending := e, no := t.no } :: inner.map fun u => { record := u.asRec, ending := e, counts := false, no := u.no }

/-- Cancels a core's records of a kernel that are not RUNNING, and its saved groups (R238, R315): each leaves what holds it
and waits for its future to be cancelled. -/
def CoreState.cancelRecords (x : CoreState) (tag : Nat) : CoreState :=
  let mine (r : Rec) : Bool := r.ktag == tag
  let bindings : List EndRec := x.binding.filterMap fun b => match b with
    | .record r ks => if mine r then some { record := r, ending := .cancelled, counts := !ks.isEmpty } else none
    | .saved _ _ _ _ => none
  let saves := x.saved.filter fun v => v.group.task.ktag == tag
  let held := x.deque.filter mine ++ x.inbound.filter mine ++ x.relaunch.filter mine ++ (x.steal.reply.filter mine).toList
  let all := x.deque ++ x.inbound ++ x.binding.filterMap fun b => match b with
    | .record r _ => some r
    | _ => none
  let x := { x with
    deque := x.deque.filter fun r => !mine r
    inbound := x.inbound.filter fun r => !mine r
    relaunch := x.relaunch.filter fun r => !mine r
    saved := x.saved.filter fun v => v.group.task.ktag != tag
    steal := { x.steal with reply := x.steal.reply.filter fun r => !mine r }
    ends := x.ends ++ held.map (fun r => { record := r, ending := .cancelled }) ++ bindings
      ++ saves.flatMap fun v => v.group.ends .cancelled
    cmds := x.cmds.filter fun c => match c.owner with
      | .staging i => !(all.any fun r => mine r && r.id == i)
      | _ => true }
  saves.foldl (fun x v => x.freePrivate v.lpBase) x

/-- The slots that a group's task occupies: four for a quad, else its own (R230). -/
def taskSlots (g : Group) (k : Nat) : List Nat := if g.task.quad.isSome then (List.range 4).map (4 * (k / 4) + ·) else [k]

/-- The slots of the task that ends when a slot's group does: an EXEC child ends alone (R236, R253). -/
def endSlots (g : Group) (k : Nat) : List Nat := if g.frames.isEmpty then taskSlots g k else [k]

/-- The number of an MMAQ among its group's (R280). -/
def TileKind.mmaqNo : TileKind → Option Nat
  | .mmaq _ _ _ _ _ _ n => some n
  | _ => none

/-- The queued MMAQs of a slot that not all four groups of its quad have issued (R97, R280). -/
def State.mmaqLoose (s : State) (c k : Nat) : List TileOp :=
  (s.core c).tileOps.filter fun o => o.slot == k &&
    (match o.kind.mmaqNo with
      | some n => (taskSlots (s.group c k) k).any fun j => decide ((s.group c j).mmaqs ≤ n)
      | none => false)

/-- A strand goes back to an address, whatever it waits in. -/
def Strand.backTo (x : Strand) (pc : DWord) (time : Nat) : Strand :=
  if x.state = .waiting then { x with pc := pc, state := .ready, wait := {}, since := time, hinted := 0, openedAt := none }
  else { x with pc := pc, hinted := 0, openedAt := none }

/-- The waits of a group's strand are given up (log entry 127). -/
def State.dropWaits (s : State) (c uid n : Nat) : State := { s with waits := s.waits.filter fun w => w.who != .strand c uid n }

/-- Withdraws tile operations of a slot: they have no effect and are not counted, and the strand of the first of them stands at
its hint sequence again, though it waits for what it has issued since (R97, R280). -/
def State.withdraw (s : State) (c k : Nat) (os : List TileOp) : State :=
  match os with
  | [] => s
  | o :: _ =>
    let ids := os.map (·.id)
    let x := s.core c
    let s := s.setCore c { x with tileOps := x.tileOps.filter fun y => !ids.contains y.id }
    let g := s.group c k
    let g := { g with outst := g.outst.filter fun y => !ids.contains y.id, tl := g.tl - os.length, mmaqs := g.mmaqs - os.length }
    (s.setGroup c k (match Bank.look g.strands o.strand with
      | some y => g.setStrand o.strand (y.backTo o.pc s.time)
      | none => g)).dropWaits c g.uid o.strand

/-- Withdraws the MMAQs of a task that not all four groups have issued (R97, R280). -/
def State.withdrawLoose (s : State) (c k : Nat) : State :=
  ((taskSlots (s.group c k) k).map fun j => (j, s.mmaqLoose c j)).foldl (fun s (j, os) => s.withdraw c j os) s

/-- Whether a slot is FROZEN for the debugger (R75). -/
def Slot.debugged (x : Slot) : Bool := x.state == .frozen && (x.cause == .halt || x.cause == .bkpt || x.cause == .policy)

/-- Whether a group of a region or of one below it is frozen for the debugger, so that the time does not count (R98). -/
def State.regionFrozen (s : State) (r : Nat) : Bool :=
  s.cores.any fun (_, x) => x.slots.any fun (_, y) => y.debugged && (s.eff y.group.task.ktag).path.contains r

/-- The watchdogs of a kernel's region and of those above it stand from now on, unless they do already (R98). -/
def State.frozenFrom (s : State) (tag : Nat) : State :=
  { s with regions := (s.eff tag).path.foldl (fun rs r =>
      Bank.alter rs r {} fun y => { y with frozenFrom := some (y.frozenFrom.getD s.real) }) s.regions }

/-- Where no group of a region is frozen for the debugger any more, its watchdog goes on: the time in which one was does not count (R98). -/
def State.thaw (s : State) (tag : Nat) : State :=
  { s with regions := (s.eff tag).path.foldl (fun rs r =>
      if s.regionFrozen r then rs
      else Bank.alter rs r {} fun y => match y.frozenFrom with
        | some f => { y with restarted := y.restarted + (s.real - max f y.restarted), frozenFrom := none }
        | none => y) s.regions }

/-- A slot whose task is to end: it drains, and the first reason to end stands, a failure replacing a plain end (R95, R236). -/
def Slot.endWith (x : Slot) (e : Ending) : Slot :=
  let keep := match x.group.ending, e with
    | none, e => e
    | some .done, e => e
    | some f, _ => f
  { x with state := .draining, cause := .none, preempt := none, halting := false
           group := { x.group with ending := some keep, step := none } }

/-- Ends the task of a slot's group, whole (R95, R236); an MMAQ that its quad can no longer complete is withdrawn (log entry 26). -/
def State.endTask (s : State) (c k : Nat) (e : Ending) : State :=
  let ks := endSlots (s.group c k) k
  (ks.foldl (fun s j => s.setSlot c j ((s.slot c j).endWith e)) (if (s.group c k).frames.isEmpty then s.withdrawLoose c k else s)).thaw
    (s.group c k).task.ktag

/-- A slot whose task is cancelled is to stop at its pre-emption point (R315, R97), a FROZEN one once it is ACTIVE again (R75); one that
drains for a relaunch ends instead. -/
def Slot.cancel (x : Slot) (time : Nat) : Slot :=
  match x.state with
  | .active | .frozen =>
    { x with preempt := some (x.preempt.getD time), group := { x.group with ending := some (x.group.ending.getD .cancelled) } }
  | .draining =>
    if x.group.ending = some .relaunch then { x with group := { x.group with ending := some .cancelled } } else x
  | _ => x

/-- A cancelled task whose groups all stand at their pre-emption point or have ended already ends, a quad's as a whole (R97, R315); force says that
the point is no longer waited for, and an instruction boundary is enough. -/
def State.cancelPoint (s : State) (c k : Nat) (force : Bool) : State :=
  let ks := taskSlots (s.group c k) k
  if (s.group c k).ending.isSome && ks.all fun j =>
      let x := s.slot c j
      x.state == .draining || (x.preempt.isSome && x.state == .active && (x.group.atPoint || (force && x.group.atBoundary))) then
    ks.foldl (fun s j => if (s.slot c j).state = .active then s.endTask c j .cancelled else s) s
  else s

/-- Cancels every group of a kernel on a core (R315). -/
def CoreState.cancelGroups (x : CoreState) (tag time : Nat) : CoreState :=
  { x with slots := x.slots.map fun (k, y) =>
      (k, if y.state != .free && y.group.task.ktag == tag && !(y.state == .binding) && !(y.state == .restoring)
          then y.cancel time else y)
           binding := x.binding.filter fun b => match b with
             | .record r _ => r.ktag != tag
             | .saved g _ _ _ => g.task.ktag != tag }

/-- Frees the slots that were binding or restoring for a cancelled kernel. -/
def CoreState.freeBindings (x : CoreState) (tag : Nat) : CoreState :=
  let slots := x.binding.foldl (fun l b => match b with
    | .record r ss => if r.ktag = tag then l ++ ss else l
    | .saved g _ _ k => if g.task.ktag = tag then l ++ [k] else l) ([] : List Nat)
  let ends := x.binding.flatMap fun b => match b with
    | .saved g _ _ _ => if g.task.ktag = tag then g.ends .cancelled else []
    | _ => []
  { x with slots := x.slots.map fun (k, y) => (k, if slots.contains k then {} else y)
           blocks := x.blocks.filter fun b => !slots.contains b.slot
           ends := x.ends ++ ends }

/-- The waits of strands whose groups are no longer on their cores are given up (R215). -/
def State.dropOrphans (s : State) : State :=
  { s with waits := s.waits.filter fun w => match w.who with
      | .strand c u _ =>
        let x := s.core c
        x.slots.any (fun (_, y) => y.state != .free && y.group.uid == u) || x.saved.any (fun v => v.group.uid == u)
          || x.binding.any fun b => match b with
            | .saved g _ _ _ => g.uid == u
            | _ => false
      | _ => true }

/-- The handlers that wait of a kernel that is cancelled are given up (R315). -/
def State.dropHandlers (s : State) (ctx ktag : Nat) : State :=
  let c := s.ctx ctx
  let mine := c.handlers.filter fun x => x.ktag == ktag
  if mine.isEmpty then s
  else mine.foldl (fun s _ => s.liveEnd ktag false) (s.setCtx ctx { c with handlers := c.handlers.filter fun x => x.ktag != ktag })

/-- Cancellation of a kernel that holds an entry (R313, R315). -/
def State.cancelKernel (s : State) (tag : Nat) : State :=
  match s.kernel tag with
  | none => s
  | some k =>
    match k.state with
    | .launching => s.setKernel { k with cancelHeld := true }
    | .draining => s
    | .running =>
      let s := s.setKernel { k with state := .draining, cancelled := true, cancelAt := some s.time }
      let t : State := { s with cores := s.cores.map fun (c, x) =>
          (c, ((x.cancelRecords tag).freeBindings tag).cancelGroups tag s.time) }
      let u := (t.dropOrphans).dropHandlers k.launch.ctx tag
      u.cores.foldl (fun (s : State) (c, x) => x.slots.foldl (fun (s : State) (k, y) =>
        if y.state = .active ∧ y.group.task.ktag = tag then s.cancelPoint c k false else s) s) u

/-- Whether a QUEUED launch of a context is in the regions that a test on its path accepts. -/
def State.launchIn (s : State) (ctx : Nat) (p : List Nat → Bool) (l : Launch) : Bool :=
  let path : List (Nat × Nat) := (s.regionPath ctx l.region).getD [(l.region, 0)]
  l.ctx == ctx && p (path.map fun x => x.1)

/-- Cancels every kernel that a test on context and region path accepts, the QUEUED ones ending at once (R313, R315). -/
def State.cancelWhere (s : State) (ctx : Nat) (p : List Nat → Bool) : State :=
  let queued : List Launch := s.launches.filter (s.launchIn ctx p)
  let rest : List Launch := s.launches.filter fun l => !s.launchIn ctx p l
  let s1 : State := queued.foldl (fun s l => s.launchCancelled l 0) { s with launches := rest }
  let tags : List (Nat × Kernel) := s1.kernels.filter fun x => x.2.launch.ctx == ctx && p x.2.eff.path
  tags.foldl (fun s x => s.cancelKernel x.1) s1

/-- Ends the fault domain of a kernel (R310). -/
def State.endDomain (s : State) (tag : Nat) : State :=
  match s.kernel tag with
  | some k => s.cancelWhere k.launch.ctx fun path => path.contains k.eff.fd
  | none => s

/-! ## The debugger's events (R410) -/

/-- Adds a debugger event; with 64 pending it is dropped and LOST is set (R410). -/
def State.dbgEvent (s : State) (e : DbgEvent) : State :=
  if s.dbgEvents.length < 64 then { s with dbgEvents := s.dbgEvents ++ [e] } else s.setFld .dbgStat 4 4 1

/-- Whether a context is attached to the debugger (R410). -/
def State.attached (s : State) (ctx : Nat) : Bool := (s.reg .dbgAttach).getLsbD ctx

/-! ## Taking a fault (R93 to R95, R324 to R327) -/

/-- What the record of a fault says beside whose it is. -/
structure Flt where
  code : Nat
  kind : Nat := 0
  mask : DWord := 0
  addr : DWord := 0
  info : DWord := 0
deriving DecidableEq, Repr

/-- A kernel's own budgets of tile and accumulator granules: those of its region (R233). -/
def Effective.own (e : Effective) : Nat × Nat := match e.budgets with
  | (t, a, _, _) :: _ => (t, a)
  | [] => (32, 16)

/-- The bytes of a core's own scratchpad region (R169). -/
def State.ownSize (s : State) (c : Nat) : Nat := 2 ^ 20 - 4096 * s.fld (.spadSplit c) 7 0 - 16384 * s.fld (.spadSplit c) 13 8

/-- The 64 bytes of a descriptor of a global pointer, as the task unit of a core reads it. -/
def State.descAt (s : State) (c ctx va : Nat) : Nat :=
  match s.coreTarget c ctx va 64 with
  | some t => ((s.settleAt t 64).readT t 0 64).1
  | none => 0

/-- Whether a record is invalid (R233): its own bytes, or an operand box that passes the core's own region. A descriptor that cannot be read
passes (log entry 125). -/
def State.recInvalid (s : State) (c ctx ktag : Nat) (r : List DWord) : Bool :=
  let (t, a) := (s.eff ktag).own
  recBad r t a || (recOperands r).any fun i =>
    let w := recSlot r i
    decide (s.ownSize c < bits w 63 52 * 256 + descBytes (s.descAt c ctx (bits w 51 6 * 64)))

/-- Whether the descriptors of a record's operands, which its check reads, can be read now (R233, R337). -/
def State.descsReady (s : State) (c ctx : Nat) (r : List DWord) : Bool × State :=
  (recOperands r).foldl (fun (ok, s) i => if ok then s.readReady c ctx (bits (recSlot r i) 51 6 * 64) 64 else (false, s)) (true, s)

/-- The next number for a record, operation or request. -/
def State.fresh (s : State) : Nat × State := (s.nextId, { s with nextId := s.nextId + 1 })

/-- The handler's record, if a handler pointer names a valid one (R327): argument words replaced by the fault record's, the id by the
failed task's or the region's. -/
def State.handlerRec (s : State) (c ctx ktag : Nat) (h : DWord) (r : FaultRec) (seq : Nat) (p : DWord) : Option (List DWord) :=
  if h = 0 then none
  else match s.coreTarget c ctx h.toNat 128 with
    | none => none
    | some t =>
      let words := natWords ((s.settleAt t 128).readT t 0 128).1 16
      if (s.gate t true false (some (coreDie c))).1 = .gone || s.recInvalid c ctx ktag words then none
      else
        let id := p * 0x9E3779B97F4A7C15#64 + 0x100000001#64
        some (recWithId (words.take 8 ++ r.words seq) id)

/-- Places a handler at the head of a core's inbound queue, counted by its kernel (R327). -/
def State.placeHandler (s : State) (c ctx ktag : Nat) (h : DWord) (words : List DWord) : State :=
  let (id, s) := s.fresh
  let x := s.core c
  let r : Rec := { id := id, addr := h, words := words, ctx := ctx, ktag := ktag,
                   det := ((s.kernel ktag).map (·.det)).getD false, pushedAt := s.time, handler := true }
  (s.setCore c { x with inbound := r :: x.inbound }).liveUp ktag

/-- The record of a handler that is missing or invalid (R327): no instruction caused it, and its address is the handler's. -/
def FaultRec.badHandler (r : FaultRec) (h : DWord) : FaultRec :=
  if r.kind = 3 then { r with code := fcRecordInvalid, addr := h }
  else { r with code := fcRecordInvalid, kind := 2, strand := 0xFF, pc := 0, mask := 0, addr := h, info := 0, suppressed := false }

/-- Whether a handler's record and the descriptors of its operands can be read now (R327, R337). -/
def State.handlerReady (s : State) (ctx : Nat) (x : HeldHandler) : Bool × State :=
  if x.ptr = 0 then (true, s)
  else match s.readReady x.core ctx x.ptr.toNat 128 with
    | (false, s) => (false, s)
    | (true, s) =>
      match s.coreTarget x.core ctx x.ptr.toNat 128 with
      | none => (true, s)
      | some t => s.descsReady x.core ctx (natWords ((s.settleAt t 128).readT t 0 128).1 16)

/-- A handler that has been read is placed, or the record of a missing or invalid one is written (R327). -/
def State.handlerRead (s : State) (ctx : Nat) (x : HeldHandler) : State :=
  match s.handlerRec x.core ctx x.ktag x.ptr x.fault x.seq x.id with
  | some words => s.placeHandler x.core ctx x.ktag x.ptr words
  | none => s.writeRecord ctx (x.fault.badHandler x.ptr)

/-- The handler policy acts (R327). A record whose page is not ready is waited for, and its kernel counts it meanwhile (log entry 112). -/
def State.handle (s : State) (ctx : Nat) (x : HeldHandler) : State :=
  match s.handlerReady ctx x with
  | (true, s) => s.handlerRead ctx x
  | (false, s) => let c := s.ctx ctx; (s.setCtx ctx { c with handlers := c.handlers ++ [x] }).liveUp x.ktag

/-- The handlers of a context that waited are looked at again, once their pages may be resident (R327, R337). -/
def State.flushHandlers (s : State) (ctx : Nat) : State :=
  let c := s.ctx ctx
  c.handlers.foldl (fun s x => (s.handle ctx x).liveEnd x.ktag true) (s.setCtx ctx { c with handlers := [] })

/-- The fault record of a group's strand at an address (R95, R324). -/
def State.groupRecord (s : State) (c k strand : Nat) (pc : DWord) (f : Flt) : FaultRec :=
  let t := (s.group c k).task
  { code := f.code, kind := f.kind, core := c, slot := k, strand := strand, region := s.regionOf t.ktag, ktag := t.ktag
    task := t.id, pc := pc, mask := f.mask, addr := f.addr, info := f.info }

/-- The policy that acts on a group's fault (R326, R327). -/
def State.policyOf (s : State) (g : Group) : Nat :=
  let p := if g.task.handler then 0 else (s.eff g.task.ktag).policy
  if p = 2 ∧ !s.attached g.task.ctx then 0 else p

/-- A slot becomes FROZEN for the debugger, or, FROZEN for it already, is so for another cause; the watchdogs' time stands from the first
freeze on (R75, R98). -/
def State.freezeSlot (s : State) (c k : Nat) (cause : FreezeCause) : State :=
  let x := s.slot c k
  (s.setSlot c k { x with state := .frozen, cause := cause, halting := false
                          frozenAt := if x.debugged then x.frozenAt else s.time }).frozenFrom x.group.task.ktag

/-- Freezes a task's group or groups for the debugger (R75, R326): policy 2, with its event about the group that faulted. -/
def State.freezePolicy (s : State) (c k strand code : Nat) : State :=
  let g := s.group c k
  let s := (endSlots g k).foldl (fun s j =>
    if (s.slot c j).state = .active ∨ (s.slot c j).debugged then
      let s := s.freezeSlot c j .policy
      s.setSlot c j { s.slot c j with policyCode := code }
    else s) s
  s.dbgEvent { kind := 2, core := c, slot := k, strand := strand, code := 0, ctx := g.task.ctx }

/-- The fault policy acts on a group whose record, of a sequence number, was written (R326, R327). A group that is not ACTIVE cannot become
FROZEN (R75): policy 0 acts for policy 2 there, unless it is FROZEN for the debugger already (log entry 85). -/
def State.applyPolicy (s : State) (c k : Nat) (r : FaultRec) (seq : Nat) : State :=
  let g := s.group c k
  let h := (s.eff g.task.ktag).handler
  match s.policyOf g with
  | 1 => (s.endTask c k (.failed r.code)).endDomain g.task.ktag
  | 2 =>
    if (s.slot c k).state = .active ∨ (s.slot c k).debugged then s.freezePolicy c k r.strand r.code else s.endTask c k (.failed r.code)
  | 3 =>
    (s.handle g.task.ctx { core := c, ktag := g.task.ktag, ptr := h, fault := r, seq := seq, id := g.task.id }).endTask c k (.failed r.code)
  | _ => s.endTask c k (.failed r.code)

/-- A strand stands at the first word of its hint sequence again: none of its words has had an effect (R60). -/
def Group.unhint (g : Group) (n : Nat) : Group :=
  match Bank.look g.strands n with
  | some x => g.setStrand n { x with hinted := 0, openedAt := none }
  | none => g

/-- The sequence number that a context's next record takes, those that wait for a page counted (R324, R325). -/
def State.nextSeq (s : State) (n : Nat) : Nat := (s.ctx n).seq + (s.ctx n).recsWaiting.length

/-- Taking a fault: its record is written, SUPPRESSED where an earlier fault of the group has met its policy, and the policy
acts on the first alone (R95, R324 to R327). -/
def State.takeFault (s : State) (c k strand : Nat) (pc : DWord) (f : Flt) : State :=
  let g := s.group c k
  let r := { s.groupRecord c k strand pc f with suppressed := g.faulted }
  let seq := s.nextSeq g.task.ctx
  let s := s.writeRecord g.task.ctx r
  let s := s.setGroup c k { (s.group c k).unhint strand with faulted := true }
  if g.faulted then s else s.applyPolicy c k r seq

/-- The return from a fault: the debugger releases a group that policy 2 parked, or one that it halted; it issues on from its PC, which
for a trap is that of the instruction after the trapping one (R94, R113, R326, R410). -/
def State.resume (s : State) (c k : Nat) : State :=
  let x := s.slot c k
  (s.setSlot c k { x with state := .active, cause := .none, halting := false
                          group := { x.group with faulted := false, step := none } }).thaw x.group.task.ktag

/-- A fault of kind region that no task receives (R328). -/
def State.regionFault (s : State) (ctx : Nat) (r : FaultRec) : State := s.writeRecord ctx { r with kind := 3 }

/-! ## Words with waiters, registered lines (R209 to R216) -/

/-- Breaks a line's waiters and writes the record, if there are any (R216). -/
def State.breakLine (s : State) (t : Target) (v : Nat) (b : Breaker) : State :=
  let n := (s.lineWaits t).length
  if n = 0 then s
  else
    let base : Target := ((s.lineAt t).map (·.target)).getD t
    let addr : DWord := match base with
      | .global _ ia _ => BitVec.ofNat 64 ia
      | .csp d o => BitVec.ofNat 64 (4 * 2 ^ 60 + d * 2 ^ 57 + o)
      | _ => 0
    let s := (s.breakWaits t v).bump (.barStat (s.homeOf t).1) 15 0 1
    s.regionFault b.ctx { code := fcBarrierBroken, kind := 3, region := b.region, ktag := b.ktag, addr := addr,
                          info := BitVec.ofNat 64 n }

/-- A 64-bit add to a word at its home (R212, R214, R223): its low 64 bits are written, a wrap on a registered line with waiters
breaks it, and otherwise the waiters that the sum reaches are woken; answers how many. -/
def State.addWord (s : State) (t : Target) (v : Nat) (rel : Option Release) (b : Breaker) : Nat × State :=
  let (old, s) := s.readT t 0 8
  let sum := old + v
  let s := ((s.writeT t 0 8 sum).joinChain t 8 rel).unhide t 8
  if decide (2 ^ 64 ≤ sum) && (s.lineAt t).isSome && !(s.lineWaits t).isEmpty then (0, s.breakLine t (sum % 2 ^ 64) b)
  else s.wakeAt t 8

/-! ## Leases of records (R232, R340) -/

/-- Asks for the lease of a record's extra range, unless it is held or asked for (R238, R340). -/
def State.askLease (s : State) (c : Nat) (r : Rec) : State :=
  match leaseRange (recLease r.words) with
  | none => s
  | some e =>
    if r.leased || s.leaseReqs.any fun q => q.holder == .record c r.id then s
    else
      let (id, s) := s.fresh
      { s with leaseReqs := s.leaseReqs ++ [
        { id := id, holder := .record c r.id, ctx := r.ctx, base := e.base, size := e.size
          pieces := s.spanPieces (s.coreSpans c r.ctx) r.ctx 40 e.base e.size }] }

/-- Whether a record holds the lease of its extra range, if it has one. -/
def Rec.leaseHeld (r : Rec) : Bool := r.leased || (leaseRange (recLease r.words)).isNone

/-- A record's extra lease, or its request, ends (R238). -/
def State.dropLease (s : State) (c : Nat) (id : Nat) : State :=
  { s with leases := s.leases.filter fun e => e.holder != .record c id
           leaseReqs := s.leaseReqs.filter fun q => q.holder != .record c id }

/-! ## The order log (R256 to R258) -/

/-- Whether a replay has met the last entry of a log (R258): each decision met so far has counted one entry, and there is none after them. -/
def State.logOver (s : State) (ctx : Nat) : Bool :=
  let h := s.fld (.ordHead ctx) 31 0
  let a := (s.reg (.ordBase ctx)).toNat + 32 * h
  decide (s.fld (.ordSize ctx) 31 0 * 128 ≤ h)
    || ((s.reach ctx a 32 false).1 != .absent && bits (s.readIA ctx a 32).1 103 96 == 0)

/-- The mode in which a context's order log takes part for deterministic tasks and records: a recording that overflowed has stopped, a
replay that diverged runs free, and one of a log that overflowed runs free after its last entry (R258). -/
def State.replayMode (s : State) (ctx : Nat) : Nat :=
  match Bank.lookD s.ordMode ctx 0 with
  | 1 => if bit (s.reg (.ordCtl ctx)).toNat 2 then 0 else 1
  | 2 => if bit (s.reg (.ordCtl ctx)).toNat 3 || (bit (s.reg (.ordCtl ctx)).toNat 2 && s.logOver ctx) then 0 else 2
  | _ => 0

/-- The mode of the order log for a task. -/
def State.logMode (s : State) (t : TaskInfo) : Nat := if t.det then s.replayMode t.ctx else 0

/-- A replay comes to a decision that the log does not hold (R258). -/
def State.logMissing (s : State) (ctx : Nat) : State := s.setFld (.ordCtl ctx) 3 3 1

/-- A replay's log lies where it is refused: it stops as when full, and the replay runs free (R258, R412). -/
def State.logRefused (s : State) (ctx : Nat) : State := (s.setFld (.ordCtl ctx) 2 2 1).setFld (.ordHead ctx) 31 0 (s.fld (.ordSize ctx) 31 0 * 128)

/-- The 32 bytes of an entry of the order log (R257). -/
def LogEntry.bytes (e : LogEntry) : Nat := wordsNat [e.id, BitVec.ofNat 64 (e.index % 2 ^ 32 + e.kind * 2 ^ 32), e.value, e.addr]

/-- Writes an entry of a context's log; a full log, or one that is refused, stops and sets OVF, and an entry whose place lies on an ABSENT page
waits (R258, R412). -/
def State.logWrite (s : State) (ctx : Nat) (e : LogEntry) : State :=
  let h := s.fld (.ordHead ctx) 31 0
  let a := (s.reg (.ordBase ctx)).toNat + 32 * h
  if bit (s.reg (.ordCtl ctx)).toNat 2 then s
  else if s.fld (.ordSize ctx) 31 0 * 4096 < 32 * h + 32 then s.setFld (.ordCtl ctx) 2 2 1
  else match s.reach ctx a 32 true with
    | (.present, s) => (s.unitStore (.global ctx a false) 32 e.bytes []).setFld (.ordHead ctx) 31 0 (h + 1)
    | (.absent, s) => let c := s.ctx ctx; s.setCtx ctx { c with logWaiting := c.logWaiting ++ [e] }
    | (.refused, s) => s.setFld (.ordCtl ctx) 2 2 1

/-- Appends an entry to a context's log, after those that wait for a page (R257, R412). -/
def State.logAppend (s : State) (ctx : Nat) (id : DWord) (idx kind : Nat) (val addr : DWord) : State :=
  let e : LogEntry := { id := id, index := idx, kind := kind, value := val, addr := addr }
  let c := s.ctx ctx
  if c.logWaiting.isEmpty then s.logWrite ctx e else s.setCtx ctx { c with logWaiting := c.logWaiting ++ [e] }

/-- Writes the log entries that waited, once their page may be resident (R412). -/
def State.flushLog (s : State) (ctx : Nat) : State :=
  let c := s.ctx ctx
  c.logWaiting.foldl (fun s e => if (s.ctx ctx).logWaiting.isEmpty then s.logWrite ctx e
                                 else s.setCtx ctx { s.ctx ctx with logWaiting := (s.ctx ctx).logWaiting ++ [e] })
    (s.setCtx ctx { c with logWaiting := [] })

/-- Everything of a context that waited for a page is tried again, once a page's state has changed (R325, R327, R337, R412). -/
def State.flushHeld (s : State) (ctx : Nat) : State := ((s.flushRecords ctx).flushLog ctx).flushHandlers ctx

/-- How a replay reaches the log of a context: its bytes wait for their pages like any access of the part's own (R412), and what is pending
there settles (R227). -/
def State.logReach (s : State) (ctx : Nat) : Reach × State :=
  let base := (s.reg (.ordBase ctx)).toNat
  let size := s.fld (.ordSize ctx) 31 0 * 4096
  match s.reach ctx base size false with
  | (.present, s) => (.present, s.settleAt (.global ctx base false) size)
  | r => r

/-- The value and address of the first logged entry from index i on that a test on its words accepts; the search ends at an
empty entry or after n entries. -/
def State.logFind (s : State) (ctx : Nat) (p : Nat → Nat → Bool) : Nat → Nat → Option (DWord × DWord)
  | 0, _ => none
  | n + 1, i =>
    let (v, s1) := s.readIA ctx ((s.reg (.ordBase ctx)).toNat + 32 * i) 32
    if bits v 103 96 = 0 then none
    else if p (bits v 63 0) (bits v 103 64) then some (BitVec.ofNat 64 (bits v 191 128), BitVec.ofNat 64 (bits v 255 192))
    else s1.logFind ctx p n (i + 1)

/-- The same, with a test on the value besides. -/
def State.logFindV (s : State) (ctx : Nat) (p : Nat → Nat → Nat → Bool) : Nat → Nat → Option (DWord × DWord)
  | 0, _ => none
  | n + 1, i =>
    let (v, s1) := s.readIA ctx ((s.reg (.ordBase ctx)).toNat + 32 * i) 32
    if bits v 103 96 = 0 then none
    else if p (bits v 63 0) (bits v 103 64) (bits v 191 128) then some (BitVec.ofNat 64 (bits v 191 128), BitVec.ofNat 64 (bits v 255 192))
    else s1.logFindV ctx p n (i + 1)

/-- The same of the entry after k others that the test accepts. -/
def State.logNth (s : State) (ctx : Nat) (p : Nat → Nat → Bool) : Nat → Nat → Nat → Option (DWord × DWord)
  | 0, _, _ => none
  | n + 1, i, k =>
    let (v, s1) := s.readIA ctx ((s.reg (.ordBase ctx)).toNat + 32 * i) 32
    if bits v 103 96 = 0 then none
    else if p (bits v 63 0) (bits v 103 64) then
      (if k = 0 then some (BitVec.ofNat 64 (bits v 191 128), BitVec.ofNat 64 (bits v 255 192)) else s1.logNth ctx p n (i + 1) (k - 1))
    else s1.logNth ctx p n (i + 1) k

/-- The logged entry of a task's decision (R258). -/
def State.logEntry (s : State) (t : TaskInfo) (kind : Nat) : Option (DWord × DWord) :=
  s.logFind t.ctx (fun id x => id == t.id.toNat && x == t.decisions % 2 ^ 32 + kind * 2 ^ 32)
    (s.fld (.ordSize t.ctx) 31 0 * 128) 0

/-- A decision of a task (R256, R258): recorded, or in replay forced to the logged value; the value used, and the state. An
entry that is missing sets DIV. The group's decision count rises, of a quad each group's its own (log entry 123). -/
def State.decideFor (s : State) (c k kind : Nat) (val addr : DWord) : DWord × State :=
  let g := s.group c k
  let s' := s.setGroup c k { g with task := { g.task with decisions := g.task.decisions + 1 } }
  match s.logMode g.task with
  | 1 => (val, s'.logAppend g.task.ctx g.task.id g.task.decisions kind val addr)
  | 2 =>
    match s.logEntry g.task kind with
    | some (v, _) => (v, s'.setFld (.ordHead g.task.ctx) 31 0 (s.fld (.ordHead g.task.ctx) 31 0 + 1))
    | none => (val, s'.logMissing g.task.ctx)
  | _ => (val, if g.task.det then s' else s)

end Sys2Proof.Machine
end

