-- ==== Sys2Proof/Machine/Operands.lean ====
section
/-! DEFINITION. Hint sequences (R60 to R65), source and destination codes (R53 to R56), routes (R63, R151), runs and windows
(R57 to R59), and the shared frame of an issue: the faults in the order of R68, the effect, and retirement. -/
namespace Sys2Proof.Machine

/-! ## Hint sequences -/

/-- The payload of a hint word. -/
def hintPayload : Hint → Nat
  | .run p => p.toNat
  | .ximm p => p.toNat
  | .xrta p => p.toNat
  | .xrtc p => p.toNat
  | .xmod p => p.toNat

/-- The RUN payloads of a sequence. -/
def runsOf (h : List Hint) : List Nat := h.filterMap fun x => match x with | .run p => some p.toNat | _ => none
/-- The XIMM payloads, earliest first. -/
def ximmsOf (h : List Hint) : List Nat := h.filterMap fun x => match x with | .ximm p => some p.toNat | _ => none
/-- The XRTA payloads. -/
def xrtasOf (h : List Hint) : List Nat := h.filterMap fun x => match x with | .xrta p => some p.toNat | _ => none
/-- The XRTC payloads. -/
def xrtcsOf (h : List Hint) : List Nat := h.filterMap fun x => match x with | .xrtc p => some p.toNat | _ => none
/-- The XMOD payloads. -/
def xmodsOf (h : List Hint) : List Nat := h.filterMap fun x => match x with | .xmod p => some p.toNat | _ => none

/-- A non-zero reserved field in a hint word (R61, R63, R64). -/
def hintReserved : Hint → Bool
  | .run p => bits p.toNat 13 0 != 0
  | .xrtc p => bits p.toNat 9 0 != 0
  | .xmod p => bits p.toNat 11 0 != 0
  | _ => false

/-- Whether a RUN word stands elsewhere than first (R60). -/
def runMisplaced : List Hint → Bool
  | [] => false
  | _ :: t => !(runsOf t).isEmpty

/-- Whether a sequence breaks the limits of R60 and R61, or an XMOD the codes that are always reserved (R34, R64). -/
def hintsBad (h : List Hint) : Bool :=
  runMisplaced h || decide (2 < (ximmsOf h).length) || decide (1 < (xrtasOf h).length)
    || decide (1 < (xrtcsOf h).length) || decide (1 < (xmodsOf h).length)
    || (runsOf h).any (fun p => bits p 23 19 == 0 || decide (24 < bits p 23 19))
    || (xmodsOf h).any (fun p => decide (5 ≤ bits p 23 21) || bits p 14 13 == 3)

/-- The XMOD payload of a sequence, all fields default without one (R64). -/
def xmodOf (h : List Hint) : Nat := nth (xmodsOf h) 0
/-- The mode switches of an XMOD payload (R64). -/
def fpModeOf (h : List Hint) : FpMode :=
  let x := xmodOf h
  { mode := bits x 23 21, sat := bit x 20, ftz := bit x 19, nanp := bit x 18 }
/-- wx of a sequence (R64). -/
def wxOf (h : List Hint) : Nat := bits (xmodOf h) 14 13
/-- Whether a sequence selects the 64-bit operation (R64). -/
def isW64 (h : List Hint) : Bool := wxOf h == 1
/-- The scope of a sequence (R64). -/
def scopeOf (h : List Hint) : Nat := bits (xmodOf h) 17 15

/-- The value of imm11 with its XIMM words (R62). -/
def imm11Of (h : List Hint) (imm : Nat) : Int :=
  match ximmsOf h with
  | [] => sx 11 imm
  | [x] => sx 35 (x * 2 ^ 11 + imm)
  | x :: y :: _ => sx 59 (x * 2 ^ 35 + y * 2 ^ 11 + imm)
/-- The value of imm18 with its XIMM words (R62). -/
def imm18Of (h : List Hint) (imm : Nat) : Int :=
  match ximmsOf h with
  | [] => sx 18 imm
  | [x] => sx 42 (x * 2 ^ 18 + imm)
  | x :: y :: _ => sx 64 (x * 2 ^ 42 + y * 2 ^ 18 + imm)
/-- The offset of a format M instruction (R62). -/
def offsetOf (h : List Hint) : Int :=
  match ximmsOf h with
  | [] => 0
  | [x] => sx 24 x
  | x :: y :: _ => sx 48 (x * 2 ^ 24 + y)

/-! ## Forms: what an instruction's sources are and which hints it accepts -/

/-- A source: its place a, b or c as 0, 1 or 2, whether its code is short, the code, and the q register of ra or rb. -/
structure Src where
  pos : Nat
  short : Bool := false
  code : Nat
  q : Nat := 0
deriving DecidableEq, Repr

/-- What an instruction accepts and reads (R51, R65): the XIMM words it takes, the XMOD bits it accepts, whether SR is among its
modes, whether its format takes route hints, its sources and whether they are 64-bit values, its vector destination and the
number of registers it spans (none for no destination), whether XRTC is accepted without a routed source. -/
structure Form where
  ximm : Nat := 0
  xmod : Nat := 0
  sr : Bool := false
  routed : Bool := false
  srcs : List Src := []
  wide : Bool := false
  dest : Option (Nat × Nat) := none
  fillAlways : Bool := false
deriving DecidableEq, Repr

/-- XMOD bits of the rounding field, sat, ftz, nanp, scope, wx = 01 and det (R64). -/
def xmRound : Nat := 0xE00000
/-- The sat bit. -/
def xmSat : Nat := 0x100000
/-- The ftz bit. -/
def xmFtz : Nat := 0x080000
/-- The nanp bit. -/
def xmNanp : Nat := 0x040000
/-- The scope field. -/
def xmScope : Nat := 0x038000
/-- wx = 01. -/
def xmW64 : Nat := 0x002000
/-- wx = 01 and 10: format M. -/
def xmWx : Nat := 0x006000
/-- The det bit. -/
def xmDet : Nat := 0x001000

/-- The inline route spec of a source (R63). -/
def inlineSpec (h : List Hint) (pos : Nat) : Nat :=
  match pos with
  | 0 => bits (nth (xrtasOf h) 0) 23 12
  | 1 => bits (nth (xrtasOf h) 0) 11 0
  | _ => bits (nth (xrtcsOf h) 0) 23 12

/-- Whether a source code may be routed (R63). -/
def Src.routable (x : Src) : Bool :=
  if x.short then decide (x.code ≤ 55) || x.code == 62 else decide (x.code ≤ 71) || x.code == 104 || x.code == 105

/-- Whether a source is routed: an inline spec other than straight, or a q field that is not zero (R63). -/
def Src.isRouted (x : Src) (h : List Hint) : Bool := inlineSpec h x.pos != 0 || x.q != 0

/-- ILLEGAL_HINT of a form (R60 to R65). -/
def Form.hintFault (f : Form) (h : List Hint) : Bool :=
  let x := xmodOf h
  hintsBad h
    || decide (f.ximm < (ximmsOf h).length)
    || x &&& f.xmod != x
    || (bits x 23 21 == 4 && !f.sr)
    || (!f.routed && (!(xrtasOf h).isEmpty || !(xrtcsOf h).isEmpty))
    || (List.range 3).any (fun p => inlineSpec h p != 0 && !(f.srcs.any fun y => y.pos == p && y.q == 0))
    || (!(xrtcsOf h).isEmpty && !f.fillAlways && !(f.srcs.any fun y => y.isRouted h))

/-- Whether a 12-bit spec is reserved (R63). -/
def specBad (x : Nat) : Bool :=
  decide (5 ≤ bits x 11 9) || bits x 8 6 == 7 || (bits x 11 9 == 0 && x != 0)

/-- Whether a value cannot stand in a q register (R150, R156). -/
def qBad (v : Nat) : Bool :=
  decide (5 ≤ bits v 11 9) || bits v 8 6 == 7 || bits v 13 12 == 3 || bits v 15 14 != 0
    || (bits v 11 9 == 0 && bits v 8 0 != 0)

/-- The spec and fill of a source: inline, or its q register's; XRTC's fill replaces both (R63, R150). -/
def Src.route (x : Src) (h : List Hint) (g : Group) : Nat × Nat :=
  let spec := inlineSpec h x.pos
  let q := (g.qreg x.q).toNat
  let fill := match xrtcsOf h with
    | p :: _ => bits p 11 10
    | [] => if spec = 0 then bits q 13 12 else 0
  (if spec = 0 then bits q 11 0 else spec, fill)

/-- ILLEGAL_ROUTE of a form (R63): a reserved spec or fill, or a route on a source that cannot be routed. -/
def Form.routeFault (f : Form) (h : List Hint) (g : Group) : Bool :=
  (xrtcsOf h).any (fun p => bits p 11 10 == 3)
    || (List.range 3).any (fun p => specBad (inlineSpec h p))
    || f.srcs.any fun y => (y.route h g).1 != 0 && !y.routable

/-- The vector register that a source code names, if it names one. -/
def Src.vec (x : Src) : Option Nat :=
  if x.short then (if x.code < 48 then some x.code else none) else if x.code < 64 then some x.code else none
/-- The window entry that a source code names, counted from 1, if it names one. -/
def Src.win (x : Src) : Option Nat :=
  if x.short then (if 48 ≤ x.code ∧ x.code < 56 then some (x.code - 47) else none)
  else if 64 ≤ x.code ∧ x.code < 72 then some (x.code - 63) else none

/-- Whether a vector register is outside the allocation or, as a pair, not even or v62; v63 is exempt (R54, R55). -/
def Group.srcBad (g : Group) (n : Nat) (wide : Bool) : Bool :=
  if n = 63 then false
  else decide (g.nv ≤ n) || (wide && (n % 2 != 0 || n == 62 || decide (g.nv ≤ n + 1)))

/-- Whether a destination of n registers is misaligned, outside the allocation, or a pair at v62; 63 is exempt (R54 to R56). -/
def Group.destBad (g : Group) (d n : Nat) : Bool :=
  if d = 63 then false else d % n != 0 || decide (g.nv < d + n) || (n == 2 && d == 62)

/-- ILLEGAL_OPERAND of a form's sources and destination (R54, R55, R59, R151). -/
def Form.operandFault (f : Form) (h : List Hint) (g : Group) (w : Nat) : Bool :=
  f.srcs.any (fun y =>
      (match y.vec with | some n => g.srcBad n f.wide | none => false)
        || (match y.win with | some n => decide (w < n) | none => false)
        || (let spec := (y.route h g).1
            bits spec 11 9 == 4 && bits spec 5 0 != 63 && decide (g.nv ≤ bits spec 5 0)))
    || (match f.dest with | some (d, n) => g.destBad d n | none => false)

/-! ## The frame of an issue -/

/-- What an instruction sees at issue: where it is, its group and its strand with the run and window it issues in, its hint
words, the cycle counter and the clk source. -/
structure Issue where
  core : Nat
  slot : Nat
  n : Nat
  g : Group
  x : Strand
  h : List Hint
  pc : DWord
  addr : DWord
  clk : DWord
deriving DecidableEq, Repr

/-- The strand as its instruction finds it, its hint words issued: a RUN word closes an open run and opens one, which stands open from the
cycle in which the word issued, and outside a run the window is empty (R57, R59, R60). -/
def Strand.enter (x : Strand) (h : List Hint) (time : Nat) : Strand :=
  match runsOf h with
  | p :: _ =>
    { x with run := some { left := bits p 23 19, gap := bits p 18 15, give := bit p 14, opened := x.openedAt.getD time }
             give := ((x.run.map fun r => r.give).getD x.give), window := [], hinted := 0, openedAt := none }
  | [] => { x with window := if x.run.isNone then [] else x.window, hinted := 0, openedAt := none }

/-- The issue of an instruction with its hint words by the strand that State.cur names. -/
def State.issue (s : State) (h : List Hint) : Option Issue :=
  let c := s.cur.core
  let k := s.cur.slot
  match Bank.look (s.group c k).strands s.cur.strand with
  | none => none
  | some x =>
    let x := x.enter h s.time
    some { core := c, slot := k, n := s.cur.strand, g := (s.group c k).setStrand s.cur.strand x, x := x, h := h
           pc := s.cur.pc, addr := s.cur.addr, clk := BitVec.ofNat 64 (s.cycle s.cur.core) }

/-- An issue after writes of its own: its group no longer reads what they have replaced (R202). -/
def State.reseen (s : State) (i : Issue) : Issue := { i with g := { i.g with unseen := (s.group i.core i.slot).unseen } }

/-- The address of the next instruction. -/
def Issue.next (i : Issue) : DWord := i.addr + 4
/-- The lanes that compute (R115). -/
def Issue.em (i : Issue) : DWord := i.x.em
/-- The group as an agent of memory (R191). -/
def Issue.agent (i : Issue) : Agent := .group i.core i.g.uid

/-- The faults of R68 in their order: reserved fields, hints, routes, operands, and then the instruction's own. operand names
further ILLEGAL_OPERAND conditions and own the faults of step 5. -/
def Issue.fault (i : Issue) (reserved : Bool) (f : Form) (route operand : Bool) (own : Unit → Option Flt) : Option Flt :=
  if reserved || i.h.any hintReserved then some { code := fcIllegalInstruction }
  else if f.hintFault i.h then some { code := fcIllegalHint }
  else if f.routeFault i.h i.g || route then some { code := fcIllegalRoute }
  else if f.operandFault i.h i.g i.x.window.length || operand then some { code := fcIllegalOperand }
  else own ()

/-- Whether a form reads the clk source (R129). -/
def Form.readsClk (f : Form) : Bool := f.srcs.any fun x => !x.short && x.code == 111

/-- The value of clk that an instruction reads (R129, R256): the cycle counter, or, where a deterministic task reads it as a source,
what its decision gives, which the order log keeps as the 32 bits read (R257). An instruction that names clk twice makes one decision (log
entry 88). -/
def State.sampleClk (s : State) (i : Issue) (f : Form) : Issue × State :=
  if f.readsClk && i.g.task.det then
    let (v, s) := s.decideFor i.core i.slot 3 (BitVec.ofNat 64 (i.clk.toNat % 2 ^ 32)) 0
    ({ i with g := { i.g with task := (s.group i.core i.slot).task }, clk := v }, s)
  else (i, s)

/-- Issues an instruction: with no strand it has no meaning; a fault found at issue is taken with no other effect (R93);
otherwise the effect. -/
def perform (h : List Hint) (s : State) (reserved : Bool) (f : Issue → Form) (route operand : Issue → Bool)
    (own : Issue → State → Option Flt) (eff : Issue → State → State) : Host.Outcome State Fault Refusal :=
  match s.issue h with
  | none => .fault .noStrand
  | some i =>
    match i.fault reserved (f i) (route i) (operand i) (fun _ => own i s) with
    | some e => .next (s.takeFault i.core i.slot i.n i.pc e)
    | none => .next (eff (s.sampleClk i (f i)).1 (s.sampleClk i (f i)).2)

/-- The strand after its instruction: the run counts down, and ends with its last instruction or with one that ends runs; its
gap then holds the next run back (R57, R58). It may issue again in the next port cycle, and waits from then on (R87, R380). -/
def Strand.leave (x : Strand) (ends : Bool) (time : Nat) : Strand :=
  match x.run with
  | none => { x with window := [], give := false, since := time + 2, notBefore := time + 2 }
  | some r =>
    if ends || decide (r.left ≤ 1) then
      { x with run := none, window := [], give := r.give, since := time + 2, notBefore := time + 2, gapUntil := time + 2 * (1 + r.gap) }
    else { x with run := some { r with left := r.left - 1 }, since := time + 2, notBefore := time + 2 }

/-- Whether no strand of a group waits (R311). -/
def Group.noneWaits (g : Group) : Bool := g.strands.all fun (_, x) => x.state != .waiting

/-- Retirement: the group with what the instruction wrote, its strand at the next PC, READY, its run counted on; a retirement
with no strand waiting restarts the watchdog (R311). -/
def State.retire (s : State) (i : Issue) (g : Group) (pc : DWord) (ends : Bool) : State :=
  let x := { g.strand i.n with pc := pc, state := .ready }
  let g := g.setStrand i.n (x.leave ends s.time)
  let s := s.setGroup i.core i.slot g
  if g.noneWaits then s.progress g.task.ktag else s

/-- A strand whose next instruction meets a condition that does not hold yet: STALLED, with no other effect (R77). -/
def State.stall (s : State) (i : Issue) : State :=
  let g := s.group i.core i.slot
  s.setGroup i.core i.slot (g.setStrand i.n { g.strand i.n with state := .stalled })

/-! ## Values of sources (R53, R54, R132) -/

/-- The type a source is read in: an integer of w bits; the element type of a code, whose narrow constants stand in every
element of the word; or two values of a 32-bit type, where a constant or special source supplies both (R142). -/
inductive Kind where
  | int (w : Nat)
  | elem (t : Nat)
  | two (t : Nat)
deriving DecidableEq, Repr

/-- Whether a kind reads 64-bit values. -/
def Kind.wide : Kind → Bool
  | .int w => w == 64
  | .elem t => t == 15
  | .two _ => true

/-- The integers of codes 112 to 119 (R53). -/
def constInt (n : Nat) : Int := match n with
  | 112 => 0 | 113 => 1 | 114 => 2 | 115 => 3 | 116 => 4 | 117 => 8 | 118 => 16 | _ => -1

/-- The reals of codes 120 to 127 (R53) to 512 fractional bits, a sticky bit below for the irrational ones. -/
def constReal (n : Nat) : Fl := match n with
  | 120 => .fin false 1 (-1)
  | 121 => .fin false 1 (-2)
  | 122 => .fin true 1 (-1)
  | 123 => .fin false (2 * (2 ^ 1024 / 0xb17217f7d1cf79abc9e3b39803f2f6af40f343267298b62d8a0d175b8baafa2be7b876206debac98559552fb4afa1b10ed2eae35c138214427573b291169b825) + 1) (-513)
  | 124 => .fin false (2 * 0xb17217f7d1cf79abc9e3b39803f2f6af40f343267298b62d8a0d175b8baafa2be7b876206debac98559552fb4afa1b10ed2eae35c138214427573b291169b825 + 1) (-513)
  | 125 => .fin false (2 * 0x3243f6a8885a308d313198a2e03707344a4093822299f31d0082efa98ec4e6c89452821e638d01377be5466cf34e90c6cc0ac29b7c97c50dd3f84d5b5b5470917 + 1) (-513)
  | 126 => .fin false (2 * (2 ^ 1024 / 0x3243f6a8885a308d313198a2e03707344a4093822299f31d0082efa98ec4e6c89452821e638d01377be5466cf34e90c6cc0ac29b7c97c50dd3f84d5b5b5470917) + 1) (-513)
  | _ => .fin false 1 (-8)

/-- The value of a constant code as a number (R53, R132). -/
def constVal (n : Nat) : Val := if n < 120 then .int (constInt n) else .flt (constReal n)

/-- The bits of a constant code in an element type, in every element of the word (R132). -/
def constElem (t n : Nat) : Nat :=
  let ty := Ty.ofCode t
  let v := (convert ty { sat := true } (constVal n)).1
  if ty.slot < 32 then (List.range (32 / ty.slot)).foldl (fun acc i => acc + v * 2 ^ (ty.slot * i)) 0 else v

/-- The bits of a constant code in a kind: in an integer operation the integer, or the real rounded to one; in an element type
the value converted by RNE with saturation and without flags, in every element of the word (R53, R132). -/
def constBits (k : Kind) (n : Nat) : Nat :=
  match k with
  | .int w => if n < 120 then low w (constInt n) else (convert (.int true w) {} (constVal n)).1
  | .elem t => constElem t n
  | .two t => constElem t n * (1 + 2 ^ 32)

/-- A vector register's value in a lane, 32 bits or a pair (R4, R54). -/
def Group.vval (g : Group) (n : Nat) (wide : Bool) (l : Nat) : Nat :=
  if wide then (if n = 63 then 0 else (g.vreg n l).toNat + 2 ^ 32 * (g.vreg (n + 1) l).toNat) else (g.vreg n l).toNat

/-- The special sources 104 to 111 in a lane, as 32-bit numbers (R53). -/
def Issue.special (i : Issue) (n l : Nat) : Nat :=
  (match n with
    | 104 => l
    | 105 => l / 4
    | 106 => i.slot
    | 107 => i.core
    | 108 => coreCluster i.core
    | 109 => coreDie i.core
    | 110 => i.g.task.id.toNat
    | _ => i.clk.toNat) % 2 ^ 32

/-- A source read straight in a lane (R53, R54). -/
def Issue.straight (i : Issue) (y : Src) (k : Kind) (l : Nat) : Nat :=
  let cut (v : Nat) : Nat := if k.wide then v else v % 2 ^ 32
  match y.vec, y.win with
  | some n, _ => i.g.vval n k.wide l
  | _, some n => cut ((i.x.window.getD (n - 1) []).at l).toNat
  | none, none =>
    if y.short then
      (if y.code = 62 then (match k with | .two _ => l * (1 + 2 ^ 32) | _ => l) else if y.code = 63 then 0 else cut (i.g.sreg (y.code - 56)).toNat)
    else if y.code < 104 then cut (i.g.sreg (y.code - 72)).toNat
    else if y.code < 112 then (match k with
      | .two _ => i.special y.code l * (1 + 2 ^ 32)
      | _ => i.special y.code l)
    else constBits k y.code

/-- The lane that a spec names for a reading lane (R151). -/
def routeLane (g : Group) (spec l : Nat) : Nat :=
  let n := 2 ^ bits spec 8 6
  let base := l - l % n
  let p := bits spec 5 0
  match bits spec 11 9 with
  | 0 => l
  | 1 => base + (l - base + p) % n
  | 2 => base + p % n
  | 3 => l ^^^ (p % n)
  | _ => base + (g.vreg p l).toNat % 64 % n

/-- The fill of a source in a lane (R151). -/
def fillOf (fill : Nat) (wide : Bool) (own : Nat) : Nat :=
  match fill with
  | 0 => 0
  | 1 => own
  | _ => if wide then 2 ^ 64 - 1 else 2 ^ 32 - 1

/-- A source's value in a lane through its route (R151, R152). -/
def Issue.src (i : Issue) (y : Src) (k : Kind) (l : Nat) : Nat :=
  let (spec, fill) := y.route i.h i.g
  if spec = 0 then i.straight y k l
  else
    let t := routeLane i.g spec l
    if i.em.getLsbD t then i.straight y k t else fillOf fill k.wide (i.straight y k l)

/-! ## Results (R56, R59) -/

/-- Pushes a window entry, keeping the eight most recent (R59). -/
def Strand.push (x : Strand) (e : Lanes64) : Strand := { x with window := (e :: x.window).take 8 }

/-- Writes a vector result in the lanes of a mask and pushes its window entry: other lanes of the entry hold the destination's
previous value, zero when there is no destination register (R56, R59). -/
def Issue.write (i : Issue) (d : Nat) (wide : Bool) (m : DWord) (f : Nat → Nat) : Group :=
  let entry := Lanes64.of fun l =>
    if m.getLsbD l then BitVec.ofNat 64 (f l) else BitVec.ofNat 64 (if d = 63 then 0 else i.g.vval d wide l)
  let g := i.g.setStrand i.n (i.x.push entry)
  let g := g.setV d m fun l => BitVec.ofNat 32 (f l)
  if wide && d != 63 then g.setV (d + 1) m fun l => BitVec.ofNat 32 (f l / 2 ^ 32) else g

end Sys2Proof.Machine
end

