-- ==== Sys2Proof/Machine/Flags.lean ====
section
/-! DEFINITION. The status bits and trap enables (R39, R94, R130), and the frame of a vector result: the write, the flags of
the active lanes, retirement, and the trap that may follow. -/
namespace Sys2Proof
open Sys2Proof.Machine

/-- Sources a and b of format V (R49). -/
def FmtV.two (f : FmtV) : List Src :=
  [{ pos := 0, code := f.a.toNat, q := f.ra.toNat }, { pos := 1, code := f.b.toNat, q := f.rb.toNat }]
/-- Source a of format V. -/
def FmtV.one (f : FmtV) : List Src := [{ pos := 0, code := f.a.toNat, q := f.ra.toNat }]
/-- Sources a, b and c of format T (R49). -/
def FmtT.three (f : FmtT) : List Src :=
  [{ pos := 0, short := true, code := f.a.toNat }, { pos := 1, short := true, code := f.b.toNat },
   { pos := 2, short := true, code := f.c.toNat }]
/-- Sources a and b of format T. -/
def FmtT.two (f : FmtT) : List Src :=
  [{ pos := 0, short := true, code := f.a.toNat }, { pos := 1, short := true, code := f.b.toNat }]
/-- Source a of format I (R49). -/
def FmtI.one (f : FmtI) : List Src := [{ pos := 0, code := f.a.toNat }]
/-- Sources a and b of format P (R49). -/
def FmtP.two (f : FmtP) : List Src :=
  [{ pos := 0, code := f.a.toNat, q := f.ra.toNat }, { pos := 1, code := f.b.toNat, q := f.rb.toNat }]
/-- Source a of format P. -/
def FmtP.one (f : FmtP) : List Src := [{ pos := 0, code := f.a.toNat, q := f.ra.toNat }]

end Sys2Proof

namespace Sys2Proof.Machine

/-- The trap enables, in the order of the status bits (R130). -/
def Group.enables (g : Group) : Nat := bits g.flags.toNat 14 8
/-- Sets sticky status bits (R39). -/
def Group.raise (g : Group) (fl : Nat) : Group := { g with flags := g.flags ||| BitVec.ofNat 64 fl }

/-- The union of the flags of lanes (R39). -/
def laneFlags (ls : List Nat) (f : Nat → Nat) : Nat := ls.foldl (fun acc l => acc ||| f l) 0

/-- Whether a payload sets a reserved field of its opcode (R51). -/
def reservedSet (op : BitVec 8) (p : BitVec 24) : Bool := p &&& reservedMask op != 0

/-- Completes an instruction that raised flags in lanes of a mask: sticky bits, retirement, and ARITHMETIC where an enable was
set, with the conditions and lanes, at the next instruction (R39, R94, R131). -/
def State.settle (s : State) (i : Issue) (g : Group) (m : DWord) (flags : Nat → Nat) : State :=
  let fl := laneFlags (lanesOf m) flags
  let en := fl &&& i.g.enables
  let s := s.retire i (g.raise fl) i.next false
  if en = 0 then s
  else s.takeFault i.core i.slot i.n i.next
    { code := fcArithmetic, kind := 1, mask := maskOf fun l => m.getLsbD l && flags l &&& en != 0, info := BitVec.ofNat 64 en }

/-- A vector result: destination, whether it is a pair, the lanes written, each lane's value and flags. -/
structure Result where
  d : Nat
  wide : Bool := false
  m : DWord
  val : Nat → Nat
  flags : Nat → Nat := fun _ => 0

/-- Completes a fixed-latency vector instruction (R56, R59, R94, R115). -/
def State.vec (s : State) (i : Issue) (r : Result) : State := s.settle i (i.write r.d r.wide r.m r.val) r.m r.flags

/-- The width of an integer operation (R114). -/
def widthOf (h : List Hint) : Nat := if isW64 h then 64 else 32

/-- The value of source number n of a list of sources in a lane. -/
def Issue.at (i : Issue) (ys : List Src) (n : Nat) (k : Kind) (l : Nat) : Nat := i.src (ys.getD n { pos := 0, code := 112 }) k l

/-- An instruction with no fault of its own, no further route or operand condition. -/
def simple (h : List Hint) (s : State) (op : BitVec 8) (p : BitVec 24) (f : Form) (eff : Issue → State → State) :
    Host.Outcome State Fault Refusal :=
  perform h s (reservedSet op p) (fun _ => f) (fun _ => false) (fun _ => false) (fun _ _ => none) eff

end Sys2Proof.Machine
end

