-- ==== Sys2Proof/Machine/Pointers.lean ====
section
/-! DEFINITION. Tagged pointers (R167): the checks of R168 that an instruction makes at issue, and what a pointer reaches
(R169 to R171, R210, R359, R364). -/
namespace Sys2Proof.Machine

/-! ## Tags (R167) -/

/-- The space of a pointer. -/
def ptrSpace (p : Nat) : Nat := p / 2 ^ 60

/-- Whether a pointer's tag fails step 1 of R168. Only an access with one address for the whole group reads the lane field of
a lane-private pointer; any other needs it zero (R167). -/
def tagBad (p : Nat) (whole : Bool) : Bool :=
  match ptrSpace p with
  | 0 => bits p 59 52 != 0
  | 1 => bits p 59 58 != 0 || (!whole && bits p 57 52 != 0)
  | 2 => bits p 59 20 != 0
  | 3 => bits p 55 20 != 0
  | 4 => bits p 56 26 != 0
  | 5 => bits p 55 48 != 0
  | 6 => false
  | _ => true

/-- The offset field of a pointer. -/
def ptrOffset (p : Nat) : Nat :=
  match ptrSpace p with
  | 2 => bits p 19 0
  | 3 => bits p 19 0
  | 4 => bits p 25 0
  | 5 => bits p 47 0
  | _ => bits p 51 0

/-! ## Spans over a range (R168, R331) -/

/-- Whether every address of a range is mapped, under a table of spans, by a span whose control word a test accepts. -/
def State.spansOk (s : State) (tbl : List Span) (ctx : Nat) (ok : DWord → Bool) : Nat → Nat → Nat → Bool
  | 0, _, n => n == 0
  | fuel + 1, va, n =>
    if n = 0 then true
    else match s.spanIn tbl ctx va with
      | none => false
      | some (_, _, ctl) =>
        let k := min n (spanTurn va tbl - va)
        ok ctl && s.spansOk tbl ctx ok fuel (va + k) (n - k)

/-- What an access asks of its spans: reading, writing (R168, R330). -/
def spanAllows (rd wr : Bool) (ctl : DWord) : Bool := (!rd || ctl.getLsbD 32) && (!wr || ctl.getLsbD 33)

/-! ## On-chip regions (R169, R170) -/

/-- The bytes of a core's shared share (R169). -/
def State.shareSize (s : State) (c : Nat) : Nat := 4096 * s.fld (.spadSplit c) 7 0
/-- The first byte of a core's private pool in its scratchpad (R169). -/
def State.poolBase (s : State) (c : Nat) : Nat := 2 ^ 20 - 16384 * s.fld (.spadSplit c) 13 8
/-- The core at a rank of a core's cluster (R13). -/
def rankCore (c r : Nat) : Nat := c / 16 * 16 + r
/-- The pool place of the lane-private block of a slot (R170). -/
def State.privBase (s : State) (c k : Nat) : Nat :=
  match (s.core c).blocks.find? fun b => b.cls == 4 && b.slot == k with
  | some b => s.poolBase c + 16384 * b.base
  | none => s.poolBase c

/-- Whether a host window accepts an offset range for a context (R364). -/
def State.windowOk (s : State) (ctx n o size : Nat) : Bool :=
  s.fld (.hwCtl n) 39 39 == 1 && s.fld (.hwCtl n) 37 32 == ctx && decide (o + size ≤ 4096 * s.fld (.hwCtl n) 31 0)

/-! ## The checks (R168) -/

/-- Step 3 of R168 for the size bytes at a pointer. -/
def State.mapped (s : State) (c : Nat) (t : TaskInfo) (lc p size : Nat) (rd wr : Bool) : Bool :=
  let o := ptrOffset p
  match ptrSpace p with
  | 0 => s.spansOk (s.coreSpans c t.ctx) t.ctx (spanAllows rd wr) 40 o size
  | 6 => s.spansOk (s.coreSpans c t.ctx) t.ctx (spanAllows rd wr) 40 o size
  | 1 => lc != 0 && decide (o + size ≤ classL lc)
  | 2 => decide (o + size ≤ s.ownSize c)
  | 3 => decide (o + size ≤ s.shareSize (rankCore c (bits p 59 56)))
  | 4 => (s.cspByte t.ctx o size).isSome
  | 5 => s.windowOk t.ctx (bits p 59 56) o size
  | _ => false

/-- What an instruction asks of its pointers: the bytes, the alignment, reading, writing, whether one address serves the
whole group, whether leases are checked, and whether a host window is allowed. -/
structure Ask where
  size : Nat
  align : Nat
  rd : Bool := false
  wr : Bool := false
  whole : Bool := false
  leased : Bool := true
  host : Bool := true
deriving DecidableEq, Repr

/-- The first step of R168 that a pointer fails, 1 to 4; 0 for none. -/
def State.ptrStep (s : State) (c : Nat) (g : Group) (leases : List LeaseRange) (a : Ask) (p : Nat) : Nat :=
  if tagBad p a.whole then 1
  else if p % a.align ≠ 0 then 2
  else if !s.mapped c g.task g.lc p a.size a.rd a.wr || (!a.host && ptrSpace p == 5) then 3
  else if a.leased && ptrSpace p == 0 && !inLeases leases (ptrOffset p) a.size then 4
  else 0

/-- The fault code of a step of R168. -/
def stepCode (n : Nat) : Nat :=
  match n with
  | 1 => fcSpace
  | 2 => fcAlignment
  | 3 => fcPermission
  | _ => fcLeaseRange

/-- The checks of R168 over an instruction's pointers by lane: the first step that fails in any lane, with the lanes that fail
it and, as the address concerned, that of the lowest such lane (log entry 22). -/
def State.ptrFault (s : State) (i : Issue) (a : Ask) (ptrs : List (Nat × Nat)) : Option Flt :=
  let leases := s.leaseSet i.g.task
  let steps := ptrs.map fun (l, p) => (l, p, s.ptrStep i.core i.g leases a p)
  let bad := steps.filter fun (_, _, n) => n != 0
  match bad with
  | [] => none
  | (_, _, n0) :: _ =>
    let n := bad.foldl (fun m (_, _, k) => min m k) n0
    let fails := bad.filter fun (_, _, k) => k == n
    some { code := stepCode n
           mask := if a.whole then i.em else maskOf fun l => fails.any fun (j, _, _) => j == l
           addr := BitVec.ofNat 64 ((fails.head?.map fun (_, p, _) => p).getD 0) }

/-- The checks of R168 for one address of the whole group, with spaces that the instruction allows (R111, R183, R210, R248): a
tag that fails raises SPACE; then, where misalignment comes before it, ALIGNMENT; another valid space raises PERMISSION. -/
def State.oneFault (s : State) (i : Issue) (a : Ask) (p : Nat) (spaces : List Nat) (alignFirst : Bool) : Option Flt :=
  let flt (code : Nat) : Option Flt := some { code := code, mask := i.em, addr := BitVec.ofNat 64 p }
  if spaces.contains (ptrSpace p) then s.ptrFault i { a with whole := true } [(64, p)]
  else if tagBad p true then flt fcSpace
  else if alignFirst && p % a.align != 0 then flt fcAlignment
  else flt fcPermission

/-! ## What a pointer reaches -/

/-- What a pointer that passes R168 reaches, from a lane of a slot's group, through a table of spans (R169 to R171, R331, R359). -/
def State.targetIn (s : State) (tbl : List Span) (c k lane : Nat) (t : TaskInfo) (p : Nat) : Option Target :=
  let o := ptrOffset p
  match ptrSpace p with
  | 1 => some (.priv c (s.privBase c k) lane o)
  | 2 => some (.spad c o)
  | 3 => let r := rankCore c (bits p 59 56); some (.spad r (s.ownSize r + o))
  | 5 => some (.window (bits p 59 56) o)
  | _ => s.ownTargetIn tbl t.ctx p 1

/-- The same through the spans that the core holds now. -/
def State.target (s : State) (c k lane : Nat) (t : TaskInfo) (p : Nat) : Option Target := s.targetIn (s.coreSpans c t.ctx) c k lane t p

/-- What a pointer of the whole group reaches: a lane-private pointer names its lane (R167). -/
def State.wholeTarget (s : State) (c k : Nat) (t : TaskInfo) (p : Nat) : Option Target := s.target c k (bits p 57 52) t p
/-- The same through the spans of an engine's command: those that its core held at its issue (R330). -/
def State.heldTarget (s : State) (tbl : List Span) (c k : Nat) (t : TaskInfo) (p : Nat) : Option Target :=
  s.targetIn tbl c k (bits p 57 52) t p

/-- The port that a peer rank is reached through: the UP ports of its mask (R358). -/
def State.rankPorts (s : State) (r : Nat) : List Nat :=
  (List.range 48).filter fun p => (s.reg (.lnkRoute r)).getLsbD p && (Bank.lookD s.links p {}).state == .up

/-- The port that a packet to a rank takes (R358): h is the hash of the line for an address, and the target core for a record. -/
def State.rankPort (s : State) (r h : Nat) : Option Nat :=
  let ports := s.rankPorts r
  ports[h % ports.length]?

/-- The plane that a target's packets keep on their way to a router (R350, R171, R333). -/
def planeOf (t : Target) (goal : Router) : Nat :=
  match t with
  | .global _ ia _ => homePlane ia
  | .peer _ _ ia => homePlane ia
  | .spad _ o => o / 256 % 4
  | .priv _ pool l o => (pool + 256 * (o / 4) + 4 * l) / 256 % 4
  | .csp _ p => p / 256 % 4
  | .window _ _ => (goal.x + goal.y) % 4

/-- The router at which a target's requests are performed (R171, R198, R333): the home slice, the cache router beneath a
core, the router of a host port; a peer's packets leave at the router of the port that the line's hash names (R358). -/
def State.goalOf (s : State) (t : Target) : Router :=
  match t with
  | .global n ia _ => sliceRouter (s.homeDie n ia) (homeSlice ia)
  | .spad c _ => { coreRouter c with z := 1 }
  | .priv c _ _ _ => { coreRouter c with z := 1 }
  | .csp d b => sliceRouter d (cspSlice b)
  | .window n o => sliceRouter (portDie (s.windowAddr n o).1) 0
  | .peer r _ ia => sliceRouter ((s.rankPort r (homeHash ia)).getD 0 / 6) 0

end Sys2Proof.Machine
end

