-- ==== Sys2Proof/Machine/Requests.lean ====
section
/-! DEFINITION. Accesses on their way: how an instruction posts them and counts them (R92, R195), what orders them (R196 to
R200), the page, lease and barrier rules that they meet at the home (R213, R337, R338, R341), and what each does there. -/
namespace Sys2Proof.Machine

/-! ## Posting an instruction's accesses (R92, R175) -/

/-- The access of a lane, or of the whole group as lane 64, at the core's router, going to its home. -/
def State.access (s : State) (i : Issue) (lane reg p size data cmp : Nat) (t : Target) : Access :=
  { lane := lane, reg := reg, target := t, size := size, data := data, cmp := cmp, place := coreRouter i.core, goal := s.goalOf t
    ptr := BitVec.ofNat 64 p, owners := [.strand i.n] }

/-- What an instruction posts, without its number and accesses. -/
def Issue.op (i : Issue) (ctr : Ctr) (kind : OpKind) (accs : List Access) : MemOp :=
  { id := 0, core := i.core, slot := i.slot, strand := i.n, task := i.g.task.id, pc := i.pc, ctx := i.g.task.ctx, ctr := ctr
    kind := kind, uid := i.g.uid, em := i.em, accs := accs }

/-- Whether an operation is a store or an atomic (R182, R200). -/
def OpKind.writes : OpKind → Bool
  | .store | .atom _ | .amon _ | .det | .cas | .xch => true
  | _ => false
/-- Whether an operation's value returns to registers (R198). -/
def OpKind.returns : OpKind → Bool
  | .load | .atom _ | .cas | .xch | .probe => true
  | _ => false

/-- A counter's new operation, in a group (R92). -/
def Group.count (g : Group) (c : Ctr) (id : Nat) (done : Bool) : Group :=
  { g.setCtr c (g.ctr c + 1) with outst := g.outst ++ [{ id := id, ctr := c, done := done }] }

/-- Where a load's packet goes first (R338): through a span with RME, to the slice of its home's number on the issuing core's die, which serves
it from a replica or forwards it. -/
def Access.near (c : Nat) (a : Access) : Access :=
  match a.target with
  | .global _ ia true => { a with goal := sliceRouter (coreDie c) (homeSlice ia) }
  | _ => a

/-- The number of a scope; 0 is the default, device (R64). -/
def scopeNo (n : Nat) : Nat := if n = 0 then 5 else n
/-- The wider of a scope and of that of a fence whose release write is still to come. -/
def widerScope (x : Option Nat) (n : Nat) : Nat :=
  match x with
  | some m => if scopeNo m < scopeNo n then n else m
  | none => n

/-- Posts an instruction's operation and retires it: its counter rises, or its strand stalls where the counter would reach 64
(R92). An operation without accesses is done at once. A strand's next store or atomic is the release write of its fence
(R200). -/
def State.post (s : State) (i : Issue) (o : MemOp) : State :=
  if 63 ≤ i.g.ctr o.ctr then s.stall i
  else
    let (id, s) := s.fresh
    let x := i.g.strand i.n
    let takes := o.kind.writes && !o.accs.isEmpty
    let g := i.g.count o.ctr id o.accs.isEmpty
    let g := if takes then g.setStrand i.n { x with fenced := none } else g
    let s := if o.accs.isEmpty then s
      else { s with ops := s.ops ++ [{ o with id := id, fence := if takes then x.fenced else none
                                              accs := if o.kind = .load then o.accs.map (Access.near i.core) else o.accs }] }
    s.retire i g i.next false

/-! ## Program order (R195 to R200) -/

/-- The operations issued before one, of the same group. -/
def State.olderOps (s : State) (o : MemOp) : List MemOp :=
  (s.ops.takeWhile fun p => p.id != o.id).filter fun p => p.core == o.core && p.slot == o.slot && p.engine.isNone

/-- Whether two accesses belong to one program order (R196, R199). -/
def Access.ordered (x y : Access) : Bool := x.owners.any fun w => y.owners.contains w

/-- The numbers of the locations of an access (R192). -/
def State.locs (s : State) (a : Access) : List Nat := s.locsOf a.target a.size

/-- Whether two accesses touch a common location. -/
def State.meets (s : State) (x y : Access) : Bool := let l := s.locs y; (s.locs x).any fun k => l.contains k

/-- Whether the bytes at an intermediate address lie in a virtual range of a context, through any span of a core's table. -/
def State.rangeHolds (s : State) (tbl : List Span) (ctx va size ia : Nat) : Bool :=
  tbl.any fun (base, ib, _) =>
    let v := base + (ia - ib)
    decide (ib ≤ ia) && decide (va ≤ v) && decide (v < va + size) &&
      (match s.spanIn tbl ctx v with | some (_, ja, _) => ja == ia | none => false)

/-- The first and last line bytes of the range that CINV or CWB acts on (R183). -/
def lineRange (va size : Nat) : Nat × Nat :=
  let first := va / 128 * 128
  (first, (va + size + 127) / 128 * 128 - first)

/-- Whether a cache operation covers an access's location. -/
def State.cacheMeets (s : State) (o : MemOp) (a : Access) : Bool :=
  match a.target with
  | .global c ia _ =>
    let (va, n) := lineRange (o.words.getD 0 0).toNat (o.words.getD 1 0).toNat
    c == o.ctx && s.rangeHolds o.spans c (va % 2 ^ 60) n ia
  | _ => false

/-- Whether access x of operation p and access y of operation o touch one location. -/
def State.opMeets (s : State) (p : MemOp) (x : Access) (o : MemOp) (y : Access) : Bool :=
  match p.kind, o.kind with
  | .cache _, .cache _ => true
  | .cache _, _ => s.cacheMeets p y
  | _, .cache _ => s.cacheMeets o x
  | _, _ => s.meets x y

/-- Whether an operation waits until every earlier access of its strand is acknowledged: a release, the release write of a
fence, EVENT, PUBLISH (R200, R329, R365). -/
def MemOp.waitsAll (o : MemOp) : Bool := o.release || o.fence.isSome || o.kind == .event || o.kind == .publish

/-- Whether an acquire older than an access has accesses not yet performed. -/
def State.acquireOpen (s : State) (o : MemOp) (a : Access) : Bool :=
  (s.olderOps o).any fun p => p.acquire && p.accs.any fun x => x.ordered a && !x.performed

/-- Whether program order lets an access be performed now, those of its own packet aside (R195 to R200): no older access of its program order
to the same location is outstanding; a release finds every older access completed; behind an acquire only a plain load may be performed early.
The lanes of one store that write one location are performed in lane order (R177). -/
def State.orderBut (s : State) (packet : List (Nat × Nat)) (o : MemOp) (n : Nat) (a : Access) : Bool :=
  (s.olderOps o).all (fun p => p.accs.zipIdx.all fun (x, m) =>
      packet.contains (p.id, m) || !x.ordered a || (!(!x.performed && s.opMeets p x o a) && !(o.waitsAll && !x.completed)
        && !(p.acquire && !x.performed && !(o.kind == .load && !o.acquire))))
    && (o.kind != .store || (o.accs.take n).all fun x => x.performed || !s.meets x a)

/-- The same of an access that stands alone. -/
def State.orderOk (s : State) (o : MemOp) (n : Nat) (a : Access) : Bool := s.orderBut [] o n a

/-- Whether a packet may leave its group (R200): a release leaves it only once every access ordered before it has been acknowledged. -/
def State.mayLeave (s : State) (o : MemOp) (a : Access) : Bool :=
  !o.waitsAll || (s.olderOps o).all fun p => p.accs.all fun x => !x.ordered a || x.completed

/-- Whether an access may be performed now: its packet is at its home, and program order lets it. -/
def State.mayPerform (s : State) (o : MemOp) (n : Nat) (a : Access) : Bool :=
  !a.performed && a.carrier.isNone && a.place == a.goal && s.orderOk o n a

/-- Changes one access of an operation. -/
def State.onAccess (s : State) (id n : Nat) (f : Access → Access) : State :=
  { s with ops := s.ops.map fun o => if o.id = id then { o with accs := o.accs.modify n f } else o }

/-- Whether a load stands in the program order of an access, performed before an older acquire of it and not completed. -/
def Access.stillEarly (x a : Access) : Bool := x.early && x.ordered a && !x.completed

/-- The locations of the loads behind an operation, in the program order of its access, that a newer value has passed, with their numbers. -/
def State.passedLocs (s : State) (o : MemOp) (a : Access) : List (Nat × List Nat) :=
  (s.ops.filter fun p => decide (o.id < p.id) && p.core == o.core && p.slot == o.slot).flatMap fun p =>
    (p.accs.filter fun x => x.stillEarly a && x.passed).map fun x => (p.id, s.locs x)

/-- Loads of an acquire's program order that were performed before it are performed again (R196, R200 to R202): all of them, or those that a
newer value has passed, and with each of these the later ones of its location (R197). -/
def State.redoEarly (s : State) (o : MemOp) (a : Access) (all : Bool) : State :=
  let old := s.passedLocs o a
  { s with ops := s.ops.map fun p =>
      if decide (o.id < p.id) && p.core == o.core && p.slot == o.slot then
        { p with accs := p.accs.map fun x =>
            if x.stillEarly a && (all || x.passed || old.any fun (id, ls) => decide (id < p.id) && (s.locs x).any ls.contains) then
              { x with performed := false, early := false, passed := false, value := 0 }
            else x }
      else p }

/-- An acquire or FENCE of any scope (R203): the group sees what its retired commands have written. -/
def Group.acquired (g : Group) : Group := { g with unseen := g.unseen.filter fun (_, op, _) => g.outst.any fun x => x.id == op }

/-- An acquire of a group at a scope that reads a value with its releases (R194, R203): where it synchronises with one of them the group sees
everything that its engines have written, and else what its retired commands have. -/
def Group.acquireOf (g : Group) (core scope : Nat) (rs : List Release) : Group :=
  if rs.any fun r => r.includes (.group core g.uid) scope then { g with unseen := [] } else g.acquired

/-- An acquire is performed (R194, R196, R200 to R203): where it synchronises, no load of its strand stays performed before it; otherwise only
those that a newer value has passed are performed again. -/
def State.acquires (s : State) (o : MemOp) (a : Access) : State :=
  if o.acquire then
    let rs := s.releasesAt a.target a.size
    let g := s.group o.core o.slot
    ((s.setGroup o.core o.slot (g.acquireOf o.core o.scope rs)).redoEarly o a
      (rs.any fun r => r.includes (.group o.core g.uid) o.scope)).overtakes a.target a.size o.core o.uid
  else s

/-- A read of a group remembers the releases of the value it returns, for the fence that it may be followed by (R200). -/
def State.hears (s : State) (o : MemOp) (a : Access) : State :=
  let rs := s.releasesAt a.target a.size
  if rs.isEmpty then s
  else
    let g := s.group o.core o.slot
    s.setGroup o.core o.slot { g with heard := g.heard ++ rs.filter fun r => !g.heard.contains r }

/-- A write or an atomic of a group: what the group has seen of the location is no older any more (R197). -/
def State.sees (s : State) (o : MemOp) (a : Access) : State :=
  let g := s.group o.core o.slot
  if g.unseen.isEmpty then s
  else
    let ls := s.locs a
    s.setGroup o.core o.slot { g with unseen := g.unseen.filter fun (l, _) => !ls.contains l }

/-- What a load returns where memory holds a value (R203): of a byte that an engine of its group wrote, and that the group has not yet
acquired, the byte from before or the new one, which it then sees for good (R197). -/
def State.seen (s : State) (o : MemOp) (a : Access) (v : Nat) : Nat × State :=
  let g := s.group o.core o.slot
  if g.unseen.isEmpty then (v, s)
  else
    let byte (acc : Nat × State) (j : Nat) : Nat × State :=
      let (v, s) := acc
      let l := s.loc a.target j
      match Bank.look (s.group o.core o.slot).unseen l with
      | none => acc
      | some (_, old) =>
        let s' := { s with draws := s.draws + 1 }
        if Config.choice s.draws then
          (v - (byteOf v j).toNat * 2 ^ (8 * j) + old.toNat * 2 ^ (8 * j), s')
        else
          let h := s'.group o.core o.slot
          (v, s'.setGroup o.core o.slot { h with unseen := Bank.drop h.unseen l })
    (List.range a.size).foldl byte (v, s)

/-- The slot on which a group runs, by its number as an agent, on a core. -/
def State.slotOfGroup (s : State) (c uid : Nat) : Option Nat :=
  (List.range 32).find? fun k =>
    let x := s.slot c k
    (x.state == .active || x.state == .frozen || x.state == .saving || x.state == .draining) && x.group.uid == uid

/-- Marks an operation done in its group once every access has completed, and forgets it (R92, R198). -/
def State.finishOp (s : State) (id : Nat) : State :=
  match s.ops.find? fun o => o.id == id with
  | none => s
  | some o =>
    if o.engine.isSome then (if o.accs.all (·.completed) then { s with ops := s.ops.filter fun p => p.id != id } else s)
    else if o.accs.all (·.completed) then
      let g := s.group o.core o.slot
      let outst := g.outst.map fun x => if x.id = id then { x with done := true } else x
      { s.setGroup o.core o.slot { g with outst := outst } with ops := s.ops.filter fun p => p.id != id }
    else s

/-! ## Faults at the memory side (R95) -/

/-- The failing lanes that a fault of an access names (R168, R324): its lane, or all of its instruction's. -/
def MemOp.lanesOf (o : MemOp) (a : Access) : DWord := if a.lane < 64 && !a.whole then 1#64 <<< a.lane else o.em

/-- An access that meets a fault at the memory side: its record and policy, naming the instruction that issued it; the access
itself is over. -/
def State.accessFault (s : State) (o : MemOp) (n : Nat) (a : Access) (code : Nat) : State :=
  let s := s.onAccess o.id n fun x => { x with performed := true, completed := true, held := false }
  let s := s.takeFault o.core o.slot o.strand o.pc
    { code := code, kind := 2, mask := o.lanesOf a, addr := a.ptr }
  s.finishOp o.id

/-- A barrier add of a copy command that meets a fault at its home (R95, R189): its task's, while that still runs, and else a record of kind
region; a list that no task issued sets ERR, and finds a page without a lease as PERMISSION. -/
def State.engineFault (s : State) (o : MemOp) (n : Nat) (a : Access) (b : Breaker) (code : Nat) : State :=
  let s := s.onAccess o.id n fun x => { x with performed := true, completed := true, held := false }
  let runs (k : Nat) : Bool := (s.group o.core k).task.id == o.task
  let s := match (if o.slot = 64 then none else (s.slotOfGroup o.core o.uid).filter runs) with
    | some k => s.takeFault o.core k o.strand o.pc { code := code, kind := 2, mask := o.em, addr := a.ptr }
    | none =>
      let s := if o.slot = 64 then s.setFld (.cpeStat o.core) 1 1 1 else s
      s.regionFault o.ctx { code := if code = fcLeaseExpired then fcPermission else code, kind := 3, core := o.core, region := b.region
                            ktag := b.ktag, addr := a.ptr }
  s.finishOp o.id

/-- The same of any access. -/
def State.homeFault (s : State) (o : MemOp) (n : Nat) (a : Access) (code : Nat) : State :=
  match o.engine with
  | some b => s.engineFault o n a b code
  | none => s.accessFault o n a code

/-! ## What an access does at its home -/

/-- The releases that an operation's write carries (R200). -/
def MemOp.releases (o : MemOp) : List Release :=
  if o.engine.isSome then [{ agent := .copy o.core, scope := o.scope, always := true }]
  else (if o.release then [{ agent := .group o.core o.uid, scope := o.scope }] else [])
    ++ (match o.fence with | some n => [{ agent := .group o.core o.uid, scope := n }] | none => [])

/-- An access has been performed, with the value it read. -/
def State.performed (s : State) (o : MemOp) (n : Nat) (v : Nat) (early : Bool) : State :=
  s.onAccess o.id n fun x => { x with performed := true, early := early, held := false, value := v }

/-- The value that an atomic leaves (R219, R221). -/
def combine (k : OpKind) (size old x cmp : Nat) : Nat :=
  let w := 8 * size
  let op (n : Nat) : Nat :=
    match n with
    | 0 => (old + x) % 2 ^ w
    | 1 => homeFadd size old x
    | 2 => old &&& x
    | 3 => old ||| x
    | 4 => if sx w x < sx w old then x else old
    | 5 => if sx w old < sx w x then x else old
    | 6 => min old x
    | _ => max old x
  match k with
  | .atom n => op n
  | .amon n => op n
  | .xch => x
  | .cas => if old = cmp then x else old
  | _ => old

/-- Whether a registered line permits an atomic (R213): 64-bit add or nmax to bytes 0 to 7. -/
def atomPermitted (k : OpKind) (size byte : Nat) : Bool :=
  size == 8 && byte == 0 && (match k with
    | .atom 0 | .atom 7 | .amon 0 | .amon 7 => true
    | _ => false)

/-- A performed store: the bytes, the new chain, the waiters (R202, R204, R215). -/
def State.storeVia (s : State) (t : Target) (p : Option Place) (n v : Nat) (rel : List Release) : State :=
  let s := match p with
    | some q => s.putPlace q n v
    | none => s.writeT t 0 n v
  (((s.tagRelease t n rel).unhide t n).wakeAt t n).2

/-- The bytes an access reads. -/
def State.readVia (s : State) (t : Target) (p : Option Place) (n : Nat) : Nat :=
  match p with
  | some q => s.readPlace q n
  | none => (s.readT t 0 n).1

/-- Who breaks a barrier when a group's instruction does (R216). -/
def State.groupBreaker (s : State) (t : TaskInfo) : Breaker := { ctx := t.ctx, region := s.regionOf t.ktag, ktag := t.ktag }

/-- An atomic at its home, as one indivisible step (R204, R212, R214, R219, R221): the value before it, and the state. -/
def State.atomicVia (s : State) (o : MemOp) (a : Access) (p : Option Place) : Nat × State :=
  let old := s.readVia a.target p a.size
  let new := combine o.kind a.size old a.data a.cmp
  let isAdd := o.kind == .atom 0 || o.kind == .amon 0
  let changes := !(o.kind == .cas && old != a.cmp)
  let s1 := if changes then
      (match p with
        | some q => s.putPlace q a.size new
        | none => s.writeT a.target 0 a.size new)
    else s
  let s2 := if changes then (o.releases.foldl (fun s r => s.joinChain a.target a.size (some r)) s1).unhide a.target a.size else s1
  if isAdd && a.size == 8 && decide (2 ^ 64 ≤ old + a.data) && (s.lineAt a.target).isSome
      && !(s.lineWaits a.target).isEmpty then
    (old, s2.breakLine a.target new (o.engine.getD (s.groupBreaker (s.group o.core o.slot).task)))
  else (old, if changes then (s2.wakeAt a.target a.size).2 else s2)

/-- The answer to a peer: a value, and a fault code or 0. -/
def State.peerReply (s : State) (rank : Nat) (v : DWord) (code : Nat) : State :=
  { s with hostData := Bank.put (Bank.put s.hostData (256 + rank) v) (512 + rank) (BitVec.ofNat 64 code) }

/-! ## The completion of a future (R235, R236) -/

/-- The state code of an ending (R235). -/
def Ending.status : Ending → Nat
  | .done => 1
  | .failed code => 2 + code * 2 ^ 16
  | .cancelled => 3
  | .relaunch => 0

/-- How the task unit of a core finds a future's line, as one of the accesses of its task (R236, R337 to R341): its page, made ready for a
write. -/
def State.futureGate (s : State) (c ctx p : Nat) : Option Target × Gate × State :=
  match s.coreTarget c ctx p 128 with
  | none => (none, .gone, s)
  | some (.peer r n ia) => (some (.peer r n ia), .go none, s)
  | some t => let (g, s) := s.gate t true true (some (coreDie c)); (some t, g, s)

/-- Whether a future's line can be reached now; a page that is not ready is waited for (R337 to R339). -/
def State.futureReady (s : State) (c ctx p : Nat) : Bool × State :=
  match s.futureGate c ctx p with
  | (_, .wait, s) => (false, s)
  | (_, _, s) => (true, s)

/-- A target some bytes on. -/
def Target.plus : Target → Nat → Target
  | .global n ia r, o => .global n (ia + o) r
  | .spad c b, o => .spad c (b + o)
  | .priv c p l b, o => .priv c p l (b + o)
  | .csp d b, o => .csp d (b + o)
  | .window n b, o => .window n (b + o)
  | .peer r n ia, o => .peer r n (ia + o)

/-- A write of the task unit to a future on a peer part: with no port up a LINK_DOWN record says that it is lost (R360, log entry 21). -/
def State.futureDown (s : State) (rank c ctx ktag p : Nat) : State :=
  if (s.rankPorts rank).isEmpty then
    s.regionFault ctx { code := fcLinkDown, kind := 3, core := c, region := s.regionOf ktag, ktag := ktag, addr := BitVec.ofNat 64 p }
  else s

/-- Completes a future: status, summary, the add that wakes its waiters, their number (R236 steps 2 and 3); every byte of the summary is
written (R237). A future that no span maps, or whose page is gone, is not written (log entry 21); one on a peer that no port reaches leaves a
LINK_DOWN record (R360). Of a quad the summary names its first slot (log entry 122). -/
def State.completeFuture (s : State) (c slot : Nat) (t : TaskInfo) (e : Ending) : State :=
  match s.futureGate c t.ctx (recFuture t.record) with
  | (some (.peer r _ _), _, s) => s.futureDown r c t.ctx t.ktag (recFuture t.record)
  | (some f, .go _, s) =>
    let s := s.unitStore (f.plus 8) 8 e.status []
    let s := s.unitStore (f.plus 64) 64 (c + slot * 2 ^ 16 + 2 ^ 64 * (s.cycle c % 2 ^ 64)) []
    let (n, s) := (s.settleAt f 8).addWord f 1 (some { agent := .task c, scope := 6 })
      { ctx := t.ctx, region := s.regionOf t.ktag, ktag := t.ktag }
    s.unitStore (f.plus 80) 8 n []
  | (_, _, s) => s

end Sys2Proof.Machine
end

