-- ==== Sys2Proof/Machine/Access.lean ====
section
/-! DEFINITION. Row 0x9: loads, stores, boxes, fences and cache maintenance (R172 to R183). -/
namespace Sys2Proof.Machine

/-! ## Operands of format M (R52, R175) -/

/-- Whether an ord code acquires or releases (R52). -/
def ordSyncs (ord : Nat) : Bool := ord == 1 || ord == 3

/-- The XMOD bits of a format M instruction: a scope goes with an acquire or a release only (R175). -/
def memXmod (ord extra : Nat) : Nat := (if ordSyncs ord then xmScope else 0) ||| extra

/-- Whether an index register breaks R54, R55 or R175 under a wx code. -/
def Group.indexBad (g : Group) (h : List Hint) (index : Nat) : Bool := g.srcBad index (wxOf h == 1)

/-- A lane's index (R52, R64). -/
def Group.index (g : Group) (h : List Hint) (index l : Nat) : Nat :=
  match wxOf h with
  | 1 => g.vval index true l
  | 2 => low 64 (sx 32 (g.vreg index l).toNat)
  | _ => (g.vreg index l).toNat

/-- A lane's address (R52). -/
def Issue.addrOf (i : Issue) (base index : Nat) (l : Nat) : Nat :=
  ((i.g.sreg base).toNat + i.g.index i.h index l + low 64 (offsetOf i.h)) % 2 ^ 64
/-- The one address of the whole group: base and offset (R177, R178). -/
def Issue.addrAll (i : Issue) (base : Nat) : Nat := ((i.g.sreg base).toNat + low 64 (offsetOf i.h)) % 2 ^ 64

/-- The pointers of the active lanes. -/
def Issue.lanePtrs (i : Issue) (base index : Nat) : List (Nat × Nat) := (lanesOf i.em).map fun l => (l, i.addrOf base index l)

/-- Bytes of a width code of a lane (R52). -/
def widthBytes (w : Nat) : Nat := 2 ^ w
/-- Registers of a width code (R52, R177). -/
def widthRegs (w : Nat) : Nat := match w with | 3 => 2 | 4 => 4 | _ => 1

/-- One access per part of a lane's element: a quad in its two aligned halves (R192). -/
def halves (w : Nat) : List (Nat × Nat) := if w = 4 then [(0, 8), (2, 8)] else [(0, widthBytes w)]

/-- The value that a store takes from a lane's registers. -/
def Group.data (g : Group) (d reg size l : Nat) : Nat :=
  if d = 63 then 0
  else if size = 8 then (g.vreg (d + reg) l).toNat + 2 ^ 32 * (g.vreg (d + reg + 1) l).toNat
  else (g.vreg (d + reg) l).toNat % 2 ^ (8 * size)

/-- Accesses at the pointers of lanes, each in its parts. -/
def State.laneAccs (s : State) (i : Issue) (w : Nat) (ptrs : List (Nat × Nat)) (data : Nat → Nat → Nat → Nat) : List Access :=
  ptrs.flatMap fun (l, p) => (halves w).filterMap fun (reg, size) =>
    (s.target i.core i.slot l i.g.task (p + 4 * reg)).map fun t => s.access i l reg (p + 4 * reg) size (data reg size l) 0 t

/-- Accesses to rows of 256 bytes, four bytes to a lane (R177, R179): lane 65 + l stands for a lane that is read and not
written. -/
def State.rowAccs (s : State) (i : Issue) (p rows : Nat) (lanes : List Nat) (data : Nat → Nat) : List Access :=
  (List.range rows).flatMap fun r => lanes.filterMap fun l =>
    let q := p + 256 * r + 4 * l
    (s.wholeTarget i.core i.slot i.g.task q).map fun t =>
      { s.access i (if i.em.getLsbD l then l else 65 + l) r q 4 (data l) 0 t with whole := true }

/-- The acquire of a load (R176). -/
def MemOp.acquiring (o : MemOp) (h : List Hint) (ord : Nat) : MemOp := { o with acquire := ordSyncs ord, scope := scopeOf h }
/-- The release of a store (R176). -/
def MemOp.releasing (o : MemOp) (h : List Hint) (ord : Nat) : MemOp := { o with release := ordSyncs ord, scope := scopeOf h }

/-! ## LD and ST (R177) -/

/-- The check of R168 that LD and ST ask for. -/
def laneAsk (w : Nat) (rd wr : Bool) : Ask :=
  if w = 5 then { size := 256, align := 256, rd := rd, wr := wr, whole := true }
  else { size := widthBytes w, align := widthBytes w, rd := rd, wr := wr }

/-- The pointers of LD and ST: one of the whole group for width 256. -/
def Issue.ldPtrs (i : Issue) (f : FmtM) : List (Nat × Nat) :=
  if f.width.toNat = 5 then (if i.em = 0 then [] else [(64, i.addrAll f.base.toNat)])
  else i.lanePtrs f.base.toNat f.index.toNat

/-- The form of LD and ST. -/
def ldForm (f : FmtM) : Form := { ximm := 2, xmod := memXmod f.ord.toNat xmWx }

/-- The operand conditions that LD and ST share: codes, index, registers (R52, R55, R175, R177). -/
def Issue.ldBad (i : Issue) (f : FmtM) : Bool :=
  decide (5 < f.width.toNat) || decide (3 < f.ord.toNat)
    || (f.width.toNat != 5 && i.g.indexBad i.h f.index.toNat)
    || i.g.destBad f.d.toNat (widthRegs f.width.toNat)

/-- Whether width 256 finds a non-zero index field, which it reserves (R175). -/
def indexReserved (f : FmtM) : Bool := f.width == 5 && f.index != 0

/-- LD (R177). -/
def execLd (h : List Hint) (f : FmtM) (s : State) : Host.Outcome State Fault Refusal :=
  let w := f.width.toNat
  perform h s (reservedSet 0x90 f.payload || indexReserved f) (fun _ => ldForm f) (fun _ => false)
    (fun i => i.ldBad f || f.d == 63) (fun i s => s.ptrFault i (laneAsk w true false) (i.ldPtrs f)) fun i s =>
    let accs := if w = 5 then (if i.em = 0 then [] else s.rowAccs i (i.addrAll f.base.toNat) 1 allLanes fun _ => 0)
      else s.laneAccs i w (i.ldPtrs f) fun _ _ _ => 0
    s.post i ({ i.op .ld .load accs with dest := .vec f.d.toNat (widthRegs w) }.acquiring h f.ord.toNat)

/-- ST (R177). -/
def execSt (h : List Hint) (f : FmtM) (s : State) : Host.Outcome State Fault Refusal :=
  let w := f.width.toNat
  perform h s (reservedSet 0x91 f.payload || indexReserved f) (fun _ => ldForm f) (fun _ => false)
    (fun i => i.ldBad f) (fun i s => s.ptrFault i (laneAsk w false true) (i.ldPtrs f)) fun i s =>
    let accs := if w = 5 then (if i.em = 0 then [] else
        s.rowAccs i (i.addrAll f.base.toNat) 1 (lanesOf i.em) fun l => i.g.data f.d.toNat 0 4 l)
      else s.laneAccs i w (i.ldPtrs f) fun reg size l => i.g.data f.d.toNat reg size l
    s.post i ((i.op .st .store accs).releasing h f.ord.toNat)

/-! ## LDU and STU (R178) -/

/-- The operand conditions of LDU and STU. -/
def lduBad (f : FmtM) : Bool := decide (3 < f.width.toNat) || decide (3 < f.ord.toNat)
/-- The one access of LDU and STU. -/
def State.uniAcc (s : State) (i : Issue) (p size data : Nat) : List Access :=
  ((s.wholeTarget i.core i.slot i.g.task p).map fun t => s.access i 64 0 p size data 0 t).toList
/-- What LDU and STU ask of their address. -/
def uniAsk (w : Nat) (rd wr : Bool) : Ask := { size := widthBytes w, align := widthBytes w, rd := rd, wr := wr, whole := true }

/-- LDU (R178). -/
def execLdu (h : List Hint) (f : FmtM) (s : State) : Host.Outcome State Fault Refusal :=
  let w := f.width.toNat
  let p (i : Issue) := i.addrAll f.base.toNat
  perform h s (reservedSet 0x92 f.payload) (fun _ => { ximm := 2, xmod := memXmod f.ord.toNat 0 }) (fun _ => false)
    (fun _ => lduBad f) (fun i s => s.ptrFault i (uniAsk w true false) [(64, p i)]) fun i s =>
    s.post i ({ i.op .ld .load (s.uniAcc i (p i) (widthBytes w) 0) with dest := .uni f.d.toNat }.acquiring h f.ord.toNat)

/-- STU (R178). -/
def execStu (h : List Hint) (f : FmtM) (s : State) : Host.Outcome State Fault Refusal :=
  let w := f.width.toNat
  let p (i : Issue) := i.addrAll f.base.toNat
  perform h s (reservedSet 0x93 f.payload) (fun _ => { ximm := 2, xmod := memXmod f.ord.toNat 0 }) (fun _ => false)
    (fun _ => lduBad f) (fun i s => s.ptrFault i (uniAsk w false true) [(64, p i)]) fun i s =>
    let v := (i.g.sreg f.d.toNat).toNat % 2 ^ (8 * widthBytes w)
    s.post i ((i.op .st .store (s.uniAcc i (p i) (widthBytes w) v)).releasing h f.ord.toNat)

/-! ## LDLN (R179) -/

/-- Whether n rows of LDLN break R55 and R179 from vD on: a multiple of n, all in the allocation. -/
def Group.rowsBad (g : Group) (d n : Nat) : Bool := d % n != 0 || decide (g.nv < d + n)

/-- LDLN: 2^k rows of 256 bytes into as many registers (R179). -/
def execLdln (h : List Hint) (f : FmtM) (s : State) : Host.Outcome State Fault Refusal :=
  let n := 2 ^ f.width.toNat
  let p (i : Issue) := i.addrAll f.base.toNat
  perform h s (reservedSet 0x94 f.payload) (fun _ => { ximm := 2, xmod := memXmod f.ord.toNat 0 }) (fun _ => false)
    (fun i => decide (3 < f.width.toNat) || decide (3 < f.ord.toNat) || f.d == 63 || i.g.rowsBad f.d.toNat n)
    (fun i s => s.ptrFault i { size := 256 * n, align := 256, rd := true, whole := true } [(64, p i)]) fun i s =>
    let accs := s.rowAccs i (p i) n allLanes fun _ => 0
    s.post i ({ i.op .ld .load accs with dest := .vec f.d.toNat n }.acquiring h f.ord.toNat)

/-! ## Descriptors (R173, R174) -/

/-- The cache key of a descriptor pointer: lane-private pointers belong to their slot. -/
def descKey (k p : Nat) : Nat := if ptrSpace p = 1 then 2 ^ 64 * (k + 1) + p else p
/-- What the core's descriptor cache holds for a pointer (R174). -/
def State.descCached (s : State) (i : Issue) (p : Nat) : Option Nat :=
  (((s.core i.core).desc.find? fun e => e.ctx == i.g.task.ctx && e.addr == descKey i.slot p).map fun e => wordsNat e.words)
/-- The check of a descriptor pointer (R174: a 64-byte read checked by R168). -/
def State.descPtrFault (s : State) (i : Issue) (p : Nat) : Option Flt :=
  s.ptrFault i { size := 64, align := 64, rd := true, whole := true } [(64, p)]
/-- A descriptor missing from the cache: its fetch is asked for and the strand stalls (R174). -/
def State.descStall (s : State) (i : Issue) (p : Nat) : State :=
  let c := s.core i.core
  let asked := c.fetches.any fun x => x.slot == i.slot && x.strand == i.n && x.ptr == p
  let s := if asked then s
    else s.setCore i.core { c with fetches := c.fetches ++ [{ slot := i.slot, strand := i.n, pc := i.pc, ptr := p }] }
  s.stall i
/-- The faults of an instruction that names a descriptor at s register b: of one that is absent from the cache, its pointer's (R168); of one that
the cache holds, what it breaks, and those that the instruction finds with it (R174). The lane mask of RECORD_INVALID is a choice of the model
(log entry 19). -/
def State.descFault (s : State) (i : Issue) (b : Nat) (accepts : Nat → Bool) (own : Nat → Option Flt) : Option Flt :=
  let p := (i.g.sreg b).toNat
  match s.descCached i p with
  | none => s.descPtrFault i p
  | some d =>
    if descBad d || !accepts (descType d) then some { code := fcRecordInvalid, addr := BitVec.ofNat 64 p }
    else own d
/-- Runs an instruction with the descriptor at s register b, or stalls for it. -/
def State.withDesc (s : State) (i : Issue) (b : Nat) (eff : Nat → State) : State :=
  let p := (i.g.sreg b).toNat
  match s.descCached i p with
  | some d => eff d
  | none => s.descStall i p
/-- The origin of a box named at s register b (R173). -/
def Issue.origin (i : Issue) (b : Nat) : List Int := boxOrigin (i.g.sreg (b + 1)) (i.g.sreg (b + 2)) (i.g.sreg (b + 3))

/-! ## LDD and STD (R180) -/

/-- Bytes of an element of LDD and STD. -/
def elemBytes (t : Nat) : Nat := max 1 (typeBits t / 8)
/-- Whether LDD and STD accept an element type (R180). -/
def lddType (t : Nat) : Bool := t != 12 && t != 13
/-- The element pointers of the lanes whose element lies in the box and the tensor. -/
def Issue.boxPtrs (i : Issue) (f : FmtM) (d : Nat) : List (Nat × Nat) :=
  (lanesOf i.em).filterMap fun l =>
    (boxElem d (i.origin f.base.toNat) (i.g.index i.h f.index.toNat l)).map fun e => (l, (elemAddr d e).1)
/-- The fill of a type (R180); of a 6-bit type its six bits, a choice of the model (log entry 93). -/
def fillValue (d : Nat) : Nat :=
  if descType d = 15 then (convert (.flt f64) {} (.flt (f32.value (descFill d)))).1
  else descFill d % 2 ^ (Ty.ofCode (descType d)).width
/-- The bits that LDD keeps of an element: six of a 6-bit one, and 0 for all (R31). -/
def lddKeep (t : Nat) : Nat := if (Ty.ofCode t).width = 6 then 6 else 0
/-- The form of LDD and STD. -/
def lddForm (f : FmtM) : Form := { xmod := memXmod f.ord.toNat xmWx }
/-- Operand conditions known before the descriptor (R173, R175). -/
def Issue.lddBad (i : Issue) (f : FmtM) : Bool :=
  decide (3 < f.ord.toNat) || f.base.toNat % 4 != 0 || i.g.indexBad i.h f.index.toNat || i.g.destBad f.d.toNat 1
/-- Faults that need the descriptor: an f64 register that is no pair, then the checks of the in-box lanes (R168, R180). -/
def State.lddFault (s : State) (i : Issue) (f : FmtM) (rd wr : Bool) : Option Flt :=
  s.descFault i f.base.toNat lddType fun d =>
    if descType d == 15 && i.g.destBad f.d.toNat 2 then some { code := fcIllegalOperand }
    else s.ptrFault i { size := elemBytes (descType d), align := elemBytes (descType d), rd := rd, wr := wr } (i.boxPtrs f d)

/-- LDD (R180): in-box lanes read their element, the others receive the fill and make no access. -/
def execLdd (h : List Hint) (f : FmtM) (s : State) : Host.Outcome State Fault Refusal :=
  perform h s (reservedSet 0x95 f.payload) (fun _ => lddForm f) (fun _ => false) (fun i => i.lddBad f || f.d == 63)
    (fun i s => s.lddFault i f true false) fun i s => s.withDesc i f.base.toNat fun d =>
    let ptrs := i.boxPtrs f d
    let n := elemBytes (descType d)
    let accs := (lanesOf i.em).filterMap fun l =>
      match ptrs.find? fun (j, _) => j == l with
      | some (_, p) => (s.target i.core i.slot l i.g.task p).map fun t => s.access i l 0 p n (lddKeep (descType d)) 0 t
      | none => some { s.access i l 0 0 0 0 0 (.spad i.core 0) with performed := true, value := fillValue d, owners := [] }
    s.post i ({ i.op .ld .load accs with dest := .vec f.d.toNat (if n = 8 then 2 else 1) }.acquiring h f.ord.toNat)

/-- STD (R180): in-box lanes write their element, a 6-bit one with bits 7 and 6 zero. -/
def execStd (h : List Hint) (f : FmtM) (s : State) : Host.Outcome State Fault Refusal :=
  perform h s (reservedSet 0x96 f.payload) (fun _ => lddForm f) (fun _ => false) (fun i => i.lddBad f)
    (fun i s => s.lddFault i f false true) fun i s => s.withDesc i f.base.toNat fun d =>
    let n := elemBytes (descType d)
    let accs := (i.boxPtrs f d).filterMap fun (l, p) =>
      (s.target i.core i.slot l i.g.task p).map fun t =>
        s.access i l 0 p n (i.g.data f.d.toNat 0 n l % 2 ^ (Ty.ofCode (descType d)).width) 0 t
    s.post i ((i.op .st .store accs).releasing h f.ord.toNat)

/-! ## PREF, FENCE, CINV, CWB (R181 to R183) -/

/-- PREF (R181): the pages of global lanes that pass R168 are asked for; nothing else that programs can see. -/
def execPref (h : List Hint) (f : FmtM) (s : State) : Host.Outcome State Fault Refusal :=
  perform h s (reservedSet 0x97 f.payload) (fun _ => { ximm := 2, xmod := xmWx }) (fun _ => false)
    (fun i => i.g.indexBad h f.index.toNat) (fun _ _ => none) fun i s =>
    let leases := s.leaseSet i.g.task
    let s := (i.lanePtrs f.base.toNat f.index.toNat).foldl (fun s (_, p) =>
      if s.ptrStep i.core i.g leases { size := 1, align := 1, rd := true } p = 0 then
        match s.coreTarget i.core i.g.task.ctx p 1 with
        | some (.global n ia _) => s.requestAt n ia 3
        | _ => s
      else s) s
    s.retire i i.g i.next false

/-- Whether a fence of a kind waits for an operation of its group (R182). -/
def fenceWaits (kind : Nat) (o : OpKind) : Bool :=
  match kind, o with
  | 0, .cache _ => false
  | 0, k => k.writes || k == .load
  | 1, k => k == .load || k == .cas || k == .xch || (match k with | .atom _ => true | _ => false)
  | _, .cache _ => true
  | _, k => k == .store || k == .det || (match k with | .amon _ => true | _ => false)

/-- Whether a group has an operation of its own outstanding that a test accepts; the adds of its copy commands are their engine's (R182). -/
def State.outstanding (s : State) (c k : Nat) (p : MemOp → Bool) : Bool :=
  s.ops.any fun o => o.core == c && o.slot == k && o.engine.isNone && p o && o.accs.any fun a => !a.completed

/-- FENCE (R182, R200, R203): stalls while the group has accesses of its kind outstanding; a full or store fence makes the strand's
next store or atomic its release write; a full or load fence acquires what the group's loads have read. -/
def execFence (h : List Hint) (f : FmtC) (s : State) : Host.Outcome State Fault Refusal :=
  let kind := f.f.toNat % 4
  perform h s (reservedSet 0x98 f.payload) (fun _ => { xmod := xmScope }) (fun _ => false) (fun _ => kind == 3)
    (fun _ _ => none) fun i s =>
    if s.outstanding i.core i.slot fun o => fenceWaits kind o.kind then s.stall i
    else
      let x := i.g.strand i.n
      let g := if kind = 1 then i.g else i.g.setStrand i.n { x with fenced := some (widerScope x.fenced (scopeOf h)) }
      s.retire i (if kind = 2 then g.acquired else g.acquireOf i.core (scopeOf h) g.heard) i.next false

/-- The faults of CINV and CWB: the first and the last byte of the range (R183). -/
def State.cacheFault (s : State) (i : Issue) (p n : Nat) : Option Flt :=
  if n = 0 then none
  else
    let ask : Ask := { size := 1, align := 1, rd := true }
    match s.oneFault i ask p [0, 5] false with
    | some e => some e
    | none => s.oneFault i ask ((p + n - 1) % 2 ^ 64) [0, 5] false

/-- The operation of CINV and CWB: one access that stands for every line of the range. -/
def State.cacheOp (s : State) (i : Issue) (kind p n : Nat) : MemOp :=
  let accs := if n = 0 then [] else
    ((s.wholeTarget i.core i.slot i.g.task p).map fun t =>
      let a := s.access i 64 0 p 1 0 0 t
      { a with place := a.goal }).toList
  { i.op .st (.cache kind) accs with words := [BitVec.ofNat 64 p, BitVec.ofNat 64 n], spans := s.coreSpans i.core i.g.task.ctx }

/-- CINV (R183). -/
def execCinv (h : List Hint) (f : FmtC) (s : State) : Host.Outcome State Fault Refusal :=
  let n (i : Issue) := (i.g.sreg f.sb.toNat).toNat
  let p (i : Issue) := (i.g.sreg f.sa.toNat).toNat
  perform h s (reservedSet 0x99 f.payload) (fun _ => {}) (fun _ => false)
    (fun i => decide (1 < f.f.toNat % 4) || decide (2 ^ 32 < n i)) (fun i s => s.cacheFault i (p i) (n i)) fun i s =>
    s.post i (s.cacheOp i (f.f.toNat % 4) (p i) (n i))

/-- CWB (R183). -/
def execCwb (h : List Hint) (f : FmtC) (s : State) : Host.Outcome State Fault Refusal :=
  let n (i : Issue) := (i.g.sreg f.sb.toNat).toNat
  let p (i : Issue) := (i.g.sreg f.sa.toNat).toNat
  perform h s (reservedSet 0x9A f.payload) (fun _ => {}) (fun _ => false)
    (fun i => decide (2 ^ 32 < n i)) (fun i s => s.cacheFault i (p i) (n i)) fun i s =>
    s.post i (s.cacheOp i 2 (p i) (n i))

end Sys2Proof.Machine
end

