-- ==== Sys2Proof/Machine/Waits.lean ====
section
/-! DEFINITION. Waiting strands (R77, R109, R215, R224, R251): how a strand begins to wait on a word and goes on. -/
namespace Sys2Proof.Machine

/-- Whether every earlier access of a strand has been acknowledged (R200). -/
def State.strandQuiet (s : State) (c k n : Nat) : Bool :=
  s.ops.all fun o => !(o.core == c && o.slot == k) || o.engine.isSome || o.accs.all fun a => a.completed || !a.owners.contains (.strand n)

/-- Whether a strand has an access outstanding to the 128-byte line of a target (R196). -/
def State.lineQuiet (s : State) (c k n : Nat) (t : Target) : Bool :=
  let line := s.loc t 0 / 128
  s.ops.all fun o => !(o.core == c && o.slot == k && o.engine.isNone) || o.accs.all fun a =>
    a.performed || !a.owners.contains (.strand n) || s.loc a.target 0 / 128 != line

/-- A strand begins to wait on the word at a target until it reaches a value: it is WAITING, its run has ended, it stands at its
instruction's own word (R391), and its request goes to the word's home (R58, R77, R215). -/
def State.startWait (s : State) (i : Issue) (w : Wait) (t : Target) (value : Nat) : State :=
  let (id, s) := s.fresh
  let x := (i.g.strand i.n).leave true s.time
  let s := s.setGroup i.core i.slot (i.g.setStrand i.n { x with pc := i.addr, state := .waiting, wait := { w with issue := i.pc } })
  { s with waits := s.waits ++ [{ id := id, who := .strand i.core i.g.uid i.n, ctx := i.g.task.ctx, target := t,
                                  value := value, scope := w.scope, since := s.time }] }

/-- A waiting strand goes on at an address (R77); a woken waiter restarts the watchdog (R311). -/
def State.endWait (s : State) (c k n : Nat) (pc : DWord) : State :=
  let g := s.group c k
  let x := { g.strand n with pc := pc, state := .ready, wait := {}, since := s.time }
  (s.setGroup c k (g.setStrand n x)).progress g.task.ktag

/-- A strand's group with an s register written. -/
def State.putS (s : State) (c k d : Nat) (v : DWord) : State := s.setGroup c k ((s.group c k).setS d v)

/-- The continuation of PARK and JOIN: the one XIMM word counts words from the instruction (R109). -/
def Issue.cont (i : Issue) : DWord :=
  match ximmsOf i.h with
  | x :: _ => BitVec.ofNat 64 (low 64 ((i.addr.toNat : Int) + 4 * sx 24 x))
  | [] => i.next

/-- The faults of a barrier's pointer (R210): SPACE, ALIGNMENT, then PERMISSION for a space other than 0, 4 and 6; otherwise R168 as
an 8-byte access. -/
def State.barFault (s : State) (i : Issue) (p align : Nat) (rd wr : Bool) : Option Flt :=
  s.oneFault i { size := 8, align := align, rd := rd, wr := wr } p [0, 4, 6] true

/-- BWAIT and PARK: the strand waits on the word at s[sA] for s[sB] (R109, R215, R224). -/
def State.waitOn (s : State) (i : Issue) (kind : WaitKind) (p : Nat) (target : DWord) (dest scope : Nat) (cont : DWord) : State :=
  match s.wholeTarget i.core i.slot i.g.task p with
  | none => s.stall i
  | some t =>
    s.startWait i { kind := kind, addr := BitVec.ofNat 64 p, target := target, dest := dest, cont := cont, scope := scope } t
      target.toNat

end Sys2Proof.Machine
end

