-- ==== Sys2Proof/Machine/Atomic.lean ====
section
/-! DEFINITION. Row 0xA: atomics and barriers (R209 to R225). -/
namespace Sys2Proof.Machine

/-! ## Atomics (R217 to R221) -/

/-- op of a format M atomic (R218). -/
def atomOp (f : FmtM) : Nat := f.width.toNat
/-- The bytes of a format M atomic (R218). -/
def atomSize (f : FmtM) : Nat := if bit f.ord.toNat 2 then 8 else 4
/-- ord of a format M atomic (R218). -/
def atomOrd (f : FmtM) : Nat := f.ord.toNat % 4
/-- op, bytes and ord of ATOMU and CASU (R218). -/
def atomU (f : FmtC) : Nat × Nat × Nat := (bits f.f.toNat 2 0, if bit f.f.toNat 3 then 8 else 4, bits f.f.toNat 5 4)

/-- What an atomic asks of its address: a read and a write, no host window (R168, R218). -/
def atomAsk (size : Nat) : Ask := { size := size, align := size, rd := true, wr := true, host := false }

/-- Whether a returning atomic at a pointer is a decision that the order log holds (R256). -/
def State.loggedAt (s : State) (t : TaskInfo) (p : Nat) : Bool :=
  t.det && ptrSpace p == 0 &&
    (s.eff t.ktag).logged.any fun w => match leaseRange w.toNat with
      | some r => decide (r.base ≤ p) && decide (p < r.base + r.size)
      | none => false

/-- Numbers the decisions of a returning atomic's accesses, in lane order (R256). -/
def State.number (s : State) (t : TaskInfo) : List Access → Nat → List Access × Nat
  | [], n => ([], n)
  | a :: r, n =>
    if s.loggedAt t a.ptr.toNat then let (r', n') := s.number t r (n + 1); ({ a with decision := some n } :: r', n')
    else let (r', n') := s.number t r n; (a :: r', n')

/-- Posts a returning atomic. -/
def State.postReturning (s : State) (i : Issue) (o : MemOp) : State :=
  let (accs, n) := s.number i.g.task o.accs i.g.task.decisions
  s.post { i with g := { i.g with task := { i.g.task with decisions := n } } } { o with accs := accs }

/-- An atomic's ordering: acquire and release (R218). -/
def MemOp.synced (o : MemOp) (h : List Hint) (ord : Nat) (acq : Bool) : MemOp :=
  { o with acquire := acq && ordSyncs ord, release := ordSyncs ord, scope := scopeOf h, ord := ord }

/-- The accesses of a format M atomic, one to a lane. -/
def State.atomAccs (s : State) (i : Issue) (f : FmtM) (data cmp : Nat → Nat) : List Access :=
  (i.lanePtrs f.base.toNat f.index.toNat).filterMap fun (l, p) =>
    (s.target i.core i.slot l i.g.task p).map fun t => s.access i l 0 p (atomSize f) (data l) (cmp l) t

/-- The form of a format M atomic. -/
def atomForm (f : FmtM) (extra : Nat) : Form := { ximm := 2, xmod := memXmod (atomOrd f) (xmWx ||| extra) }

/-- A lane's data register of an atomic: a pair for 64 bits. -/
def Group.atomData (g : Group) (d size l : Nat) : Nat := g.vval d (size == 8) l

/-- ATOM (R219). -/
def execAtom (h : List Hint) (f : FmtM) (s : State) : Host.Outcome State Fault Refusal :=
  let n := atomSize f
  perform h s (reservedSet 0xA0 f.payload) (fun _ => atomForm f 0) (fun _ => false)
    (fun i => f.d == 63 || i.g.indexBad h f.index.toNat || i.g.destBad f.d.toNat (n / 4))
    (fun i s => s.ptrFault i (atomAsk n) (i.lanePtrs f.base.toNat f.index.toNat)) fun i s =>
    let accs := s.atomAccs i f (fun l => i.g.atomData f.d.toNat n l) fun _ => 0
    s.postReturning i ({ i.op .ld (.atom (atomOp f)) accs with dest := .vec f.d.toNat (n / 4) }.synced h (atomOrd f) true)

/-- The deterministic ordinals of the lanes of an AMON, and the counts after it (R227). -/
def Group.takeOrdinals (g : Group) (m : DWord) : Group :=
  { g with task := { g.task with amon := (lanesOf m).foldl (fun b l => Bank.put b l (Bank.lookD b l 0 + 1)) g.task.amon } }

/-- AMON (R220): adds that do not return; an fadd with .det, or in a task with DET, joins a pending set (R227). -/
def execAmon (h : List Hint) (f : FmtM) (s : State) : Host.Outcome State Fault Refusal :=
  let n := atomSize f
  let fadd := atomOp f == 1
  perform h s (reservedSet 0xA1 f.payload) (fun _ => atomForm f (if fadd then xmDet else 0)) (fun _ => false)
    (fun i => i.g.indexBad h f.index.toNat || i.g.destBad f.d.toNat (n / 4))
    (fun i s => s.ptrFault i (atomAsk n) (i.lanePtrs f.base.toNat f.index.toNat)) fun i s =>
    let det := fadd && (bit (xmodOf h) 12 || i.g.task.det)
    let accs := s.atomAccs i f (fun l => i.g.atomData f.d.toNat n l) fun l => if det then Bank.lookD i.g.task.amon l 0 else 0
    let i' := if det && !decide (63 ≤ i.g.st) then { i with g := i.g.takeOrdinals i.em } else i
    s.post i' ((i'.op .st (if det then .det else .amon (atomOp f)) accs).synced h (atomOrd f) false)

/-- The new value's register of CAS: the register or pair after the compare value's; .xch has it in place (R218). -/
def casNew (f : FmtM) (n : Nat) : Nat := if atomOp f = 1 then f.d.toNat else f.d.toNat + n / 4

/-- Whether CAS's registers break R55 and R218. -/
def Group.casBad (g : Group) (f : FmtM) (n : Nat) : Bool :=
  let d := f.d.toNat
  decide (1 < atomOp f) || d == 63
    || (if atomOp f = 1 then g.destBad d (n / 4)
        else if n = 8 then g.destBad d 4 || d == 60
        else decide (g.nv ≤ d) || (d + 1 != 63 && decide (g.nv ≤ d + 1)))

/-- CAS (R221). -/
def execCas (h : List Hint) (f : FmtM) (s : State) : Host.Outcome State Fault Refusal :=
  let n := atomSize f
  perform h s (reservedSet 0xA3 f.payload) (fun _ => atomForm f 0) (fun _ => false)
    (fun i => i.g.indexBad h f.index.toNat || i.g.casBad f n)
    (fun i s => s.ptrFault i (atomAsk n) (i.lanePtrs f.base.toNat f.index.toNat)) fun i s =>
    let accs := s.atomAccs i f (fun l => i.g.vval (casNew f n) (n == 8) l) fun l => i.g.vval f.d.toNat (n == 8) l
    let kind : OpKind := if atomOp f = 1 then .xch else .cas
    s.postReturning i ({ i.op .ld kind accs with dest := .vec f.d.toNat (n / 4) }.synced h (atomOrd f) true)

/-- ATOMU and CASU: one access for the whole group (R218). -/
def State.atomUni (s : State) (i : Issue) (f : FmtC) (kind : OpKind) (data cmp : DWord) : State :=
  let (_, n, ord) := atomU f
  let p := (i.g.sreg f.sb.toNat).toNat
  let m := 2 ^ (8 * n)
  let accs := ((s.wholeTarget i.core i.slot i.g.task p).map fun t =>
    s.access i 64 0 p n (data.toNat % m) (cmp.toNat % m) t).toList
  s.postReturning i ({ i.op .ld kind accs with dest := .uni f.sa.toNat }.synced i.h ord true)

/-- ATOMU (R219). -/
def execAtomu (h : List Hint) (f : FmtC) (s : State) : Host.Outcome State Fault Refusal :=
  let (op, n, ord) := atomU f
  perform h s (reservedSet 0xA2 f.payload) (fun _ => { xmod := memXmod ord 0 }) (fun _ => false) (fun _ => false)
    (fun i s => s.ptrFault i { atomAsk n with whole := true } [(64, (i.g.sreg f.sb.toNat).toNat)]) fun i s =>
    s.atomUni i f (.atom op) (i.g.sreg f.sa.toNat) 0

/-- CASU (R221). -/
def execCasu (h : List Hint) (f : FmtC) (s : State) : Host.Outcome State Fault Refusal :=
  let (op, n, ord) := atomU f
  perform h s (reservedSet 0xA4 f.payload) (fun _ => { xmod := memXmod ord 0 }) (fun _ => false) (fun _ => decide (1 < op))
    (fun i s => s.ptrFault i { atomAsk n with whole := true } [(64, (i.g.sreg f.sb.toNat).toNat)]) fun i s =>
    s.atomUni i f (if op = 1 then .xch else .cas) (i.g.sreg f.sc.toNat) (i.g.sreg f.sa.toNat)

/-! ## Barriers (R209 to R216, R222 to R225) -/

/-- The registered lines of a home slice (R211). -/
def State.linesAt (s : State) (home : Nat × Nat) : List BarLine := s.lines.filter fun l => l.die == home.1 && l.slice == home.2

/-- The regions of a kernel's path with their effective line budgets (R308, R309). -/
def Effective.lineBudgets (e : Effective) : List (Nat × Nat) :=
  (e.path.zip e.budgets).map fun (r, _, _, _, b) => (r, b)

/-- Whether BINIT of a group is refused: the slice or the context's share of it is full (R211, R321), or a region of the path
is at its budget. -/
def State.binitRefused (s : State) (ctx : Nat) (e : Effective) (home : Nat × Nat) : Bool :=
  let here := s.linesAt home
  decide (4096 ≤ here.length) || decide (64 ≤ (here.filter fun l => l.ctx == ctx).length)
    || e.lineBudgets.any fun (r, b) => decide (b ≤ (s.lines.filter fun l => l.regions.contains r).length)

/-- The 128-byte line of a target. -/
def lineOf : Target → Target
  | .global n ia r => .global n (ia / 128 * 128) r
  | .csp d b => .csp d (b / 128 * 128)
  | t => t

/-- BINIT at its home for a context and a path of regions with their budgets (R211, R212, R216): the status and the state. Its
write starts a new chain, and a FENCE before it orders the store or atomic that comes after it (log entry 120). -/
def State.binitAt (s : State) (t : Target) (v : DWord) (rel : Release) (b : Breaker) (e : Effective) : Nat × State :=
  let s := s.settleAt (lineOf t) 128
  match s.lineAt t with
  | some _ =>
    let (old, s) := s.readT t 0 8
    if decide (v.toNat < old) && !(s.lineWaits t).isEmpty then
      let s := (s.writeT t 0 8 v.toNat).tagRelease t 8 [rel]
      (1, s.breakLine t v.toNat b)
    else (1, s.storeAt t 8 v.toNat [rel])
  | none =>
    let home := s.homeOf t
    if s.binitRefused b.ctx e home then (2, s)
    else
      let line : BarLine :=
        { target := lineOf t, die := home.1, slice := home.2, ctx := b.ctx, regions := e.path }
      let s := { s with lines := s.lines ++ [line] }
      (0, s.storeAt t 128 v.toNat [rel])

/-- BINIT of a group's strand at its home, the mark of its FENCE left (log entry 120). -/
def State.binit (s : State) (i : Issue) (t : Target) (v : DWord) : Nat × State :=
  s.binitAt t v { agent := i.agent, scope := scopeOf i.h } (s.groupBreaker i.g.task) (s.eff i.g.task.ktag)

/-- Runs an operation of the issuing strand at a barrier's home, which answers with one of n statuses (R222, R225): a page that is not
resident stalls the strand, and one that is gone ends the task (R341). A peer's home answers when it does, refuses, or answers with a status,
each free (log entry 24); with no port up the task ends by LINK_DOWN (R360). -/
def State.atBarrier (s : State) (i : Issue) (p dest n : Nat) (act : State → Target → Nat × State) : State :=
  match s.wholeTarget i.core i.slot i.g.task p with
  | none => s.stall i
  | some (.peer r _ ia) =>
    let flt (s : State) (code : Nat) : State :=
      s.takeFault i.core i.slot i.n i.pc { code := code, kind := 2, mask := i.em, addr := BitVec.ofNat 64 p }
    if (s.rankPort r (homeHash ia)).isNone then flt s fcLinkDown
    else
      let (v, s) := s.peerAnswer
      if v.getLsbD 0 then s.stall i
      else if v.getLsbD 1 then flt s fcPermission
      else s.retire i (i.g.setS dest (BitVec.ofNat 64 (v.toNat / 4 % n))) i.next false
  | some t =>
    match s.gate t true true (some (coreDie i.core)) with
    | (.wait, s) => s.stall i
    | (.gone, s) =>
      s.takeFault i.core i.slot i.n i.pc { code := fcLeaseExpired, kind := 2, mask := i.em, addr := BitVec.ofNat 64 p }
    | (.go _, s) =>
      let (v, s) := act s t
      let i := s.reseen i
      s.retire i (i.g.setS dest (BitVec.ofNat 64 v)) i.next false

/-- BINIT (R222): a release that stalls until every earlier access of the strand is acknowledged. -/
def execBinit (h : List Hint) (f : FmtC) (s : State) : Host.Outcome State Fault Refusal :=
  let p (i : Issue) := (i.g.sreg f.sa.toNat).toNat
  perform h s (reservedSet 0xA5 f.payload) (fun _ => { xmod := xmScope }) (fun _ => false) (fun _ => false)
    (fun i s => s.barFault i (p i) 128 false true) fun i s =>
    if s.strandQuiet i.core i.slot i.n then s.atBarrier i (p i) f.sc.toNat 3 fun s t => s.binit i t (i.g.sreg f.sb.toNat)
    else s.stall i

/-- BADD (R223): a 64-bit add that does not return. -/
def execBadd (h : List Hint) (f : FmtC) (s : State) : Host.Outcome State Fault Refusal :=
  let p (i : Issue) := (i.g.sreg f.sa.toNat).toNat
  let ord := f.f.toNat % 4
  perform h s (reservedSet 0xA6 f.payload) (fun _ => { xmod := if ord = 1 then xmScope else 0 }) (fun _ => false)
    (fun _ => decide (1 < ord)) (fun i s => s.barFault i (p i) 128 true true) fun i s =>
    let accs := ((s.wholeTarget i.core i.slot i.g.task (p i)).map fun t =>
      s.access i 64 0 (p i) 8 (i.g.sreg f.sb.toNat).toNat 0 t).toList
    s.post i ((i.op .st (.amon 0) accs).synced h ord false)

/-- BWAIT (R224). -/
def execBwait (h : List Hint) (f : FmtC) (s : State) : Host.Outcome State Fault Refusal :=
  let p (i : Issue) := (i.g.sreg f.sa.toNat).toNat
  perform h s (reservedSet 0xA7 f.payload) (fun _ => { xmod := xmScope }) (fun _ => false) (fun _ => false)
    (fun i s => s.barFault i (p i) 8 true false) fun i s =>
    s.waitOn i .bwait (p i) (i.g.sreg f.sb.toNat) f.sc.toNat (scopeOf h) i.next

/-- BDROP at its home (R212, R225): the status and the state. -/
def State.bdropAt (s : State) (t : Target) (b : Breaker) : Nat × State :=
  match s.lineAt t with
  | none => (1, s)
  | some _ =>
    let (v, s) := s.readT t 0 8
    let s := s.breakLine t v b
    let line := s.loc t 0 / 128
    (0, { s with lines := s.lines.filter fun l => s.loc l.target 0 / 128 != line })

/-- BDROP of a group's strand at its home. -/
def State.bdrop (s : State) (i : Issue) (t : Target) : Nat × State := s.bdropAt t (s.groupBreaker i.g.task)

/-- BDROP (R225). -/
def execBdrop (h : List Hint) (f : FmtC) (s : State) : Host.Outcome State Fault Refusal :=
  let p (i : Issue) := (i.g.sreg f.sa.toNat).toNat
  perform h s (reservedSet 0xA8 f.payload) (fun _ => {}) (fun _ => false) (fun _ => false)
    (fun i s => s.barFault i (p i) 128 false true) fun i s =>
    match s.wholeTarget i.core i.slot i.g.task (p i) with
    | some t =>
      if s.lineQuiet i.core i.slot i.n t then s.atBarrier i (p i) f.sb.toNat 2 fun s t => s.bdrop i t else s.stall i
    | none => s.stall i

end Sys2Proof.Machine
end

