-- ==== Sys2Proof/Machine/Compare.lean ====
section
/-! DEFINITION. Row 0x5: compares, select and predicates (R116, R123 to R127). -/
namespace Sys2Proof.Machine

/-! ## Compares (R123, R124) -/

/-- Writes a predicate in the lanes of a mask (R116). -/
def Group.setPLanes (g : Group) (n : Nat) (m : DWord) (f : Nat → Bool) : Group :=
  g.setP n ((g.preg n &&& ~~~m) ||| (maskOf f &&& m))

/-- The relation of two integers: 0 equal, 1 less, 2 greater (R124). -/
def intRel (x y : Int) : Nat := if x = y then 0 else if x < y then 1 else 2

/-- The form of a compare. -/
def cmpForm (f : FmtP) (xmod : Nat) (wide : Bool) : Form := { xmod := xmod, routed := true, srcs := f.two, wide := wide }

/-- A compare: the relation of each active lane by kind, and the flags it raises. -/
def execCmp (op : BitVec 8) (xmod : Nat) (k : Kind) (intOnly : Bool) (rel flags : Nat → Nat → Nat) (h : List Hint) (f : FmtP)
    (s : State) : Host.Outcome State Fault Refusal :=
  let x (i : Issue) := i.at f.two 0 k
  let y (i : Issue) := i.at f.two 1 k
  perform h s (reservedSet op f.payload) (fun _ => cmpForm f xmod k.wide) (fun _ => false)
    (fun _ => f.pd == 15 || (intOnly && decide (8 ≤ f.cc.toNat))) (fun _ _ => none) fun i s =>
    s.settle i (i.g.setPLanes f.pd.toNat i.em fun l => bit f.cc.toNat (rel (x i l) (y i l))) i.em fun l => flags (x i l) (y i l)

/-- ICMP (R124). -/
def execIcmp (h : List Hint) (f : FmtP) (s : State) : Host.Outcome State Fault Refusal :=
  let w := widthOf h
  execCmp 0x50 xmW64 (.int w) true (fun x y => intRel (sx w x) (sx w y)) (fun _ _ => 0) h f s
/-- NCMP (R124). -/
def execNcmp (h : List Hint) (f : FmtP) (s : State) : Host.Outcome State Fault Refusal :=
  execCmp 0x51 xmW64 (.int (widthOf h)) true (fun x y => intRel x y) (fun _ _ => 0) h f s
/-- An operand of a floating-point compare: a subnormal reads as zero under .ftz (R38). -/
def cmpValue (F : Fmt) (h : List Hint) (b : Nat) : Fl := (F.value b).flush F (fpModeOf h).ftz
/-- FCMP (R124): a signalling NaN raises NV (R40). -/
def execFcmp (h : List Hint) (f : FmtP) (s : State) : Host.Outcome State Fault Refusal :=
  execCmp 0x52 xmFtz (.elem 14) false (fun x y => fpRel (cmpValue f32 h x) (cmpValue f32 h y))
    (fun x y => (f32.value x).nv ||| (f32.value y).nv) h f s
/-- DCMP (R124). -/
def execDcmp (h : List Hint) (f : FmtP) (s : State) : Host.Outcome State Fault Refusal :=
  execCmp 0x53 xmFtz (.elem 15) false (fun x y => fpRel (cmpValue f64 h x) (cmpValue f64 h y))
    (fun x y => (f64.value x).nv ||| (f64.value y).nv) h f s

/-- SEL (R125): field c names a predicate and its inversion. -/
def execSel (h : List Hint) (f : FmtT) (s : State) : Host.Outcome State Fault Refusal :=
  let w := widthOf h
  let c := f.c.toNat
  let form : Form :=
    { xmod := xmW64, routed := true, srcs := f.two, wide := isW64 h, dest := some (f.d.toNat, if isW64 h then 2 else 1) }
  simple h s 0x54 f.payload form fun i s =>
    let p := if bit c 4 then ~~~ i.g.preg (bits c 3 0) else i.g.preg (bits c 3 0)
    s.vec i { d := f.d.toNat, wide := isW64 h, m := i.em,
              val := fun l => if p.getLsbD l then i.at f.two 0 (.int w) l else i.at f.two 1 (.int w) l }

/-! ## Predicates (R126) -/

/-- Whether a field that names a predicate holds 16 to 63, or 15 as a destination (R126). -/
def predBad (n : Nat) (dest : Bool) : Bool := decide (16 ≤ n) || (dest && n == 15)

/-- A bitwise combination of two predicates in the active lanes. -/
def execPred2 (op : BitVec 8) (fn : DWord → DWord → DWord) (h : List Hint) (f : FmtU) (s : State) :
    Host.Outcome State Fault Refusal :=
  perform h s (reservedSet op f.payload) (fun _ => {}) (fun _ => false)
    (fun _ => predBad f.sd.toNat true || predBad f.sa.toNat false || predBad f.sb.toNat false) (fun _ _ => none) fun i s =>
    let v := fn (i.g.preg f.sa.toNat) (i.g.preg f.sb.toNat)
    s.retire i (i.g.setPLanes f.sd.toNat i.em v.getLsbD) i.next false

/-- An s register from a predicate. -/
def execPredS (op : BitVec 8) (fn : Issue → DWord → DWord) (h : List Hint) (f : FmtU) (s : State) :
    Host.Outcome State Fault Refusal :=
  perform h s (reservedSet op f.payload) (fun _ => {}) (fun _ => false) (fun _ => predBad f.sa.toNat false) (fun _ _ => none)
    fun i s => s.retire i (i.g.setS f.sd.toNat (fn i (i.g.preg f.sa.toNat))) i.next false

/-- PAND (R126). -/
def execPand (h : List Hint) (f : FmtU) (s : State) : Host.Outcome State Fault Refusal :=
  execPred2 0x55 (fun a b => a &&& b) h f s
/-- POR (R126). -/
def execPor (h : List Hint) (f : FmtU) (s : State) : Host.Outcome State Fault Refusal :=
  execPred2 0x56 (fun a b => a ||| b) h f s
/-- PXOR (R126). -/
def execPxor (h : List Hint) (f : FmtU) (s : State) : Host.Outcome State Fault Refusal :=
  execPred2 0x57 (fun a b => a ^^^ b) h f s
/-- PANDN (R126). -/
def execPandn (h : List Hint) (f : FmtU) (s : State) : Host.Outcome State Fault Refusal :=
  execPred2 0x58 (fun a b => a &&& ~~~b) h f s
/-- PSET (R126). -/
def execPset (h : List Hint) (f : FmtU) (s : State) : Host.Outcome State Fault Refusal :=
  perform h s (reservedSet 0x59 f.payload) (fun _ => {}) (fun _ => false) (fun _ => predBad f.sd.toNat true) (fun _ _ => none)
    fun i s => s.retire i (i.g.setPLanes f.sd.toNat i.em (i.g.sreg f.sa.toNat).getLsbD) i.next false
/-- PGET (R126). -/
def execPget (h : List Hint) (f : FmtU) (s : State) : Host.Outcome State Fault Refusal :=
  execPredS 0x5A (fun _ v => v) h f s
/-- PCNT (R126). -/
def execPcnt (h : List Hint) (f : FmtU) (s : State) : Host.Outcome State Fault Refusal :=
  execPredS 0x5B (fun i v => BitVec.ofNat 64 (ones (v &&& i.em))) h f s
/-- PFF (R126). -/
def execPff (h : List Hint) (f : FmtU) (s : State) : Host.Outcome State Fault Refusal :=
  execPredS 0x5C (fun i v => match lanesOf (v &&& i.em) with
    | l :: _ => BitVec.ofNat 64 l
    | [] => BitVec.allOnes 64) h f s

/-! ## VOTE and ELECT (R127) -/

/-- The bit that VOTE writes in a lane, from the values of the active lanes (R127). -/
def voteBit (cc : Nat) (vals : List Nat) (own : Nat) : Bool :=
  match cc with
  | 0 => vals.all (· != 0)
  | 1 => vals.any (· != 0)
  | 2 => vals.all (· == vals.headD 0)
  | _ => own != 0

/-- VOTE (R127). -/
def execVote (h : List Hint) (f : FmtP) (s : State) : Host.Outcome State Fault Refusal :=
  let k : Kind := .int (widthOf h)
  perform h s (reservedSet 0x5D f.payload) (fun _ => { xmod := xmW64, routed := true, srcs := f.one, wide := isW64 h })
    (fun _ => false) (fun _ => f.pd == 15 || decide (4 ≤ f.cc.toNat)) (fun _ _ => none) fun i s =>
    let vals := (lanesOf i.em).map fun l => i.at f.one 0 k l
    s.retire i (i.g.setPLanes f.pd.toNat i.em fun l => voteBit f.cc.toNat vals (i.at f.one 0 k l)) i.next false

/-- ELECT (R127): the lowest active lane. It has no source, and format P accepts route hints all the same (R63, R65). -/
def execElect (h : List Hint) (f : FmtP) (s : State) : Host.Outcome State Fault Refusal :=
  perform h s (reservedSet 0x5E f.payload) (fun _ => { routed := true }) (fun _ => false) (fun _ => f.pd == 15) (fun _ _ => none) fun i s =>
    s.retire i (i.g.setPLanes f.pd.toNat i.em fun l => (lanesOf i.em).head? == some l) i.next false

end Sys2Proof.Machine
end

