-- ==== Sys2Proof/Machine/Box.lean ====
section
/-! DEFINITION. Boxes of tensors as the engines take them: their checks at issue (R187, R272), their elements read and written
at the memory side (R95, R292, R341), and ranges of pointers (R186). -/
namespace Sys2Proof.Machine

/-! ## Checks at issue (R187, R272) -/

/-- The pointers of the in-tensor elements of a box, in index order. -/
def boxAll (d : Nat) (origin : List Int) : List Nat :=
  (List.range (descCount d)).filterMap fun j => (boxElem d origin j).map fun e => (elemAddr d e).1

/-- The checks of a box (R272): 1 to 3 of R168 for each in-tensor element, then the lowest to the highest address within one
leased range. -/
def State.boxFault (s : State) (i : Issue) (d : Nat) (origin : List Int) (rd wr : Bool) : Option Flt :=
  let n := elemBytes (descType d)
  let a : Ask := { size := n, align := n, rd := rd, wr := wr, whole := true, leased := false }
  let ps := boxAll d origin
  match s.ptrFault i a (ps.map fun p => (64, p)) with
  | some e => some e
  | none =>
    match ps with
    | [] => none
    | p :: t =>
      let lo := t.foldl min p
      let hi := t.foldl max p
      if ptrSpace p == 0 && !inLeases (s.leaseSet i.g.task) (ptrOffset lo) (hi + n - lo) then
        some { code := fcLeaseRange, mask := i.em, addr := BitVec.ofNat 64 lo }
      else none

/-- The check of a range of bytes at a pointer (R186): each address by R168, a global range within one leased range. -/
def State.rangeFault (s : State) (i : Issue) (p n : Nat) (rd wr : Bool) : Option Flt :=
  if n = 0 then none else s.ptrFault i { size := n, align := 1, rd := rd, wr := wr, whole := true } [(64, p)]

/-! ## Reaching memory (R95, R337, R341) -/

/-- How an engine's access ends: done, waiting for a page, or a fault found at the memory side. -/
inductive Served where
  | done
  | wait
  | bad (code : Nat)
deriving DecidableEq, Repr

/-- Whether an engine's access to a target goes on (R337, R341): a peer needs a port (R360), a page its residence. -/
def State.serve (s : State) (t : Target) (task write : Bool) (core : Nat) : Served × State :=
  match t with
  | .peer r _ ia => (if (s.rankPort r (homeHash ia)).isNone then .bad fcLinkDown else .done, s)
  | _ =>
    match s.gate t task write (some (coreDie core)) with
    | (.go _, s) => (.done, s)
    | (.wait, s) => (.wait, s)
    | (.gone, s) => (.bad fcLeaseExpired, s)

/-- Reads n bytes of a target; what a peer holds is a free value (log entry 24). -/
def State.fetchT (s : State) (t : Target) (n : Nat) : Nat × State :=
  match t with
  | .peer _ _ _ =>
    (List.range ((n + 7) / 8)).foldl (fun (acc : Nat × State) j =>
      let (v, s) := acc.2.peerAnswer
      ((acc.1 + v.toNat * 2 ^ (64 * j)) % 2 ^ (8 * n), s)) (0, s)
  | _ => s.readT t 0 n

/-- The box's dense value, element j at bit width times j (R187): elements outside the tensor hold the fill, 6-bit types their
upper bits zero. Positions from j on; find names what a pointer reaches. -/
def State.boxRead (s : State) (find : State → Nat → Option Target) (core d : Nat) (origin : List Int) :
    Nat → Nat → Served × Nat × State
  | 0, _ => (.done, 0, s)
  | n + 1, j =>
    let ty := Ty.ofCode (descType d)
    let place (v : Nat) : Nat := (v % 2 ^ ty.width) * 2 ^ (ty.slot * j)
    match (boxElem d origin j).map (elemAddr d) with
    | none =>
      let (r, v, s) := s.boxRead find core d origin n (j + 1)
      (r, v + place (fillValue d), s)
    | some (p, upper) =>
      match find s p with
      | none => (.bad fcPermission, 0, s)
      | some t =>
        match s.serve t true false core with
        | (.done, s) =>
          let (b, s) := (s.settleAt t (elemBytes (descType d))).fetchT t (elemBytes (descType d))
          let (r, v, s) := s.boxRead find core d origin n (j + 1)
          (r, v + place (if upper then b / 16 else b), s)
        | (r, s) => (r, 0, s)

/-- Element j of a dense value of a type. -/
def denseElem (ty : Ty) (v j : Nat) : Nat := (v >>> (ty.slot * j)) % 2 ^ ty.width

/-- Whether the in-tensor elements of a box at some positions can be written now, and no registered line protects one (R213). -/
def State.boxReady (s : State) (find : State → Nat → Option Target) (core d : Nat) (origin : List Int) : List Nat → Served × State
  | [] => (.done, s)
  | j :: t =>
    match (boxElem d origin j).map (elemAddr d) with
    | none => s.boxReady find core d origin t
    | some (p, _) =>
      match find s p with
      | none => (.bad fcPermission, s)
      | some x =>
        match s.serve x true true core with
        | (.done, s) =>
          if s.protects x false then (.bad fcBarrierProtect, s.countProtect x)
          else s.boxReady find core d origin t
        | r => r

/-- Writes the in-tensor elements of a box at some positions from a dense value, in index order so that the latest position stays (R274): a 4-bit
element leaves the other half of its byte. -/
def State.boxWrite (s : State) (find : State → Nat → Option Target) (d : Nat) (origin : List Int) (v : Nat) (js : List Nat) : State :=
  let ty := Ty.ofCode (descType d)
  js.foldl (fun s j =>
    match (boxElem d origin j).map (elemAddr d) with
    | none => s
    | some (p, upper) =>
      match find s p with
      | none => s
      | some (.peer _ _ _) => s
      | some t =>
        let e := denseElem ty v j
        let n := elemBytes (descType d)
        let s := s.settleAt t n
        if ty.slot = 4 then
          let (old, s) := s.readT t 0 1
          s.storeAt t 1 (if upper then old % 16 + 16 * e else old / 16 * 16 + e) []
        else s.storeAt t n e []) s

/-! ## Ranges (R184, R186) -/

/-- A range of bytes at a pointer cut where what it reaches may change, at multiples of 64 KiB: pointers and sizes. -/
def rangePieces : Nat → Nat → Nat → List (Nat × Nat)
  | 0, _, _ => []
  | fuel + 1, p, n =>
    if n = 0 then []
    else
      let k := min n (65536 - p % 65536)
      (p, k) :: rangePieces fuel (p + k) (n - k)

/-- Reads a range, piece by piece, as one little-endian number. find names what a pointer reaches. -/
def State.rangeRead (s : State) (find : State → Nat → Option Target) (task : Bool) (core : Nat) :
    List (Nat × Nat) → Served × Nat × State
  | [] => (.done, 0, s)
  | (p, n) :: t =>
    match find s p with
    | none => (.bad fcPermission, 0, s)
    | some x =>
      match s.serve x task false core with
      | (.done, s) =>
        let (v, s) := (s.settleAt x n).fetchT x n
        let (r, w, s) := s.rangeRead find task core t
        (r, v + w * 2 ^ (8 * n), s)
      | (r, s) => (r, 0, s)

/-- The lines of 128 bytes that n bytes at a target touch, as targets. -/
def linesOf (t : Target) (n : Nat) : List Target :=
  let at' (o : Nat) : Target := match t with
    | .global c ia r => .global c (ia + o) r
    | .csp d b => .csp d (b + o)
    | u => u
  (List.range (n / 128 + 2)).filterMap fun k =>
    let o := if k = 0 then 0 else min (128 * k) (n - 1)
    if o < n then some (at' o) else none

/-- Whether a range can be written now, and no registered line of it is protected (R213). -/
def State.rangeReady (s : State) (find : State → Nat → Option Target) (task : Bool) (core : Nat) :
    List (Nat × Nat) → Served × State
  | [] => (.done, s)
  | (p, n) :: t =>
    match find s p with
    | none => (.bad fcPermission, s)
    | some x =>
      match s.serve x task true core with
      | (.done, s) =>
        if (linesOf x n).any fun l => s.protects l false then (.bad fcBarrierProtect, s.countProtect x)
        else s.rangeReady find task core t
      | r => r

/-- Writes a range from a little-endian number. -/
def State.rangeWrite (s : State) (find : State → Nat → Option Target) : List (Nat × Nat) → Nat → State
  | [], _ => s
  | (p, n) :: t, v =>
    let s := match find s p with
      | some (.peer _ _ _) => s
      | some x => (s.settleAt x n).storeAt x n v []
      | none => s
    s.rangeWrite find t (v / 2 ^ (8 * n))

/-! ## What a group has not acquired (R203) -/

/-- The bytes of ranges that an engine has written for a command of a group, and what stood there before, which the group's loads may still
return until it acquires. -/
def State.hides (s old : State) (c k op : Nat) (find : State → Nat → Option Target) (rs : List (Nat × Nat)) : State :=
  let cells := (rs.flatMap fun (p, n) => rangePieces (n / 65536 + 2) p n).flatMap fun (p, n) => match find old p with
    | some (.peer _ _ _) => []
    | some t => (List.range n).map fun o => (old.loc t o, old.byteAt (old.place t o).1)
    | none => []
  let g := s.group c k
  s.setGroup c k { g with unseen := cells.foldl (fun b (l, v) => Bank.put b l (op, v)) g.unseen }

/-! ## Pages that wait to migrate (R339) -/

/-- Whether a page command of type 1 waits for a page's references to end. -/
def State.pageAwaits (s : State) (n ia : Nat) : Bool :=
  match (s.walk n ia).1 with
  | some l =>
    let p := s.page n l
    p.state != some .migrating && (match p.cmd with
      | some id => s.pageCmds.any fun c => c.id == id && c.op == 1
      | none => false)
  | none => false

/-- The pointer ranges that a copy command reads or writes: its segments' bytes, and the elements of its box. -/
def cmdRanges (kind : CopyKind) (segs : List Segment) : List (Nat × Nat) :=
  match kind with
  | .range => segs.flatMap fun x => [(x.dst.toNat, x.size), (x.src.toNat, x.size)]
  | .slot _ => segs.map fun x => (x.src.toNat, x.size)
  | .box d origin =>
    (segs.map fun x => (x.dst.toNat, x.size))
      ++ (boxAll (wordsNat d) origin).map fun p => (p, elemBytes (descType (wordsNat d)))

/-- The context pages' bytes that ranges of pointers begin at, one to each piece. -/
def State.piecesIn (s : State) (find : State → Nat → Option Target) (rs : List (Nat × Nat)) : List (Nat × Nat) :=
  (rs.flatMap fun (p, n) => rangePieces (n / 65536 + 2) p n).filterMap fun (p, _) =>
    match find s p with
    | some (.global n ia _) => some (n, ia)
    | _ => none

end Sys2Proof.Machine
end

