-- ==== Sys2Proof/Machine/Copy.lean ====
section
/-! DEFINITION. Row 0xB: COPY, COPYT, KICK and MDLD (R184 to R188, R279), as they issue; the copy engine's own steps stand in
Machine/CopyEvents.lean. -/
namespace Sys2Proof.Machine

/-! ## Segments (R184) -/

/-- The segments of a copy: cut at each 4 KiB boundary of the destination. -/
def segmentsOf : Nat → Nat → Nat → Nat → List Segment
  | 0, _, _, _ => []
  | fuel + 1, dst, src, n =>
    if n = 0 then []
    else
      let k := min n (4096 - dst % 4096)
      { dst := BitVec.ofNat 64 dst, src := BitVec.ofNat 64 src, size := k } :: segmentsOf fuel (dst + k) (src + k) (n - k)

/-- The segments of n bytes. -/
def segments (dst src n : Nat) : List Segment := segmentsOf (n / 4096 + 2) dst src n

/-! ## Issue -/

/-- Posts a copy command of a group: it counts once on cp; one without segments is done at once (R92, R185, R186). A page of it that
waits to migrate stalls it (R339). -/
def State.postCopy (s : State) (i : Issue) (kind : CopyKind) (segs : List Segment) (barrier : Option DWord) : State :=
  let find (s : State) (p : Nat) : Option Target := s.wholeTarget i.core i.slot i.g.task p
  if 63 ≤ i.g.cp || (s.piecesIn find (cmdRanges kind segs)).any fun (n, ia) => s.pageAwaits n ia then s.stall i
  else
    let (id, s) := s.fresh
    let x := s.core i.core
    let cmd : CopyCmd :=
      { id := id, owner := .group i.slot i.n i.pc id, ctx := i.g.task.ctx, ktag := i.g.task.ktag, kind := kind, segs := segs,
        barrier := barrier, scope := scopeOf i.h, em := i.em, spans := s.coreSpans i.core i.g.task.ctx }
    let s := if segs.isEmpty then s else s.setCore i.core { x with cmds := x.cmds ++ [cmd] }
    s.retire i (i.g.count .cp id segs.isEmpty) i.next false

/-- The faults of a command's barrier pointer (R185, R210). -/
def State.copyBarFault (s : State) (i : Issue) (b : Option DWord) : Option Flt :=
  match b with
  | some p => s.barFault i p.toNat 128 true true
  | none => none

/-- Whether two ranges of n bytes overlap in the same space with the same pointer fields (R186). -/
def rangesOverlap (p q n : Nat) : Bool :=
  p - ptrOffset p == q - ptrOffset q && decide (n ≠ 0) && decide (ptrOffset p < ptrOffset q + n)
    && decide (ptrOffset q < ptrOffset p + n)

/-- The barrier of a COPY: s[sc + 1] where f[0] is set (R185). -/
def Issue.copyBar (i : Issue) (f : FmtC) : Option DWord :=
  if f.f.getLsbD 0 then some (i.g.sreg (f.sc.toNat + 1)) else none

/-- COPY (R186): of its source, its destination and its barrier the first at fault is reported, in this order (log entry 119). -/
def execCopy (h : List Hint) (f : FmtC) (s : State) : Host.Outcome State Fault Refusal :=
  let dst (i : Issue) := (i.g.sreg f.sa.toNat).toNat
  let src (i : Issue) := (i.g.sreg f.sb.toNat).toNat
  let n (i : Issue) := (i.g.sreg f.sc.toNat).toNat
  perform h s (reservedSet 0xB0 f.payload) (fun _ => { xmod := xmScope }) (fun _ => false)
    (fun i => (f.f.getLsbD 0 && (f.sc.toNat % 2 != 0 || decide (60 < f.sc.toNat))) || decide (2 ^ 32 ≤ n i)
      || rangesOverlap (dst i) (src i) (n i))
    (fun i s => match s.rangeFault i (src i) (n i) true false with
      | some e => some e
      | none => match s.rangeFault i (dst i) (n i) false true with
        | some e => some e
        | none => s.copyBarFault i (i.copyBar f)) fun i s =>
    s.postCopy i .range (segments (dst i) (src i) (n i)) (i.copyBar f)

/-- COPYT (R187). -/
def execCopyt (h : List Hint) (f : FmtC) (s : State) : Host.Outcome State Fault Refusal :=
  let dst (i : Issue) := (i.g.sreg f.sa.toNat).toNat
  let b := f.sb.toNat
  let bar (i : Issue) := if f.f.getLsbD 0 then some (i.g.sreg f.sc.toNat) else none
  perform h s (reservedSet 0xB1 f.payload) (fun _ => { xmod := xmScope }) (fun _ => false) (fun _ => b % 4 != 0)
    (fun i s => s.descFault i b (fun _ => true) fun d =>
      match s.boxFault i d (i.origin b) true false with
      | some e => some e
      | none => match s.rangeFault i (dst i) (descBytes d) false true with
        | some e => some e
        | none => s.copyBarFault i (bar i)) fun i s =>
    s.withDesc i b fun d =>
      s.postCopy i (.box (natWords d 8) (i.origin b)) (segments (dst i) 0 (descBytes d)) (bar i)

/-- KICK (R185, R188): a list of entries, each checked as the engine reaches it. -/
def execKick (h : List Hint) (f : FmtC) (s : State) : Host.Outcome State Fault Refusal :=
  let n (i : Issue) := (i.g.sreg f.sb.toNat).toNat
  perform h s (reservedSet 0xB2 f.payload) (fun _ => { xmod := xmScope }) (fun _ => false)
    (fun i => n i == 0 || decide (65535 < n i)) (fun _ _ => none) fun i s =>
    if 63 ≤ i.g.cp then s.stall i
    else
      let (id, s) := s.fresh
      let x := s.core i.core
      let l : CopyList :=
        { id := id, owner := .group i.slot i.n i.pc id, ctx := i.g.task.ctx, ktag := i.g.task.ktag
          base := i.g.sreg f.sa.toNat, count := n i, scope := scopeOf i.h, em := i.em
          spans := s.coreSpans i.core i.g.task.ctx }
      (s.setCore i.core { x with lists := x.lists ++ [l] }).retire i (i.g.count .cp id false) i.next false

/-- Whether a strand breaks R268: its group has other strands, or its em misses a lane that has not exited. -/
def Issue.notWhole (i : Issue) : Option Flt :=
  if i.g.strands.length == 1 && i.em == ~~~ i.g.exited then none else some { code := fcIllegalConvergence }

/-- The bytes that MDLD moves (R279). -/
def mdldBytes (f : FmtX) : Nat := 512 * 2 ^ bits f.f.toNat 1 0

/-- MDLD (R279). -/
def execMdld (h : List Hint) (f : FmtX) (s : State) : Host.Outcome State Fault Refusal :=
  let p (i : Issue) := (i.g.sreg f.s.toNat).toNat
  perform h s (reservedSet 0xB3 f.payload) (fun _ => {}) (fun _ => false)
    (fun i => bits f.f.toNat 1 0 == 3 || decide (i.g.na ≤ f.fD.toNat))
    (fun i s => match i.notWhole with
      | some e => some e
      | none => s.ptrFault i { size := mdldBytes f, align := 128, rd := true, whole := true } [(64, p i)]) fun i s =>
    s.postCopy i (.slot f.fD.toNat) [{ dst := 0, src := BitVec.ofNat 64 (p i), size := mdldBytes f }] none

end Sys2Proof.Machine
end

