-- ==== Sys2Proof/Machine/Tile.lean ====
section
/-! DEFINITION. Row 0xD as it issues (R263 to R290): field checks, convergence, posting to the tile engine, and the
fixed-latency THRESH and ABLK. What the engine does with an operation stands in Machine/TileMath.lean and
Machine/TileEvents.lean. -/
namespace Sys2Proof.Machine

/-! ## Posting (R92, R267 to R269) -/

/-- Posts a tile operation and retires its instruction; it counts on tl until it completes. -/
def State.postTile (s : State) (i : Issue) (kind : TileKind) : State :=
  if 63 ≤ i.g.tl then s.stall i
  else
    let (id, s) := s.fresh
    let x := s.core i.core
    let o : TileOp :=
      { id := id, slot := i.slot, strand := i.n, pc := i.pc, em := i.em, kind := kind, spans := s.coreSpans i.core i.g.task.ctx }
    (s.setCore i.core { x with tileOps := x.tileOps ++ [o] }).retire i (i.g.count .tl id false) i.next false

/-- A tile number outside the allocation (R55, R269). -/
def Group.tileBad (g : Group) (n : BitVec 4) : Bool := decide (g.nt ≤ n.toNat)
/-- An accumulator number outside the allocation. -/
def Group.accumBad (g : Group) (n : BitVec 4) : Bool := decide (g.na ≤ n.toNat)
/-- A keep-mask number above 3. -/
def keepBad (n : Nat) : Bool := decide (4 ≤ n)
/-- A vector destination of a tile instruction: v63 is refused (R56, R269). -/
def Group.tileDestBad (g : Group) (d : Nat) : Bool := d == 63 || g.destBad d 1

/-- A tile-engine instruction without hints: its operand check and its operation. -/
def execTile (op : BitVec 8) (h : List Hint) (f : FmtX) (s : State) (bad : Issue → Bool) (kind : Issue → TileKind) :
    Host.Outcome State Fault Refusal :=
  perform h s (reservedSet op f.payload) (fun _ => {}) (fun _ => false) bad (fun i _ => i.notWhole) fun i s =>
    s.postTile i (kind i)

/-! ## TLD and TST (R272 to R274) -/

/-- Whether a descriptor's box breaks the limits of R272 or R273. -/
def tileBoxBad (d : Nat) (tr s4 strip : Bool) : Bool :=
  let ty := descType d
  if ty = 13 then true
  else if s4 then !(ty == 6 || ty == 7 || ty == 14) || descExt d 0 != 128 || decide (8192 < descCount d)
  else if tr then
    let n := typeBits ty / 8
    descRank d != 2 || !(n == 1 || n == 2) || decide (64 < descExt d 0) || decide (64 < descExt d 1 * n)
  else decide ((if strip then 256 else 4096) < descBytes d)

/-- The faults of TLD and TST: convergence, then the descriptor, then its box, refused as the descriptor is (R174, R268, R272; log entry 19). -/
def State.tileFault (s : State) (i : Issue) (b : Nat) (tr s4 strip rd wr : Bool) : Option Flt :=
  match i.notWhole with
  | some e => some e
  | none => s.descFault i b (fun t => t != 13) fun d =>
      if tileBoxBad d tr s4 strip then
        some { code := fcRecordInvalid, addr := i.g.sreg b }
      else s.boxFault i d (i.origin b) rd wr

/-- TLD (R272, R273). -/
def execTld (h : List Hint) (f : FmtX) (s : State) : Host.Outcome State Fault Refusal :=
  let b := f.s.toNat
  let tr := f.f.getLsbD 0
  let s4 := f.f.getLsbD 1
  let strip := f.f.getLsbD 2
  perform h s (reservedSet 0xD0 f.payload) (fun _ => {}) (fun _ => false)
    (fun i => i.g.tileBad f.fD || b % 4 != 0 || (tr && (s4 || strip)))
    (fun i s => s.tileFault i b tr s4 strip true false) fun i s =>
    s.withDesc i b fun d => s.postTile i (.tld f.fD.toNat (natWords d 8) (i.origin b) tr s4 strip)

/-- TST (R274). -/
def execTst (h : List Hint) (f : FmtX) (s : State) : Host.Outcome State Fault Refusal :=
  let b := f.s.toNat
  let tr := f.f.getLsbD 0
  let strip := f.f.getLsbD 2
  perform h s (reservedSet 0xD1 f.payload) (fun _ => {}) (fun _ => false)
    (fun i => i.g.tileBad f.fA || b % 4 != 0 || (tr && strip)) (fun i s => s.tileFault i b tr false strip false true)
    fun i s => s.withDesc i b fun d => s.postTile i (.tst f.fA.toNat (natWords d 8) (i.origin b) tr strip)

/-- TZERO (R275). -/
def execTzero (h : List Hint) (f : FmtX) (s : State) : Host.Outcome State Fault Refusal :=
  execTile 0xD2 h f s (fun i => i.g.tileBad f.fD) fun _ => .tzero f.fD.toNat

/-- TCVT (R282): f names the type, h and the transpose. -/
def execTcvt (h : List Hint) (f : FmtX) (s : State) : Host.Outcome State Fault Refusal :=
  let ty := bits f.f.toNat 3 0
  let hi := bits f.f.toNat 4 4
  perform h s (reservedSet 0xD3 f.payload) (fun _ => { xmod := xmRound ||| xmSat }) (fun _ => false)
    (fun i => i.g.tileBad f.fD || i.g.accumBad f.fA || decide (ty < 6) || decide (12 < ty)
      || (hi == 1 && decide (8 ≤ ty) && decide (ty ≤ 11)))
    (fun i _ => i.notWhole) fun i s =>
    let m := fpModeOf h
    s.postTile i (.tcvt f.fD.toNat f.fA.toNat ty hi (f.f.getLsbD 5) m.mode m.sat)

/-! ## Multiplying (R276 to R281) -/

/-- The types and MX of a multiply: the XIMM payload, e4m3 and e4m3 without one (R276). -/
def mmaTypes (h : List Hint) : Nat × Nat × Bool :=
  match ximmsOf h with
  | x :: _ => (bits x 3 0, bits x 7 4, bit x 8)
  | [] => (8, 8, false)

/-- Whether a payload's types break R276; sparse is MMAS. -/
def mmaTypesBad (h : List Hint) (sparse : Bool) : Bool :=
  let (ta, tb, mx) := mmaTypes h
  let small (t : Nat) : Bool := decide (8 ≤ t) && decide (t ≤ 11)
  (ximmsOf h).any (fun x => bits x 23 9 != 0)
    || !((ta == tb && (ta == 6 || ta == 7 || ta == 0) && !mx) || (small ta && small tb)
          || (ta == 12 && tb == 12 && !(sparse && mx)))

/-- The form of the multiplies (R269). -/
def mmaForm : Form := { ximm := 1 }

/-- Whether a multiply's registers or types are refused. -/
def Issue.mmaBad (i : Issue) (f : FmtX) (sparse : Bool) : Bool :=
  i.g.accumBad f.fD || i.g.tileBad f.fA || i.g.tileBad f.fB || mmaTypesBad i.h sparse

/-- The operation of MMA. -/
def mmaKind (h : List Hint) (f : FmtX) : TileKind :=
  let (ta, tb, mx) := mmaTypes h
  .mma f.fD.toNat f.fA.toNat f.fB.toNat ta tb mx

/-- MMA (R277). -/
def execMma (h : List Hint) (f : FmtX) (s : State) : Host.Outcome State Fault Refusal :=
  perform h s (reservedSet 0xD4 f.payload) (fun _ => mmaForm) (fun _ => false) (fun i => i.mmaBad f false)
    (fun i _ => i.notWhole) fun i s => s.postTile i (mmaKind h f)

/-- The first of the n-th MMAQs of a quad to have issued, if one has (R280). -/
def State.mmaqFirst (s : State) (c k n : Nat) : Option TileOp :=
  (s.core c).tileOps.find? fun o => o.slot / 4 == k / 4 && o.kind.mmaqNo == some n

/-- The types and MX of a multiply operation. -/
def TileKind.types : TileKind → Nat × Nat × Bool
  | .mma _ _ _ a b m => (a, b, m)
  | .mmaq _ _ _ a b m _ => (a, b, m)
  | .mmas _ _ _ a b m => (a, b, m)
  | _ => (0, 0, false)

/-- Whether a group runs no quad task: none at all, or a record in place (R253, R280). -/
def Issue.notQuad (i : Issue) : Bool := i.g.task.quad.isNone || !i.g.frames.isEmpty

/-- Whether MMAQ is refused beyond its fields: no quad, or types unlike the first's of its number (R280). -/
def State.mmaqUnlike (s : State) (i : Issue) : Bool :=
  i.notQuad ||
    (match s.mmaqFirst i.core i.slot i.g.mmaqs with
      | some o => o.kind.types != mmaTypes i.h
      | none => false)

/-- A fault at issue of the n-th MMAQ (R280): every group of the quad that has issued it gives it up, with those it issued after it, and raises
the same fault there; one that has not raises it when it comes to it. -/
def State.mmaqFault (s : State) (i : Issue) (e : Flt) : State :=
  let n := i.g.mmaqs
  let s1 := s.takeFault i.core i.slot i.n i.pc e
  ((taskSlots i.g i.slot).filter (· ≠ i.slot)).foldl (fun s1 j =>
    match (s.core i.core).tileOps.find? fun o => o.slot == j && o.kind.mmaqNo == some n with
    | some o => (s1.withdraw i.core j ((s1.core i.core).tileOps.filter fun y => y.slot == j && decide (o.id ≤ y.id) && y.kind.mmaqNo.isSome)).takeFault i.core j o.strand o.pc e
    | none =>
      let g := s1.group i.core j
      s1.setGroup i.core j { g with mmaqBad := g.mmaqBad ++ [(n, e.code)] }) s1

/-- MMAQ (R280): the fault that a partner's n-th raised comes first. -/
def execMmaq (h : List Hint) (f : FmtX) (s : State) : Host.Outcome State Fault Refusal :=
  match s.issue h with
  | none => .fault .noStrand
  | some i =>
    match i.g.mmaqBad.find? fun x => x.1 == i.g.mmaqs with
    | some x => .next (s.takeFault i.core i.slot i.n i.pc { code := x.2 })
    | none =>
    match i.fault (reservedSet 0xD5 f.payload) mmaForm false (i.mmaBad f false || s.mmaqUnlike i) (fun _ => i.notWhole) with
    | some e => .next (if i.notQuad then s.takeFault i.core i.slot i.n i.pc e else s.mmaqFault i e)
    | none =>
      let (ta, tb, mx) := mmaTypes h
      let n := i.g.mmaqs
      let i' := if 63 ≤ i.g.tl then i else { i with g := { i.g with mmaqs := n + 1 } }
      .next (s.postTile i' (.mmaq f.fD.toNat f.fA.toNat f.fB.toNat ta tb mx n))

/-- MMAS (R278): tB is even and tB + 1 allocated. -/
def execMmas (h : List Hint) (f : FmtX) (s : State) : Host.Outcome State Fault Refusal :=
  perform h s (reservedSet 0xD6 f.payload) (fun _ => mmaForm) (fun _ => false)
    (fun i => i.mmaBad f true || f.fB.toNat % 2 != 0 || decide (i.g.nt ≤ f.fB.toNat + 1)) (fun i _ => i.notWhole) fun i s =>
    let (ta, tb, mx) := mmaTypes h
    s.postTile i (.mmas f.fD.toNat f.fA.toNat f.fB.toNat ta tb mx)

/-- Whether a keep mask holds a block (R281): an index outside 0 to 63 is in none. -/
def keepHas (k b : DWord) : Bool := decide (b.toNat < 64) && k.getLsbD b.toNat

/-- MMAK (R281): MMA where the keep bit is set, else no effect. -/
def execMmak (h : List Hint) (f : FmtX) (s : State) : Host.Outcome State Fault Refusal :=
  perform h s (reservedSet 0xD7 f.payload) (fun _ => mmaForm) (fun _ => false) (fun i => i.mmaBad f false)
    (fun i _ => i.notWhole) fun i s =>
    if keepHas (i.g.kreg (bits f.f.toNat 1 0)) (i.g.sreg f.s.toNat) then s.postTile i (mmaKind h f)
    else s.retire i i.g i.next false

/-! ## Accumulator operations (R283 to R287) and SCOUT (R288) -/

/-- SCOUT (R288). -/
def execScout (h : List Hint) (f : FmtX) (s : State) : Host.Outcome State Fault Refusal :=
  execTile 0xD8 h f s (fun i => i.g.tileBad f.fA || i.g.tileBad f.fB || i.g.tileDestBad f.f.toNat) fun i =>
    .scout f.fA.toNat f.fB.toNat ((i.g.sreg f.s.toNat).truncate 32) f.f.toNat

/-- ARD (R283). -/
def execArd (h : List Hint) (f : FmtX) (s : State) : Host.Outcome State Fault Refusal :=
  execTile 0xDB h f s
    (fun i => i.g.accumBad f.fA || i.g.tileDestBad f.f.toNat || decide (64 ≤ (i.g.sreg f.s.toNat).toNat)) fun i =>
    .ard f.fA.toNat (i.g.sreg f.s.toNat).toNat f.f.toNat

/-- AROW (R284). -/
def execArow (h : List Hint) (f : FmtX) (s : State) : Host.Outcome State Fault Refusal :=
  execTile 0xDC h f s (fun i => i.g.accumBad f.fA || decide (1 < f.fB.toNat) || i.g.tileDestBad f.f.toNat) fun _ =>
    .arow f.fA.toNat f.fB.toNat f.f.toNat

/-- The lanes of a vector source read at issue. -/
def Group.lanes (g : Group) (n : Nat) : Lanes := Lanes.of fun l => g.vreg n l

/-- ASCALE (R285). -/
def execAscale (h : List Hint) (f : FmtX) (s : State) : Host.Outcome State Fault Refusal :=
  execTile 0xDD h f s (fun i => i.g.accumBad f.fD || i.g.srcBad f.f.toNat false) fun i =>
    .ascale f.fD.toNat (i.g.lanes f.f.toNat)

/-- AEXP (R286). -/
def execAexp (h : List Hint) (f : FmtX) (s : State) : Host.Outcome State Fault Refusal :=
  execTile 0xDE h f s (fun i => i.g.accumBad f.fD || i.g.srcBad f.f.toNat false) fun i =>
    .aexp f.fD.toNat (i.g.lanes f.f.toNat) ((i.g.sreg f.s.toNat).truncate 32)

/-- AZERO (R287). -/
def execAzero (h : List Hint) (f : FmtX) (s : State) : Host.Outcome State Fault Refusal :=
  execTile 0xDF h f s (fun i => i.g.accumBad f.fD) fun _ => .azero f.fD.toNat

/-! ## THRESH and ABLK (R289, R290) -/

/-- Whether x is at least r - theta as exact reals, false with a NaN (R289). -/
def threshMet (x r : Fl) (theta : Nat) : Bool :=
  if x.isNan || r.isNan then false
  else Fl.cmp x (((({} : Sum).add r).add (.fin true theta (-8))).total 0) != .lt

/-- vRef of THRESH: word bits [17:12] (R271). -/
def threshRef (f : FmtX) : Nat := f.fA.toNat % 4 * 16 + f.fB.toNat

/-- THRESH (R289). -/
def execThresh (h : List Hint) (f : FmtX) (s : State) : Host.Outcome State Fault Refusal :=
  perform h s (reservedSet 0xD9 f.payload) (fun _ => { ximm := 1 }) (fun _ => false)
    (fun i => keepBad f.fD.toNat || i.g.srcBad f.f.toNat false || i.g.srcBad (threshRef f) false) (fun _ _ => none) fun i s =>
    let b := (i.g.sreg f.s.toNat).toNat
    let theta := nth (ximmsOf h) 0
    let cond := (lanesOf i.em).any fun l =>
      threshMet (f32.value (i.g.vreg f.f.toNat l).toNat) (f32.value (i.g.vreg (threshRef f) l).toNat) theta
    let k := i.g.kreg f.fD.toNat
    let g := if i.em != 0 && decide (b < 64) then
        i.g.setK f.fD.toNat (if cond then k ||| (1#64 <<< b) else k &&& ~~~ (1#64 <<< b))
      else i.g
    s.retire i g i.next false

/-- Whether a block is visited under a mask parameter word and a keep mask (R290). -/
def ablkVisits (p : Nat) (k : DWord) (b : Nat) : Bool :=
  let qb := bits p 62 57
  ((List.range (bits p 51 48)).any (fun i => bits p (6 * i + 5) (6 * i) == b)
      || decide ((if b < qb then qb - b else b - qb) < bits p 55 52) || k.getLsbD b)
    && !(bit p 56 && decide (qb < b))

/-- The first visited block at or after a start, or -1 (R290). -/
def ablkNext (p : Nat) (k cursor : DWord) : DWord :=
  match firstBelow (fun b => decide (max cursor.toInt (-1) + 1 ≤ (b : Int)) && ablkVisits p k b) 64 with
  | some b => BitVec.ofNat 64 b
  | none => BitVec.allOnes 64

/-- ABLK (R290). -/
def execAblk (h : List Hint) (f : FmtX) (s : State) : Host.Outcome State Fault Refusal :=
  let p (i : Issue) := (i.g.sreg f.s.toNat).toNat
  perform h s (reservedSet 0xDA f.payload) (fun _ => {}) (fun _ => false)
    (fun i => keepBad f.fA.toNat || decide (8 < bits (p i) 51 48) || bit (p i) 63) (fun _ _ => none) fun i s =>
    s.retire i (i.g.setS f.f.toNat (ablkNext (p i) (i.g.kreg f.fA.toNat) (i.g.sreg f.f.toNat))) i.next false

end Sys2Proof.Machine
end

