-- ==== Sys2Proof/Machine/CopyEvents.lean ====
section
/-! DEFINITION. The copy engine's own steps (R184, R187 to R190, R213, R279) and the faults that engines meet at the memory side
(R95, R292, R293). -/
namespace Sys2Proof.Machine

/-! ## Faults of an engine's reads (R292, R293) -/

/-- Drops every queued and started operation of a slot's group in the engines; its counters retire them (R292). -/
def State.dropEngineOps (s : State) (c k : Nat) : State :=
  let x := s.core c
  let mineCmd (d : CopyCmd) : Option Nat := match d.owner with
    | .group j _ _ op => if j = k then some op else none
    | .kick l => (x.lists.find? fun y => y.id == l).bind fun y => match y.owner with
      | .group j _ _ op => if j = k then some op else none
      | _ => none
    | .staging _ => none
  let mineList (l : CopyList) : Option Nat := match l.owner with
    | .group j _ _ op => if j = k then some op else none
    | _ => none
  let ids := x.cmds.filterMap mineCmd ++ x.lists.filterMap mineList ++ (x.tileOps.filter fun o => o.slot == k).map (·.id)
  let s := s.setCore c { x with
    cmds := x.cmds.filter fun d => (mineCmd d).isNone
    lists := x.lists.filter fun l => (mineList l).isNone
    tileOps := x.tileOps.filter fun o => o.slot != k }
  let g := s.group c k
  s.setGroup c k { g with outst := g.outst.map fun y => if ids.contains y.id then { y with done := true } else y }

/-- The tile and accumulator blocks of a core whose slots a test accepts pass to SCRUB (R266, R292, R295). -/
def CoreState.scrubBlocks (x : CoreState) (mine : Nat → Bool) : CoreState :=
  { x with blocks := x.blocks.map fun b =>
      if (b.cls = 2 ∨ b.cls = 3) ∧ b.slot < 32 ∧ mine b.slot = true then { b with state := .scrub, slot := 32, busy := [] } else b }

/-- Whether a task whose tile state is lost is relaunched (R292, R293): IDEM, and fewer relaunches than TLE_CFG allows. -/
def State.relaunches (s : State) (c : Nat) (g : Group) : Bool :=
  recIdem g.task.record && decide (g.task.relaunches < s.fld (.tleCfg c) 34 32)

/-- Whether the loss of its tile state decides how a group's task ends: nothing else has, but a plain end of its lanes. -/
def Group.lost (g : Group) : Bool := g.ending.isNone || g.ending == some .done

/-- A task whose tile state is lost ends as a whole (R292, R293, R295): its record, then its relaunch or its failure by its policy, where
parking for the debugger ends it too; a group that an earlier fault has parked ends now. An uncorrectable error ends the fault domain besides,
and its own task fails with the error's code (R310, R315, R366; log entry 115). -/
def State.loseTask (s : State) (c k strand : Nat) (pc : DWord) (f : Flt) : State :=
  let g := s.group c k
  let again := s.relaunches c g && g.lost && f.code != fcUncorrectable
  let r := { s.groupRecord c k strand pc f with suppressed := g.faulted, relaunched := again }
  let seq := s.nextSeq g.task.ctx
  let s := s.writeRecord g.task.ctx r
  let s := (endSlots g k).foldl (fun s j => s.setGroup c j { s.group c j with faulted := true }) s
  let s := if !g.lost then s
    else if again then (s.endTask c k .relaunch).bump (.tleStat c) 31 16 1
    else if g.faulted || s.policyOf g == 2 || g.ending.isSome then s.endTask c k (.failed f.code)
    else s.applyPolicy c k r seq
  if f.code = fcUncorrectable then s.endDomain g.task.ktag else s

/-- A memory-side fault of the reads of a TLD, COPYT or MDLD (R292). -/
def State.operandFault (s : State) (c k strand : Nat) (pc : DWord) (f : Flt) : State :=
  let g := s.group c k
  let ks := endSlots g k
  let s := ks.foldl (fun s j => s.dropEngineOps c j) s
  (s.setCore c ((s.core c).scrubBlocks ks.contains)).loseTask c k strand pc f

/-- Whether a memory-side fault code is one of those that R292 speaks of. -/
def operandCode (code : Nat) : Bool := code == fcLeaseExpired || code == fcPermission || code == fcUncorrectable

/-! ## Commands -/

/-- The list that a command is an entry of. -/
def CoreState.listOf (x : CoreState) (cmd : CopyCmd) : Option CopyList :=
  match cmd.owner with
  | .kick l => x.lists.find? fun y => y.id == l
  | _ => none

/-- The instruction that a command runs for: its slot, strand and address, if a group issued it. -/
def State.cmdIssuer (s : State) (c : Nat) (cmd : CopyCmd) : Option (Nat × Nat × DWord) :=
  match cmd.owner with
  | .group k n pc _ => some (k, n, pc)
  | _ => ((s.core c).listOf cmd).bind fun l => match l.owner with
    | .group k n pc _ => some (k, n, pc)
    | _ => none

/-- What a pointer reaches for a command, through the spans held at its issue: the group's, or under the list's context from the core (R189,
R330). -/
def State.cmdFind (c k : Nat) (cmd : CopyCmd) (s : State) (p : Nat) : Option Target :=
  s.heldTarget cmd.spans c k { ctx := cmd.ctx, ktag := cmd.ktag } p

/-- The slot whose lane-private memory a command's pointers name; none for a command without a group. -/
def State.cmdSlot (s : State) (c : Nat) (cmd : CopyCmd) : Nat := ((s.cmdIssuer c cmd).map (·.1)).getD 64

/-- Whether a command runs for a task, whose accesses a draining page still serves (R341). -/
def State.cmdTask (s : State) (c : Nat) (cmd : CopyCmd) : Bool :=
  (s.cmdIssuer c cmd).isSome || (match cmd.owner with | .staging _ => true | _ => false)

/-- Changes a command of a core. -/
def State.onCmd (s : State) (c id : Nat) (f : CopyCmd → CopyCmd) : State :=
  let x := s.core c
  s.setCore c { x with cmds := x.cmds.map fun d => if d.id = id then f d else d }

/-- A group's instruction that has ended in an engine is done (R92). -/
def State.engineDone (s : State) (c k op : Nat) : State :=
  let g := s.group c k
  s.setGroup c k { g with outst := g.outst.map fun y => if y.id = op then { y with done := true } else y }

/-- A packet's work is over, as the front end sees it. -/
def State.packetDone (s : State) (q p : Nat) : State :=
  let x := Bank.lookD s.queues q {}
  { s with queues := Bank.put s.queues q { x with started := x.started.map fun y => if y.id = p then { y with finished := true } else y } }

/-- A copy list ends (R188, R189): its instruction is done, its registers are no longer busy, or its packet's work is over. -/
def State.endList (s : State) (c : Nat) (l : CopyList) : State :=
  let x := s.core c
  let s := s.setCore c { x with lists := x.lists.filter fun y => y.id != l.id }
  match l.owner with
  | .group k _ _ op => s.engineDone c k op
  | .regs => s.setFld (.cpeStat c) 0 0 0
  | .packet q p => (s.setFld (.cpeStat c) 0 0 0).packetDone q p

/-- A list is over once it has come to its end or was stopped and no entry is at work (R188, R189). -/
def State.listCheck (s : State) (c id : Nat) : State :=
  match (s.core c).lists.find? fun y => y.id == id with
  | none => s
  | some l => if (l.stopped ∨ l.next = l.count) ∧ l.running = [] then s.endList c l else s

/-- Changes a list of a core. -/
def State.onList (s : State) (c id : Nat) (f : CopyList → CopyList) : State :=
  let x := s.core c
  s.setCore c { x with lists := x.lists.map fun y => if y.id = id then f y else y }

/-- An entry of a list is over (R188, R189): retired, and counted where no task started the list, unless it met a fault. -/
def State.entryOver (s : State) (c list cmd : Nat) (ok : Bool) : State :=
  match (s.core c).lists.find? fun y => y.id == list with
  | none => s
  | some l =>
    let n := if ok then l.retired + 1 else l.retired
    let s := s.onList c list fun y => { y with running := y.running.filter (· ≠ cmd), retired := n }
    (match l.owner with
      | .group _ _ _ _ => s
      | _ => s.setFld (.cpeStat c) 31 16 n).listCheck c list

/-- A staging command ends: its operand slot is written (R241). -/
def CoreState.slotStaged (x : CoreState) (rec : Nat) : CoreState :=
  let f (r : Rec) : Rec := if r.id = rec then { r with toStage := r.toStage.drop 1 } else r
  { x with deque := x.deque.map f, inbound := x.inbound.map f
           binding := x.binding.map fun b => match b with
             | .record r ks => .record (f r) ks
             | y => y }

/-- A command whose segments have all been served ends (R92, R185). -/
def State.cmdCheck (s : State) (c id : Nat) : State :=
  let x := s.core c
  match x.cmds.find? fun d => d.id == id with
  | none => s
  | some d =>
    if d.segs.all (·.landed) then
      let s := s.setCore c { x with cmds := x.cmds.filter fun y => y.id != id }
      match d.owner with
      | .group k _ _ op => s.engineDone c k op
      | .kick l => s.entryOver c l id (d.segs.all fun g => !g.kept)
      | .staging r => s.setCore c ((s.core c).slotStaged r)
    else s

/-- A list meets a fault at an entry (R95, R188, R189, R213): its task's, imprecisely, or a record without a task and ERR, with a page that no
lease holds found as PERMISSION. Nothing further of the list starts; the entries at work go on. -/
def State.listFault (s : State) (c : Nat) (l : CopyList) (code : Nat) (addr : DWord) : State :=
  let s := s.onList c l.id fun y => { y with stopped := true }
  (match l.owner with
    | .group k n pc _ => s.takeFault c k n pc { code := code, kind := 2, mask := l.em, addr := addr }
    | _ => (s.regionFault l.ctx { code := if code = fcLeaseExpired then fcPermission else code, kind := 3, core := c, addr := addr }).setFld
        (.cpeStat c) 1 1 1).listCheck c l.id

/-- A fault that a command meets at the memory side (R95, R188, R189, R213, R292); reads says that it met it in the reads of its source.
Staging's faults stand in Machine/TaskEvents.lean: none here. -/
def State.cmdFault (s : State) (c : Nat) (cmd : CopyCmd) (reads : Bool) (code : Nat) (addr : DWord) : State :=
  match (s.core c).listOf cmd with
  | some l => s.listFault c l code addr
  | none =>
    match s.cmdIssuer c cmd with
    | some (k, n, pc) =>
      let f : Flt := { code := code, kind := 2, mask := cmd.em, addr := addr }
      if reads && cmd.kind != .range && operandCode code then s.operandFault c k n pc f else s.takeFault c k n pc f
    | none => s

/-! ## Segments (R184, R187, R190) -/

/-- The bytes of a segment of a box: those of its elements from an offset of the dense box on. -/
def State.boxPart (s : State) (find : State → Nat → Option Target) (c d : Nat) (origin : List Int) (off size : Nat) : Served × Nat × State :=
  let w := typeBits (descType d)
  let first := 8 * off / w
  let last := min (descCount d) ((8 * (off + size) + w - 1) / w)
  let (r, v, s) := s.boxRead find c d origin (last - first) first
  (r, (v >>> (8 * off)) % 2 ^ (8 * size), s)

/-- The n source bytes of a segment from an offset on. -/
def State.segRead (s : State) (c : Nat) (cmd : CopyCmd) (g : Segment) (o n : Nat) : Served × Nat × State :=
  let find := State.cmdFind c (s.cmdSlot c cmd) cmd
  match cmd.kind with
  | .box d origin => s.boxPart find c (wordsNat d) origin (g.src.toNat + o) n
  | _ => s.rangeRead find (s.cmdTask c cmd) c (rangePieces (n / 65536 + 2) (g.src.toNat + o) n)

/-- A range cut at lines of 128 bytes. -/
def linePieces : Nat → Nat → Nat → List (Nat × Nat)
  | 0, _, _ => []
  | fuel + 1, p, n =>
    if n = 0 then []
    else
      let k := min n (128 - p % 128)
      (p, k) :: linePieces fuel (p + k) (n - k)

/-- Whether every page of a destination can be written now. -/
def State.destReady (s : State) (find : State → Nat → Option Target) (task : Bool) (c : Nat) : List (Nat × Nat) → Served × State
  | [] => (.done, s)
  | (p, _) :: t =>
    match find s p with
    | none => (.bad fcPermission, s)
    | some x =>
      match s.serve x task true c with
      | (.done, s) => s.destReady find task c t
      | r => r

/-- Whether the L2 and the hold have room for a destination (R16, R364). -/
def State.destRoom (s : State) (find : State → Nat → Option Target) (ps : List (Nat × Nat)) : Bool :=
  s.roomFor (ps.filterMap fun (p, n) => (find s p).map fun t => (t, n))

/-- Whether a pointer's line is registered, so that the engine writes no byte of it (R213). -/
def State.lineGuarded (s : State) (find : State → Nat → Option Target) (p : Nat) : Bool :=
  match find s p with
  | some x => s.protects x false
  | none => false

/-- Writes the lines of a destination that no barrier guards; answers whether one was guarded (R213). -/
def State.writeLines (s : State) (find : State → Nat → Option Target) : List (Nat × Nat) → Nat → Bool × State
  | [], _ => (false, s)
  | (p, n) :: t, v =>
    if s.lineGuarded find p then
      let s := match find s p with
        | some x => s.countProtect x
        | none => s
      (true, (s.writeLines find t (v / 2 ^ (8 * n))).2)
    else (s.rangeWrite find [(p, n)] v).writeLines find t (v / 2 ^ (8 * n))

/-- Who breaks a barrier when a command's add wraps (R216). -/
def State.cmdBreaker (s : State) (c : Nat) (cmd : CopyCmd) : Breaker :=
  if (s.cmdIssuer c cmd).isSome then { ctx := cmd.ctx, region := s.regionOf cmd.ktag, ktag := cmd.ktag } else { ctx := cmd.ctx }

/-- The add of a written segment's byte count to the command's barrier (R190): a non-returning add of the copy engine, a release at the
command's scope, on its way from the core (R205). -/
def State.barrierBytes (s : State) (c : Nat) (cmd : CopyCmd) (b n : Nat) : State :=
  match State.cmdFind c (s.cmdSlot c cmd) cmd s b with
  | none => s
  | some t =>
    let (id, s) := s.fresh
    let (k, n', pc) := (s.cmdIssuer c cmd).getD (64, 0, 0)
    let a : Access :=
      { lane := 64, target := t, size := 8, data := n, place := coreRouter c, goal := s.goalOf t, ptr := BitVec.ofNat 64 b, whole := true }
    { s with ops := s.ops ++ [
        { id := id, core := c, slot := k, strand := n', task := (s.group c k).task.id, pc := pc, ctx := cmd.ctx, ctr := .cp, kind := .amon 0
          release := true, scope := cmd.scope, uid := (s.group c k).uid, em := cmd.em, ord := 1, engine := some (s.cmdBreaker c cmd), accs := [a] }] }

/-- Marks a segment served, with a fault or without; the engine's next turn is another command's (R184). -/
def State.landed (s : State) (c id n : Nat) (bad : Bool) : State :=
  let s := s.onCmd c id fun d => { d with segs := d.segs.modify n fun g => { g with landed := true, kept := bad } }
  let x := s.core c
  (s.setCore c { x with cmds := (x.cmds.filter fun d => d.id != id) ++ x.cmds.filter fun d => d.id == id }).cmdCheck c id

/-- A command's turn passes (R184): what its next segment needs is not there yet, a choice of the model (log entry 94). -/
def State.passTurn (s : State) (c id : Nat) : State :=
  let x := s.core c
  s.setCore c { x with cmds := (x.cmds.filter fun d => d.id != id) ++ x.cmds.filter fun d => d.id == id }

/-- Whether an MDLD still waits: an MMAS that its group issued before it on the same accumulator has not read the slot (R279). -/
def State.mdldWaits (s : State) (c k : Nat) (cmd : CopyCmd) : Bool :=
  match cmd.kind with
  | .slot a => (s.core c).tileOps.any fun o => o.slot == k && !o.started && decide (o.id < cmd.id) &&
      (match o.kind with | .mmas x _ _ _ _ _ => x == a | _ => false)
  | _ => false

/-- The bytes of an accumulator's sparsity slot from a number (R279). -/
def Accum.loadSlot (a : Accum) (off n v : Nat) : Accum :=
  { a with slot := (List.range n).foldl (fun b o => Bank.put b (off + o) (byteOf v o)) a.slot }

/-- The group's instruction that a command runs for: its slot and outstanding number. -/
def State.cmdOp (s : State) (c : Nat) (cmd : CopyCmd) : Option (Nat × Nat) :=
  match cmd.owner with
  | .group k _ _ op => some (k, op)
  | _ => ((s.core c).listOf cmd).bind fun l => match l.owner with
    | .group k _ _ op => some (k, op)
    | _ => none

/-- n bytes of a segment written from an offset on, which the issuing group sees once it acquires (R203); and whether a line was guarded. -/
def State.segBytes (s : State) (c : Nat) (cmd : CopyCmd) (g : Segment) (o n v : Nat) : Bool × State :=
  let find := State.cmdFind c (s.cmdSlot c cmd) cmd
  let (bad, t) := s.writeLines find (linePieces (n / 128 + 2) (g.dst.toNat + o) n) v
  (bad, match s.cmdOp c cmd with
    | some (k, op) => t.hides s c k op find [(g.dst.toNat + o, n)]
    | none => t)

/-- A segment of which every byte has been written or refused: its barrier's add (R190), or the fault of a protected line (R213). -/
def State.segEnds (s : State) (c : Nat) (cmd : CopyCmd) (n : Nat) (g : Segment) : State :=
  if g.kept then (s.cmdFault c cmd false fcBarrierProtect g.dst).landed c cmd.id n true
  else (match cmd.barrier with
    | some b => s.barrierBytes c cmd b.toNat g.size
    | none => s).landed c cmd.id n false

/-- The write of the next m bytes of a segment, all of whose bytes have been read. -/
def State.segWrite (s : State) (c : Nat) (cmd : CopyCmd) (n : Nat) (g : Segment) (m : Nat) : State :=
  let k := s.cmdSlot c cmd
  let find := State.cmdFind c k cmd
  let v := g.bytes / 2 ^ (8 * g.put) % 2 ^ (8 * m)
  let go (s : State) (bad : Bool) : State :=
    let g' := { g with put := g.put + m, kept := g.kept || bad }
    if g'.put = g.size then s.segEnds c cmd n g' else s.onCmd c cmd.id fun d => { d with segs := d.segs.modify n fun _ => g' }
  match cmd.kind with
  | .slot a =>
    let y := s.group c k
    go (s.setGroup c k (y.setAccum a ((y.accum a).loadSlot (g.dst.toNat + g.put) m v))) false
  | _ =>
    match s.destReady find (s.cmdTask c cmd) c (rangePieces (m / 65536 + 2) (g.dst.toNat + g.put) m) with
    | (.wait, s) => s
    | (.bad code, s) => (s.cmdFault c cmd false code g.dst).landed c cmd.id n true
    | (.done, s) =>
      if s.destRoom find (rangePieces (m / 65536 + 2) (g.dst.toNat + g.put) m) then
        let (bad, s) := s.segBytes c cmd g g.put m v; go s bad
      else s

/-- The segment that a core's copy engine has begun and not finished. -/
def CoreState.midSegment (x : CoreState) : Option (Nat × Nat) :=
  x.cmds.findSome? fun d => (d.segs.findIdx? fun g => !g.landed && decide (0 < g.got)).map fun n => (d.id, n)

/-- Whether the copy engine carries a compaction move (R85, R184). -/
def CoreState.movingBlock (x : CoreState) : Bool := x.blocks.any fun b => b.state == .moving && b.slot != 33

/-- Whether a segment's turn has come (R184): it has begun, or no other has, the engine carries no compaction move, and its command is the next
one in turn. -/
def CoreState.segTurn (x : CoreState) (id n : Nat) : Bool :=
  match x.midSegment with
  | some m => m == (id, n)
  | none => !x.movingBlock && (x.cmds.head?.map (·.id)) == some id

/-- Whether a command's pointer leads to a peer part. -/
def State.cmdPeer (s : State) (c : Nat) (cmd : CopyCmd) (p : Nat) : Bool :=
  match State.cmdFind c (s.cmdSlot c cmd) cmd s p with
  | some (.peer _ _ _) => true
  | _ => false

/-- Whether a segment's bytes come from a peer part. -/
def State.segPeer (s : State) (c : Nat) (cmd : CopyCmd) (g : Segment) : Bool :=
  match cmd.kind with
  | .box d _ => s.cmdPeer c cmd (descBase (wordsNat d))
  | _ => s.cmdPeer c cmd g.src.toNat

/-- Whether a segment's bytes go to a peer part. -/
def State.segToPeer (s : State) (c : Nat) (cmd : CopyCmd) (g : Segment) : Bool :=
  match cmd.kind with
  | .slot _ => false
  | _ => s.cmdPeer c cmd g.dst.toNat

/-- Whether a command moves a segment in one turn: an MDLD does, so that an MMAS finds each row whole (R279). -/
def CopyCmd.rowsWhole (d : CopyCmd) : Bool := match d.kind with
  | .slot _ => true
  | _ => false

/-- COPY_SEGMENT (R184, R187, R190, R279): the next bytes of a segment, as many as the turn says or all, are read or, once all have been,
written, and the segment is counted; the copy of its bytes is no atomic step (R192). A page that is not resident holds it back; with the flag a
peer refuses (log entry 24). -/
def State.copySegment (s : State) (c id n : Nat) : State :=
  match (s.core c).cmds.find? fun d => d.id == id with
  | none => s
  | some cmd =>
    match cmd.segs[n]? with
    | none => s
    | some g =>
      let staging := match cmd.owner with | .staging _ => true | _ => false
      let part (left : Nat) : Nat := if s.arg.size = 0 || cmd.rowsWhole then left else min s.arg.size left
      if g.landed || !(s.core c).segTurn id n then s
      else if s.mdldWaits c (s.cmdSlot c cmd) cmd then s.passTurn c id
      else if s.arg.flag && g.got < g.size && s.segPeer c cmd g then
        (if staging then s.passTurn c id else (s.cmdFault c cmd true s.peerRefusal g.src).landed c cmd.id n true)
      else if s.arg.flag && s.segToPeer c cmd g then (s.cmdFault c cmd false s.peerRefusal g.dst).landed c cmd.id n true
      else if g.got < g.size then
        let m := part (g.size - g.got)
        match s.segRead c cmd g g.got m with
        | (.wait, _, s) => if g.got = 0 then s.passTurn c id else s
        | (.bad code, _, s) =>
          if staging then (if g.got = 0 then s.passTurn c id else s) else (s.cmdFault c cmd true code g.src).landed c cmd.id n true
        | (.done, v, s) =>
          let g' := { g with got := g.got + m, bytes := g.bytes + v * 2 ^ (8 * g.got) }
          let s := s.onCmd c id fun d => { d with segs := d.segs.modify n fun _ => g' }
          if s.arg.size = 0 || cmd.rowsWhole then s.segWrite c cmd n g' g.size else s
      else s.segWrite c cmd n g (part (g.size - g.put))

/-- COPY_SEGMENT. -/
def execCopySegment (s : State) : Host.Outcome State Fault Refusal := .next (s.copySegment s.arg.core s.arg.id s.arg.acc)

/-! ## Copy lists (R188, R189) -/

/-- What a list's entry words break before its pointers: non-zero zero fields, overlapping ranges (R186, R188). Without bit 160 the barrier's
pointer is not looked at (log entry 118). -/
def entryCode (v : Nat) : Nat :=
  if bit v 163 || bits v 191 167 != 0 then fcRecordInvalid
  else if rangesOverlap (bits v 63 0) (bits v 127 64) (bits v 159 128) then fcIllegalOperand
  else 0

/-- The first fault of an entry's pointers: the source range, the destination range, the barrier (R168, R186, R210). -/
def State.entryPtrs (s : State) (c : Nat) (g : Group) (leased : Bool) (v : Nat) : Nat × Nat :=
  let leases := s.leaseSet g.task
  let n := bits v 159 128
  let step (p size align : Nat) (rd wr : Bool) : Nat :=
    if size = 0 then 0 else s.ptrStep c g leases { size := size, align := align, rd := rd, wr := wr, whole := true, leased := leased } p
  let src := step (bits v 127 64) n 1 true false
  let dst := step (bits v 63 0) n 1 false true
  let bar := bits v 255 192
  let barSpace := ptrSpace bar == 0 || ptrSpace bar == 4 || ptrSpace bar == 6
  let barCode := if bit v 160 = false then 0
    else if tagBad bar true then fcSpace
    else if bar % 128 != 0 then fcAlignment
    else if !barSpace then fcPermission
    else let k := step bar 8 128 true true; if k = 0 then 0 else stepCode k
  if src ≠ 0 then (stepCode src, bits v 127 64)
  else if dst ≠ 0 then (stepCode dst, bits v 63 0)
  else (barCode, bar)

/-- The group as which a list's entries are checked. -/
def State.listGroup (s : State) (c : Nat) (l : CopyList) : Group × Nat × Bool :=
  match l.owner with
  | .group k _ _ _ => (s.group c k, k, true)
  | _ => ({ task := { ctx := l.ctx } }, 64, false)

/-- An entry that has been read starts, or faults; one that names no scope takes KICK's (R185, R188, log entry 95). -/
def State.startEntry (s : State) (c : Nat) (l : CopyList) (v : Nat) (p : DWord) : State :=
  let (g, k, leased) := s.listGroup c l
  let code := entryCode v
  if code ≠ 0 then s.listFault c l code p
  else match s.entryPtrs c g leased v with
    | (0, _) =>
      let n := bits v 159 128
      let segs := segments (bits v 63 0) (bits v 127 64) n
      let find (s : State) (p : Nat) : Option Target := s.heldTarget l.spans c k g.task p
      if bit v 162 && !l.running.isEmpty then s
      else if (s.piecesIn find (cmdRanges .range segs)).any fun (n, ia) => s.pageAwaits n ia then s
      else
        let (id, s) := s.fresh
        let cmd : CopyCmd :=
          { id := id, owner := .kick l.id, ctx := l.ctx, ktag := l.ktag, kind := .range, segs := segs, em := l.em, spans := l.spans
            scope := if bits v 166 164 = 0 then l.scope else bits v 166 164
            barrier := if bit v 160 then some (BitVec.ofNat 64 (bits v 255 192)) else none }
        let s := s.onList c l.id fun y => { y with next := y.next + 1, running := y.running ++ [id] }
        let x := s.core c
        let s := s.setCore c { x with cmds := x.cmds ++ [cmd] }
        if segs.isEmpty then s.cmdCheck c id else s
    | (code, a) => s.listFault c l code (BitVec.ofNat 64 a)

/-- COPY_LIST_ENTRY (R188, R189): the engine reaches the next entry of a list, reads it and checks it. -/
def State.listEntry (s : State) (c id : Nat) : State :=
  match (s.core c).lists.find? fun y => y.id == id with
  | none => s
  | some l =>
    if l.stopped ∨ l.count ≤ l.next then s
    else
      let p := (l.base.toNat + 32 * l.next) % 2 ^ 64
      let pw := BitVec.ofNat 64 p
      let (g, k, leased) := s.listGroup c l
      let step := s.ptrStep c g (s.leaseSet g.task) { size := 32, align := 32, rd := true, whole := true, leased := leased } p
      if step ≠ 0 then s.listFault c l (stepCode step) pw
      else match s.heldTarget l.spans c k g.task p with
        | none => s.listFault c l fcPermission pw
        | some t =>
          match s.serve t leased false c with
          | (.wait, s) => s
          | (.bad code, s) => s.listFault c l code pw
          | (.done, s) =>
            let (v, s) := (s.settleAt t 32).fetchT t 32
            s.startEntry c l v pw

/-- COPY_LIST_ENTRY. -/
def execCopyListEntry (s : State) : Host.Outcome State Fault Refusal := .next (s.listEntry s.arg.core s.arg.id)

/-- Starts a list of a core without a task: the registers are busy, and DONE counts from zero (R189). -/
def State.startList (s : State) (c : Nat) (owner : ListOwner) (ctx : Nat) (base : DWord) (count : Nat) : State :=
  let (id, s) := s.fresh
  let x := s.core c
  let s := s.setCore c { x with lists := x.lists ++ [{ id := id, owner := owner, ctx := ctx, ktag := 0, base := base, count := count
                                                       spans := s.coreSpans c ctx }] }
  (s.setFld (.cpeStat c) 0 0 1).setFld (.cpeStat c) 31 16 0

/-- CPE_KICK (R189): a write of the kick register. -/
def State.cpeKick (s : State) (c : Nat) (v : DWord) : State :=
  let n := bits v.toNat 15 0
  if n = 0 then s
  else if s.fld (.cpeStat c) 0 0 = 1 then s.setFld (.cpeStat c) 2 2 1
  else s.startList c .regs (bits v.toNat 21 16) (s.reg (.cpeList c)) n

/-- CPE_KICK. -/
def execCpeKick (s : State) : Host.Outcome State Fault Refusal := .next (s.cpeKick s.arg.core s.arg.v)

end Sys2Proof.Machine
end

