-- ==== Sys2Proof/Machine/Flow.lean ====
section
/-! DEFINITION. Row 0x0 and BKPT: transfers, tokens, waits, service requests (R80 to R82, R100 to R113). -/
namespace Sys2Proof.Machine

/-! ## Program order across arrivals (R199) -/

/-- Changes the program orders of the accesses of a group. -/
def State.reown (s : State) (c k : Nat) (f : Access → List Owner) : State :=
  { s with ops := s.ops.map fun o =>
      if o.core = c ∧ o.slot = k then { o with accs := o.accs.map fun a => { a with owners := f a } } else o }

/-- A strand arrives at a token, whole or in part: its accesses, but for those of lanes that have exited, are ordered before
those of the strand that the token forms (R199). -/
def State.ownArrive (s : State) (c k n u : Nat) (whole : Bool) (exited : DWord) : State :=
  s.reown c k fun a =>
    if a.owners.contains (.strand n) then
      let rest := if whole then a.owners.filter (· ≠ .strand n) else a.owners
      if a.lane < 64 && exited.getLsbD a.lane then rest else .token u :: rest
    else a.owners
/-- A strand that ends by exit leaves its accesses in no order of it (R199). -/
def State.ownExit (s : State) (c k n : Nat) : State := s.reown c k fun a => a.owners.filter (· ≠ .strand n)
/-- A token forms a strand, which takes over the accesses of those that arrived (R199). -/
def State.ownForm (s : State) (c k j n : Nat) : State :=
  s.reown c k fun a => a.owners.map fun w => if w = .token j then .strand n else w

/-! ## Retiring a transfer -/

/-- Retires a flow instruction: its strand, if it is still one, begins a fresh run at an address; a group whose last lane has
exited drains, and one that the debugger stepped is frozen no more (R58, R75, R82, R98). -/
def State.flow (s : State) (i : Issue) (g : Group) (pc : DWord) : State :=
  if (Bank.look g.strands i.n).isSome then s.retire i g pc true
  else
    let s := s.setGroup i.core i.slot g
    let s := if g.noneWaits then s.progress g.task.ktag else s
    if g.exited = BitVec.allOnes 64 then
      let x := s.slot i.core i.slot
      let s := s.setSlot i.core i.slot (x.endWith .done)
      if x.state = .frozen then s.thaw g.task.ktag else s
    else s

/-- The taken side of a transfer: it may issue from the second port cycle after it (R380). -/
def State.transfer (s : State) (i : Issue) (g : Group) (pc : DWord) : State :=
  let t := s.flow i g pc
  let h := t.group i.core i.slot
  t.setGroup i.core i.slot (h.setStrand i.n { h.strand i.n with notBefore := s.time + 4 })

/-- The predicate of a branch, inverted by neg (R50). -/
def Group.pred (g : Group) (f : FmtB) : DWord := if f.neg = 1 then ~~~ g.preg f.p.toNat else g.preg f.p.toNat

/-- The target of a format B word (R50). -/
def Issue.rel (i : Issue) (f : FmtB) : DWord := i.addr + 4 * f.off.signExtend 64

/-- The form of an instruction that accepts RUN alone. -/
def bare : Form := {}

/-- NOP (R101). -/
def execNop (h : List Hint) (f : FmtC) (s : State) : Host.Outcome State Fault Refusal :=
  simple h s 0x00 f.payload bare fun i s => s.retire i i.g i.next false

/-- What a branch divides (R80): the lanes that take it and those that do not. -/
def Issue.taken (i : Issue) (f : FmtB) : DWord × DWord := (i.em &&& i.g.pred f, i.em &&& ~~~ i.g.pred f)

/-- The faults of BRA (R80, R102). -/
def Issue.braFault (i : Issue) (f : FmtB) : Option Flt :=
  let (t, u) := i.taken f
  if t = 0 ∨ u = 0 then none
  else if f.uni = 1 then some { code := fcUniformity }
  else if i.g.freeStrand.isNone && i.g.freeToken.isNone then some { code := fcTokenOverflow }
  else none

/-- A divided strand (R80): a new strand, which may issue from the second port cycle after the branch (R380), or a deferred entry where all eight numbers are in use. -/
def Issue.split (i : Issue) (t : DWord) (target : DWord) (time : Nat) : Group :=
  let x := i.g.strand i.n
  let rest := i.g.setStrand i.n { x with owned := x.owned &&& ~~~t, em := x.em &&& ~~~t }
  match i.g.freeStrand with
  | some n => rest.setStrand n { pc := target, owned := t, em := t, token := x.token, since := time + 2, notBefore := time + 4 }
  | none =>
    match i.g.freeToken with
    | some j =>
      { rest.setToken j { kind := .deferred, cont := target, mask := t, parent := x.token, maker := some i.n, order := i.g.made }
        with made := i.g.made + 1 }
    | none => i.g

/-- BRA (R80, R102). -/
def execBra (h : List Hint) (f : FmtB) (s : State) : Host.Outcome State Fault Refusal :=
  perform h s (reservedSet 0x01 f.payload) (fun _ => bare) (fun _ => false) (fun _ => false)
    (fun i _ => i.braFault f) fun i s =>
    let (t, u) := i.taken f
    if i.em = 0 then (if i.g.pred f = BitVec.allOnes 64 then s.transfer i i.g (i.rel f) else s.flow i i.g i.next)
    else if u = 0 then s.transfer i i.g (i.rel f)
    else if t = 0 then s.flow i i.g i.next
    else s.flow i (i.split t (i.rel f) s.time) i.next

/-- The fault of a transfer to an address that is no multiple of 4 (R47). -/
def targetFault (t : DWord) : Option Flt :=
  if t.toNat % 4 = 0 then none else some { code := fcAlignment, addr := t }

/-- BRX (R102). -/
def execBrx (h : List Hint) (f : FmtC) (s : State) : Host.Outcome State Fault Refusal :=
  perform h s (reservedSet 0x02 f.payload) (fun _ => bare) (fun _ => false) (fun _ => false)
    (fun i _ => targetFault (i.g.sreg f.sa.toNat)) fun i s => s.transfer i i.g (i.g.sreg f.sa.toNat)

/-- The fault of an instruction that needs a pool entry (R78). -/
def poolFault (i : Issue) : Option Flt := if i.g.freeToken.isNone then some { code := fcTokenOverflow } else none

/-- Pushes a call token and transfers the strand (R79, R103). -/
def State.call (s : State) (i : Issue) (target : DWord) : State :=
  match i.g.freeToken with
  | some j => s.transfer i (i.g.pushToken i.n j .call i.next) target
  | none => s

/-- CALL (R103). -/
def execCall (h : List Hint) (f : FmtB) (s : State) : Host.Outcome State Fault Refusal :=
  perform h s (reservedSet 0x03 f.payload) (fun _ => bare) (fun _ => false) (fun _ => f.p != 15 || f.neg == 1)
    (fun i _ => poolFault i) fun i s => s.call i (i.rel f)

/-- CALLX (R103). -/
def execCallx (h : List Hint) (f : FmtC) (s : State) : Host.Outcome State Fault Refusal :=
  perform h s (reservedSet 0x04 f.payload) (fun _ => bare) (fun _ => false) (fun _ => false)
    (fun i _ => match targetFault (i.g.sreg f.sa.toNat) with | some e => some e | none => poolFault i) fun i s =>
    s.call i (i.g.sreg f.sa.toNat)

/-- Lanes of the issuing strand arrive at a token (R81, R199). -/
def State.arriveAt (s : State) (i : Issue) (m a : DWord) (u : Nat) : State :=
  let g := i.g.arrive i.n m a u s.time
  let s := s.ownArrive i.core i.slot i.n u (Bank.look g.strands i.n).isNone i.g.exited
  s.flow i g i.next

/-- RET (R103): every lane the strand owns arrives at the innermost call token. -/
def execRet (h : List Hint) (f : FmtC) (s : State) : Host.Outcome State Fault Refusal :=
  let tok (i : Issue) := i.g.callToken (i.g.chain (i.g.strand i.n))
  perform h s (reservedSet 0x05 f.payload) (fun _ => bare) (fun _ => false) (fun _ => false)
    (fun i _ => if (tok i).isNone then some { code := fcIllegalConvergence } else none) fun i s =>
    match tok i with
    | some u => s.arriveAt i i.x.owned i.x.em u
    | none => s

/-- RCV (R104): pushes a reconvergence token; it does not end a run. -/
def execRcv (h : List Hint) (f : FmtB) (s : State) : Host.Outcome State Fault Refusal :=
  perform h s (reservedSet 0x06 f.payload) (fun _ => bare) (fun _ => false) (fun _ => f.p != 15 || f.neg == 1)
    (fun i _ => poolFault i) fun i s =>
    match i.g.freeToken with
    | some j => s.retire i (i.g.pushToken i.n j .reconv (i.rel f + 4)) i.next false
    | none => s

/-- FUSE (R105): the strand arrives at the token that names this address, or nothing happens. -/
def execFuse (h : List Hint) (f : FmtC) (s : State) : Host.Outcome State Fault Refusal :=
  perform h s (reservedSet 0x07 f.payload) (fun _ => bare) (fun _ => false) (fun _ => false) (fun _ _ => none) fun i s =>
    match i.g.fuseToken (i.g.chain (i.g.strand i.n)) i.addr with
    | some u => s.arriveAt i i.x.owned i.x.em u
    | none => s.flow i i.g i.next

/-- BRK (R106). -/
def execBrk (h : List Hint) (f : FmtB) (s : State) : Host.Outcome State Fault Refusal :=
  let tok (i : Issue) := i.g.breakToken (i.g.chain (i.g.strand i.n)) (f.off.toNat % 16)
  perform h s (reservedSet 0x08 f.payload) (fun _ => bare) (fun _ => false) (fun _ => false)
    (fun i _ => if (tok i).isNone then some { code := fcIllegalConvergence } else none) fun i s =>
    let b := i.em &&& i.g.pred f
    match tok i with
    | none => s
    | some u =>
      if b = 0 then s.flow i i.g i.next
      else if b = i.em then s.arriveAt i i.x.owned i.em u
      else s.arriveAt i b b u

/-- EXIT (R82, R107): the active lanes of the predicate, or every owned lane where em is or becomes empty. -/
def execExit (h : List Hint) (f : FmtB) (s : State) : Host.Outcome State Fault Refusal :=
  perform h s (reservedSet 0x09 f.payload) (fun _ => bare) (fun _ => false) (fun _ => false) (fun _ _ => none) fun i s =>
    let m := i.em &&& i.g.pred f
    if i.em &&& ~~~m = 0 then (s.ownExit i.core i.slot i.n).flow i (i.g.exitLanes i.n i.x.owned s.time) i.next
    else s.flow i (i.g.exitLanes i.n m s.time) i.next

/-- Whether the counters are at or below a WAIT word's ceilings; 31, or 15 for ms, sets none (R108). -/
def Group.waitMet (g : Group) (w : Nat) : Bool :=
  let under (n ceil top : Nat) : Bool := ceil == top || decide (n ≤ ceil)
  under g.ld (bits w 23 19) 31 && under g.st (bits w 18 14) 31 && under g.cp (bits w 13 9) 31 && under g.tl (bits w 8 4) 31
    && under g.ms (bits w 3 0) 15

/-- WAIT (R108). -/
def execWait (h : List Hint) (f : FmtW) (s : State) : Host.Outcome State Fault Refusal :=
  let word : Word := 0x0A#8 ++ f.payload
  perform h s (reservedSet 0x0A f.payload) (fun _ => bare) (fun _ => false) (fun _ => false) (fun _ _ => none) fun i s =>
    if i.g.waitMet word.toNat then s.retire i i.g i.next true
    else
      let x := (i.g.strand i.n).leave true s.time
      s.setGroup i.core i.slot (i.g.setStrand i.n
        { x with pc := i.addr, state := .waiting, wait := { kind := .wait, word := word, cont := i.next, issue := i.pc } })

/-- PARK (R109). -/
def execPark (h : List Hint) (f : FmtC) (s : State) : Host.Outcome State Fault Refusal :=
  let p (i : Issue) := (i.g.sreg f.sa.toNat).toNat
  perform h s (reservedSet 0x0B f.payload) (fun _ => { ximm := 1, xmod := xmScope }) (fun _ => false) (fun _ => false)
    (fun i s => s.barFault i (p i) 8 true false) fun i s =>
    s.waitOn i .park (p i) (i.g.sreg f.sb.toNat) f.sc.toNat (scopeOf h) i.cont

/-- YIELD (R110). -/
def execYield (h : List Hint) (f : FmtC) (s : State) : Host.Outcome State Fault Refusal :=
  perform h s (reservedSet 0x0C f.payload) (fun _ => bare) (fun _ => false) (fun _ => false) (fun _ _ => none) fun i s =>
    let s := s.retire i i.g i.next true
    let g := s.group i.core i.slot
    s.setGroup i.core i.slot (g.setStrand i.n { g.strand i.n with give := true, since := s.time + 2 })

/-! ## TRAP (R111) -/

/-- The faults of TRAP's descriptor pointer at issue (R111). -/
def State.trapFault (s : State) (i : Issue) (p : Nat) : Option Flt :=
  if i.em = 0 then none else s.oneFault i { size := 64, align := 64, rd := true, wr := true } p [0] false

/-- Whether a service ring descriptor is invalid (R111). -/
def ringBad (d : Nat) : Bool :=
  decide (bits d 69 64 < 6) || decide (16 < bits d 69 64) || bits d 127 70 != 0 || bits d 511 256 != 0 || bits d 63 0 % 128 != 0

/-- An imprecise fault of TRAP (R95, R111). -/
def State.trapImprecise (s : State) (c k n : Nat) (pc em : DWord) (code p : Nat) : State :=
  s.takeFault c k n pc { code := code, kind := 2, mask := em, addr := BitVec.ofNat 64 p }

/-- The check of an 8-byte-wise access of TRAP to its ring, at the memory side (R111): the code it raises, whether it waits for a
page, or what it reaches. -/
inductive RingStep where
  | bad (code : Nat)
  | wait
  | ok (t : Target)
deriving DecidableEq, Repr

/-- A range of the ring for a task: the checks of R168 as an 8-byte access, then the page (R341). -/
def State.ringAt (s : State) (c k : Nat) (p n : Nat) (rd wr : Bool) : RingStep × State :=
  let g := s.group c k
  let step := s.ptrStep c g (s.leaseSet g.task) { size := n, align := 8, rd := rd, wr := wr, whole := true } p
  if step ≠ 0 then (.bad (stepCode step), s)
  else match s.wholeTarget c k g.task p with
    | none => (.bad fcPermission, s)
    | some t =>
      match s.gate t true wr (some (coreDie c)) with
      | (.gone, s) => (.bad fcLeaseExpired, s)
      | (.wait, s) => (.wait, s)
      | (.go _, s) => if wr && s.protects t false then (.bad fcBarrierProtect, s.countProtect t) else (.ok t, s.settleAt t n)

/-- TRAP at issue (R111): with no active lane a NOP; else the descriptor is read and checked, the slots are claimed, and the
strand waits until the tail allows them. -/
def execTrap (h : List Hint) (f : FmtC) (s : State) : Host.Outcome State Fault Refusal :=
  let p (i : Issue) := (i.g.sreg f.sa.toNat).toNat
  let vb := f.sb.toNat
  perform h s (reservedSet 0x0D f.payload) (fun _ => bare) (fun _ => false)
    (fun i => vb % 4 != 0 || decide (i.g.nv < vb + 4)) (fun i s => s.trapFault i (p i)) fun i s =>
    if i.em = 0 then s.retire i i.g i.next true
    else if !s.strandQuiet i.core i.slot i.n then s.stall i
    else match s.ringAt i.core i.slot (p i) 64 true true with
      | (.wait, s) => s.stall i
      | (.bad code, s) => s.trapImprecise i.core i.slot i.n i.pc i.em code (p i)
      | (.ok t, s) =>
        let (d, s) := s.readT t 0 64
        if ringBad d then s.trapImprecise i.core i.slot i.n i.pc i.em fcRecordInvalid (p i)
        else
          let k := 1 + (ones i.em + 7) / 8
          let head := bits d 191 128
          let slots := 2 ^ bits d 69 64
          let at8 (o : Nat) : Target := match t with | .global n ia r => .global n (ia + o) r | u => u
          let s := (s.addWord (at8 16) k none (s.groupBreaker i.g.task)).2
          let i := s.reseen i
          s.startWait i { kind := .trap, addr := BitVec.ofNat 64 (p i + 24), target := BitVec.ofNat 64 (head + k - slots), dest := f.sc.toNat,
                          cont := i.next, scope := 7, phase := 0, lanes := i.em, head := BitVec.ofNat 64 head, vb := vb, code := f.f.toNat,
                          ring := BitVec.ofNat 64 (bits d 63 0), slots := slots } (at8 24) (head + k - slots)

/-- The pointer of ring slot m of a wait. -/
def Wait.slotPtr (w : Wait) (m : Nat) : Nat := (w.ring.toNat + 128 * ((w.head.toNat + m) % max 1 w.slots)) % 2 ^ 64

/-- The 16-byte block of a lane (R111). -/
def Group.block (g : Group) (vb l : Nat) : Nat :=
  (List.range 4).foldl (fun acc j => acc + (g.vreg (vb + j) l).toNat * 2 ^ (32 * j)) 0

/-- The 128 bytes of slot m of a TRAP: the header, then eight blocks to a slot (R111). -/
def trapSlot (g : Group) (c k n : Nat) (w : Wait) (m : Nat) : Nat :=
  let lanes := lanesOf w.lanes
  if m = 0 then
    wordsNat [0, 0, w.lanes, g.task.id,
      BitVec.ofNat 64 (w.code + (1 + (lanes.length + 7) / 8) * 2 ^ 16 + c * 2 ^ 32 + k * 2 ^ 48 + n * 2 ^ 56)]
  else ((lanes.drop (8 * (m - 1))).take 8).zipIdx.foldl (fun acc (l, j) => acc + g.block w.vb l * 2 ^ (128 * j)) 0

/-- Writes slot m of a TRAP. -/
def State.trapWriteOne (s : State) (c k n : Nat) (w : Wait) (m : Nat) : RingStep × State :=
  match s.ringAt c k (w.slotPtr m) 128 false true with
  | (.ok t, s) => (.ok t, s.storeAt t 128 (trapSlot (s.group c k) c k n w m) [{ agent := .group c (s.group c k).uid, scope := 7 }])
  | r => r

/-- Writes TRAP's slots in order, from slot m on (R111); answers with the last step. -/
def State.trapWrite (s : State) (c k n : Nat) (w : Wait) : Nat → Nat → RingStep × State
  | 0, m => s.trapWriteOne c k n w m
  | j + 1, m =>
    match s.trapWriteOne c k n w m with
    | (.ok _, s) => s.trapWrite c k n w j (m + 1)
    | r => r

/-- The slots after the header that the lanes of a wait fill (R111). -/
def Wait.blockSlots (w : Wait) : Nat := (ones w.lanes + 7) / 8

/-- TRAP's second part (R111): the tail allows its slots, which are written and released; the notice goes out and the strand
waits for the done counter. Answers false where a page is not resident yet. -/
def State.trapPost (s : State) (c k n : Nat) : Bool × State :=
  let g := s.group c k
  let x := g.strand n
  let w := x.wait
  match s.trapWrite c k n w w.blockSlots 0 with
  | (.wait, s) => (false, s)
  | (.bad code, s) => (true, s.trapImprecise c k n w.issue x.em code (w.slotPtr 0))
  | (.ok _, s) =>
    let p := w.slotPtr 0
    match s.wholeTarget c k g.task p with
    | none => (true, s)
    | some t =>
      let s := s.notice { addr := w.addr - 24, num := w.head.toNat, ctx := g.task.ctx, kind := 1 }
      let (id, s) := s.fresh
      let s := s.setGroup c k ((s.group c k).setStrand n { x with wait := { w with phase := 1, addr := BitVec.ofNat 64 p, target := 1 } })
      let req : WaitReq := { id := id, who := .strand c g.uid n, ctx := g.task.ctx, target := t, value := 1, scope := 7,
                             since := s.time }
      (true, { s with waits := s.waits ++ [req] })

/-- Reads TRAP's slots back, from slot m on: their bytes in order (R111). -/
def State.trapRead (s : State) (c k : Nat) (w : Wait) : Nat → Nat → Except Nat (List Nat) × State
  | 0, _ => (.ok [], s)
  | j + 1, m =>
    match s.ringAt c k (w.slotPtr m) 128 true false with
    | (.bad code, s) => (.error code, s)
    | (.wait, s) => (.error 0, s)
    | (.ok t, s) =>
      let (v, s) := s.readT t 0 128
      match s.trapRead c k w j (m + 1) with
      | (.ok l, s) => (.ok (v :: l), s)
      | r => r

/-- The registers of TRAP's lanes from their blocks, given the slots after the header (R111). -/
def Group.unblock (g : Group) (vb : Nat) (lanes : List Nat) (slots : List Nat) : Group :=
  (List.range 4).foldl (fun g j =>
    g.setV (vb + j) (maskOf fun l => lanes.contains l) fun l =>
      let i := lanes.idxOf l
      BitVec.ofNat 32 (nth slots (i / 8) >>> (128 * (i % 8) + 32 * j))) g

/-- TRAP's last part (R111): the done counter was reached; the lanes read their blocks back and the strand goes on. Answers false
where a page is not resident yet. -/
def State.trapDone (s : State) (c k n : Nat) : Bool × State :=
  let g := s.group c k
  let x := g.strand n
  let w := x.wait
  match s.trapRead c k w (w.blockSlots + 1) 0 with
  | (.error 0, s) => (false, s)
  | (.error code, s) => (true, s.trapImprecise c k n w.issue x.em code (w.slotPtr 0))
  | (.ok [], s) => (true, s)
  | (.ok (head :: slots), s) =>
    let g := (s.group c k).unblock w.vb (lanesOf w.lanes) slots
    let g := g.setS w.dest (BitVec.ofNat 64 (bits head 127 64))
    (true, (s.setGroup c k g).endWait c k n w.cont)

/-! ## EMSET, EMGET, BKPT (R112, R113) -/

/-- EMSET (R112). -/
def execEmset (h : List Hint) (f : FmtC) (s : State) : Host.Outcome State Fault Refusal :=
  simple h s 0x0E f.payload bare fun i s =>
    let x := i.g.strand i.n
    s.retire i (i.g.setStrand i.n { x with em := i.g.sreg f.sa.toNat &&& x.owned }) i.next false

/-- EMGET (R112). -/
def execEmget (h : List Hint) (f : FmtC) (s : State) : Host.Outcome State Fault Refusal :=
  simple h s 0x0F f.payload bare fun i s => s.retire i (i.g.setS f.sa.toNat i.em) i.next false

/-- Whether a BKPT halts: its context is attached, and its group was not resumed or stepped at it (R113). -/
def State.bkptHalts (s : State) (i : Issue) : Bool := s.attached i.g.task.ctx && !i.x.passBkpt

/-- BKPT (R113): halts an attached context's group at the BKPT with an event; otherwise a NOP that ends its run. -/
def execBkpt (h : List Hint) (f : FmtC) (s : State) : Host.Outcome State Fault Refusal :=
  simple h s 0xE1 f.payload bare fun i s =>
    if s.bkptHalts i then
      let g := s.group i.core i.slot
      let s := (s.setGroup i.core i.slot (g.setStrand i.n { g.strand i.n with state := .ready, passBkpt := true })).freezeSlot i.core i.slot .bkpt
      s.dbgEvent { kind := 1, core := i.core, slot := i.slot, strand := i.n, code := f.f.toNat, ctx := i.g.task.ctx }
    else
      let s := s.retire i i.g i.next true
      let g := s.group i.core i.slot
      s.setGroup i.core i.slot (g.setStrand i.n { g.strand i.n with passBkpt := false })

end Sys2Proof.Machine
end

