-- ==== Sys2Proof/Machine/Save.lean ====
section
/-! DEFINITION. Save blocks (R86) and the save areas they are carved from (R312). -/
namespace Sys2Proof.Machine

/-! ## Sizes and allocation (R86, R312) -/

/-- The bytes of a save block (R86). -/
def saveSize (nv nt na : Nat) : Nat := 0x9000 + 256 * nv + 4352 * nt + 18432 * na
/-- The bytes of a group's save block. -/
def Group.saveSize (g : Group) : Nat := Sys2Proof.Machine.saveSize g.nv g.nt g.na

/-- Whether a range of a context overlaps none of the save blocks in use. -/
def State.saveFree (s : State) (ctx base size : Nat) : Bool :=
  s.saves.all fun b => b.ctx != ctx || decide (base + size ≤ b.base) || decide (b.base + b.size ≤ base)

/-- The lowest place in a save area where a block fits: its start, or the end of a block in use (R312). -/
def State.savePlace (s : State) (ctx area areaSize size : Nat) : Option Nat :=
  let starts := area :: (s.saves.filter fun b => b.ctx == ctx).map fun b => b.base + b.size
  (sortBy (fun a b => decide (a ≤ b)) starts).find? fun p =>
    decide (area ≤ p) && decide (p + size ≤ area + areaSize) && s.saveFree ctx p size

/-- A place for a block of size bytes in the save area of a kernel's region, if it has room: an area on pages that are unmapped or
draining, or outside the allocation, counts as lacking room (R312, R412). -/
def State.saveRoom (s : State) (ctx ktag size : Nat) : Option Nat × State :=
  let e := s.eff ktag
  let n := roundUp size 4096
  match s.savePlace ctx e.saveBase e.saveSize n with
  | none => (none, s)
  | some p =>
    match s.reach ctx p n true with
    | (.refused, s) => (none, s)
    | (_, s) => (some p, s)

/-- Takes a place in a save area. -/
def State.takeSave (s : State) (ctx base size : Nat) : State :=
  { s with saves := s.saves ++ [{ ctx := ctx, base := base, size := roundUp size 4096 }] }
/-- Gives a save block's place back. -/
def State.dropSave (s : State) (ctx base : Nat) : State :=
  { s with saves := s.saves.filter fun b => !(b.ctx == ctx && b.base == base) }

/-! ## The bytes of a block (R86) -/

/-- The code of a wait kind. -/
def WaitKind.code : WaitKind → Nat
  | .none => 0 | .join => 1 | .park => 2 | .trap => 3 | .bwait => 4 | .wait => 5 | .spawnr => 6 | .exec => 7
/-- The wait kind of a code. -/
def WaitKind.ofCode : Nat → WaitKind
  | 1 => .join | 2 => .park | 3 => .trap | 4 => .bwait | 5 => .wait | 6 => .spawnr | 7 => .exec | _ => .none
/-- The code of a strand's state. -/
def StrandState.code : StrandState → Nat
  | .ready => 1 | .stalled => 2 | .waiting => 3
/-- The strand state of a code. -/
def StrandState.ofCode : Nat → StrandState
  | 2 => .stalled | 3 => .waiting | _ => .ready
/-- The code of a token's kind; 0 is a free entry. -/
def TokenKind.code : TokenKind → Nat
  | .reconv => 1 | .call => 2 | .deferred => 3

/-- One eight-byte word of eight bytes, the first lowest. -/
def packBytes (bs : List Nat) : DWord := BitVec.ofNat 64 (bs.foldr (fun b acc => b % 256 + 256 * acc) 0)

/-- A number of a token plus one, zero for none. -/
def plusOne : Option Nat → Nat
  | some j => j + 1
  | none => 0

/-- The two wait words of a strand (R86). -/
def Wait.saved (w : Wait) : DWord × DWord :=
  match w.kind with
  | .wait => (0, w.word.zeroExtend 64)
  | .exec => (0, 0)
  | .none => (0, 0)
  | .trap => (if w.phase = 1 then w.addr else w.ring + BitVec.ofNat 64 (128 * (w.head.toNat % max 1 w.slots)), 1)
  | .join => (w.addr, 1)
  | _ => (w.addr, w.target)

/-- The eight words of strand entry i. What the block has no place for (the gap and the give-way mark of a run that is over) stays with the
group as the task unit keeps it (log entry 86). -/
def Group.strandWords (g : Group) (i : Nat) : List DWord :=
  match Bank.look g.strands i with
  | none => List.replicate 8 0
  | some x =>
    let (l, gap, give, n) := match x.run with
      | some r => (r.left, r.gap, if r.give then 1 else 0, x.window.length)
      | none => (0, 0, 0, 0)
    [x.pc, x.owned, x.em,
     packBytes [plusOne x.token, x.state.code, l, gap, give, n, x.wait.kind.code, 0],
     x.wait.saved.1, x.wait.saved.2, 0, 0]

/-- A claim's place among the group's waiting claims, from 1; 0 for none. -/
def Group.claimPlace (g : Group) (t : Token) : Nat :=
  if t.claim = 0 then 0 else (g.tokens.filter fun (_, u) => u.claim != 0 && decide (u.claim ≤ t.claim)).length

/-- The eight words of token entry j. -/
def Group.tokenWords (g : Group) (j : Nat) : List DWord :=
  match Bank.look g.tokens j with
  | none => List.replicate 8 0
  | some t =>
    [t.cont, t.mask, t.pending, t.arrived, t.arrivedEm,
     packBytes [t.kind.code, plusOne t.parent, g.claimPlace t, if t.ready then 1 else 0, 0, 0, 0, 0], 0, 0]

/-- Two lanes' 32-bit values in one word. -/
def pairWord (f : Nat → Word) (l : Nat) : DWord := f (2 * l + 1) ++ f (2 * l)

/-- The 32 words of 64 lanes of 32 bits. -/
def laneWords (f : Nat → Word) : List DWord := (List.range 32).map (pairWord f)

/-- The words of n bytes of a bank. -/
def byteWords (b : Bank Byte) (n : Nat) : List DWord := dwords (fun k => Bank.lookD b k 0) (n / 8)

/-- The window words of strand i: zero without an open run. -/
def Group.windowWords (g : Group) (i : Nat) : List DWord :=
  let x := g.strand i
  (List.range 8).flatMap fun n => allLanes.map fun l =>
    if x.run.isSome then ((x.window.getD n []).at l) else 0

/-- The class word of a group (R86). -/
def Group.saveClass (g : Group) (slot : Nat) : DWord :=
  BitVec.ofNat 64 (g.vc + g.tc * 4 + g.ac * 32 + g.lc * 256 + (if g.task.quad.isSome then 1024 else 0) + slot * 2048)

/-- The words of a save block, in order (R86). -/
def Group.saveWords (g : Group) (slot : Nat) : List DWord :=
  [g.task.id, g.task.addr, g.exited, g.flags, g.saveClass slot] ++ List.replicate 27 0
    ++ (List.range 8).flatMap g.strandWords ++ (List.range 16).flatMap g.tokenWords ++ laneWords g.gen
    ++ (List.range 64).map g.sreg ++ (List.range 16).map g.preg
    ++ [BitVec.ofNat 64 ((g.qreg 1).toNat + (g.qreg 2).toNat * 2 ^ 16 + (g.qreg 3).toNat * 2 ^ 32)]
    ++ (List.range 4).map g.kreg ++ List.replicate 43 0
    ++ (List.range 8).flatMap g.windowWords ++ List.replicate 128 0
    ++ (List.range g.nv).flatMap (fun n => laneWords (g.vreg n))
    ++ (List.range g.nt).flatMap (fun n => byteWords (g.tile n).data 4096 ++ byteWords (g.tile n).strip 256)
    ++ (List.range g.na).flatMap fun n =>
        (List.range 2048).map (pairWord fun e => Bank.lookD (g.accum n).elems e 0) ++ byteWords (g.accum n).slot 2048

/-- Writes words from an intermediate address on, line by line of 128 bytes, in a number of lines. -/
def State.writeLinesOf (s : State) (ctx : Nat) : Nat → Nat → List DWord → State
  | 0, _, _ => s
  | fuel + 1, ia, ws =>
    if ws.isEmpty then s
    else
      let k := max 1 ((128 - ia % 128) / 8)
      let here := ws.take k
      (s.unitStore (.global ctx ia false) (8 * here.length) (wordsNat here) []).writeLinesOf ctx fuel (ia + 8 * k) (ws.drop k)

/-- Writes words from an intermediate address on: plain writes of the part, which leave a registered line as it is (R213, R215). -/
def State.writeWords (s : State) (ctx ia : Nat) (ws : List DWord) : State := s.writeLinesOf ctx ws.length ia ws

/-- Reads n words from an intermediate address on. -/
def State.readEach (s : State) (ctx : Nat) : Nat → Nat → List DWord
  | _, 0 => []
  | ia, n + 1 => BitVec.ofNat 64 (s.readIA ctx ia 8).1 :: s.readEach ctx (ia + 8) n

/-- Reads n words from an intermediate address on, once what is pending there has settled (R227). -/
def State.readWords (s : State) (ctx ia n : Nat) : List DWord × State :=
  let s := s.settleAt (.global ctx ia false) (8 * n)
  (s.readEach ctx ia n, s)

/-! ## Reading a block back (R75, R86) -/

/-- Word n of a block. -/
def blockWord (b : List DWord) (o : Nat) : DWord := b.getD (o / 8) 0
/-- A byte of a block. -/
def blockByte (b : List DWord) (o : Nat) : Nat := bits (blockWord b o).toNat (8 * (o % 8) + 7) (8 * (o % 8))
/-- A 32-bit word of a block. -/
def blockHalf (b : List DWord) (o : Nat) : Word := BitVec.ofNat 32 ((blockWord b o).toNat >>> (8 * (o % 8)))

/-- Whether a block holds a state or wait-kind byte that is not restored (R86). -/
def blockBad (b : List DWord) : Bool :=
  (List.range 8).any fun i =>
    decide (3 < blockByte b (0x100 + 64 * i + 25)) || decide (7 < blockByte b (0x100 + 64 * i + 30))

/-- A number of a token, from its value plus one. -/
def minusOne (n : Nat) : Option Nat := if n = 0 then none else some (n - 1)

/-- The window of strand i that a block holds, of n entries. -/
def blockWindow (b : List DWord) (i n : Nat) : List Lanes64 :=
  (List.range n).map fun m => Lanes64.of fun l => blockWord b (0xC00 + 4096 * i + 512 * m + 8 * l)

/-- Strand i of a block, over what the block does not hold. -/
def blockStrand (b : List DWord) (old : Strand) (i time : Nat) : Option Strand :=
  let o := 0x100 + 64 * i
  if blockByte b (o + 25) = 0 then none
  else
    let kind := WaitKind.ofCode (blockByte b (o + 30))
    let left := blockByte b (o + 26)
    let run : Option Run :=
      if left = 0 then none
      else some { left := left, gap := blockByte b (o + 27), give := blockByte b (o + 28) != 0
                  opened := (old.run.map fun r => r.opened).getD time }
    let window := blockWindow b i (blockByte b (o + 29))
    some { old with
      pc := blockWord b o, owned := blockWord b (o + 8), em := blockWord b (o + 16), token := minusOne (blockByte b (o + 24))
      state := StrandState.ofCode (blockByte b (o + 25)), run := run, window := window
      wait := match kind with
        | .none => {}
        | .wait => { old.wait with kind := .wait, word := (blockWord b (o + 40)).truncate 32 }
        | .exec => { old.wait with kind := .exec }
        | .trap => if old.wait.phase = 0 then { old.wait with kind := .trap }
                   else { old.wait with kind := .trap, addr := blockWord b (o + 32), target := blockWord b (o + 40) }
        | k => { old.wait with kind := k, addr := blockWord b (o + 32), target := blockWord b (o + 40) }
      since := time, notBefore := time }

/-- Token j of a block, over what the block does not hold. -/
def blockToken (b : List DWord) (old : Token) (j : Nat) : Option Token :=
  let o := 0x300 + 64 * j
  let k := blockByte b (o + 40)
  if k = 0 then none
  else some { old with
    kind := if k = 2 then .call else if k = 3 then .deferred else .reconv
    cont := blockWord b o, mask := blockWord b (o + 8), pending := blockWord b (o + 16), arrived := blockWord b (o + 24)
    arrivedEm := blockWord b (o + 32), parent := minusOne (blockByte b (o + 41)), claim := blockByte b (o + 42)
    ready := blockByte b (o + 43) != 0 }

/-- 64 lanes of a block. -/
def blockLanes (b : List DWord) (o : Nat) : Lanes := Lanes.of fun l => blockHalf b (o + 4 * l)
/-- n bytes of a block. -/
def blockBytes (b : List DWord) (o n : Nat) : Bank Byte := (List.range n).map fun k => (k, BitVec.ofNat 8 (blockByte b (o + k)))

/-- A q register from a block (R150): its reserved bits are zero, and a value that no q register can hold is taken as the straight route (log
entry 89). -/
def qLoad (v : Nat) : Half := if qBad (v % 2 ^ 14) then 0 else BitVec.ofNat 16 (v % 2 ^ 14)

/-- The registers, status bits, enables and generators that a block holds (R86, R410). -/
def Group.loadRegs (g : Group) (b : List DWord) : Group :=
  let q := (blockWord b 0xA80).toNat
  let vb := 0x9000
  let tb := vb + 256 * g.nv
  let ab := tb + 4352 * g.nt
  { g with
    flags := blockWord b 0x18 &&& 0x7F7F
    gens := blockLanes b 0x700
    sregs := (List.range 63).map fun n => (n, blockWord b (0x800 + 8 * n))
    pregs := (List.range 15).map fun n => (n, blockWord b (0xA00 + 8 * n))
    qregs := (List.range 3).map fun n => (n + 1, qLoad (q >>> (16 * n)))
    kregs := (List.range 4).map fun n => (n, blockWord b (0xA88 + 8 * n))
    vregs := (List.range g.nv).map fun n => (n, blockLanes b (vb + 256 * n))
    tiles := (List.range g.nt).map fun n =>
      (n, { data := blockBytes b (tb + 4352 * n) 4096, strip := blockBytes b (tb + 4352 * n + 4096) 256 })
    accums := (List.range g.na).map fun n =>
      (n, { elems := (List.range 4096).map fun e => (e, blockHalf b (ab + 18432 * n + 4 * e))
            slot := blockBytes b (ab + 18432 * n + 16384) 2048 }) }

/-- The group that a block holds, over what the block does not hold (R75, R86): registers, strands, tokens and open windows as
saved. -/
def Group.load (g : Group) (b : List DWord) (time : Nat) : Group :=
  { g.loadRegs b with
    exited := blockWord b 0x10
    strands := (List.range 8).filterMap fun i => (blockStrand b (g.strand i) i time).map fun x => (i, x)
    tokens := (List.range 16).filterMap fun j => (blockToken b (g.token j) j).map fun t => (j, t) }

/-- What the debugger's load writes back (R410): the registers, each strand's PC and its window's entries; the group keeps its own
strands' masks, tokens and runs. A strand that is moved away from the BKPT it stood at will halt at the next one (R113). -/
def Group.loadDebug (g : Group) (b : List DWord) : Group :=
  { g.loadRegs b with
    strands := g.strands.map fun (i, x) =>
      let pc := blockWord b (0x100 + 64 * i)
      (i, { x with pc := pc, window := blockWindow b i x.window.length, passBkpt := x.passBkpt && pc == x.pc }) }

end Sys2Proof.Machine
end

