-- ==== Sys2Proof/Machine/TaskOps.lean ====
section
/-! DEFINITION. Row 0xC and ORDMARK (R248 to R259), as they issue; the task unit's own steps stand in
Machine/TaskEvents.lean. -/
namespace Sys2Proof.Machine

/-! ## Records and futures (R229 to R235, R248) -/

/-- The faults of a record pointer (R248): its tag, its alignment to 128, a space other than 0x2. -/
def State.recFault (s : State) (i : Issue) (p : Nat) : Option Flt :=
  s.oneFault i { size := 8, align := 128, rd := true, wr := true } p [2] true

/-- The words of the record at a pointer of the own region. -/
def State.recAt (s : State) (i : Issue) (p : Nat) : List DWord := natWords (s.readT (.spad i.core (ptrOffset p)) 0 128).1 16

/-- The logical id of a group's next child (R234). -/
def TaskInfo.childId (t : TaskInfo) : DWord := t.id * 0x9E3779B97F4A7C15#64 + BitVec.ofNat 64 t.ordinal + 1

/-- Writes a child's id and IDV at a record's source (R234). -/
def State.markRecord (s : State) (i : Issue) (p : Nat) (words : List DWord) (id : DWord) : State :=
  let t : Target := .spad i.core (ptrOffset p)
  let s := s.storeAt t 8 ((recWithId words id).getD 0 0).toNat []
  s.storeAt (.spad i.core (ptrOffset p + 16)) 8 id.toNat []

/-- A record is accepted on a core: bytes 0 to 15 and 64 to 127 of its future become zero (R235); a future that no span maps, or whose page is
gone, is not written (log entry 21); one on a peer that no port reaches leaves a LINK_DOWN record (R360). -/
def State.clearFuture (s : State) (a : Agent) (c ctx ktag : Nat) (words : List DWord) : State :=
  match s.futureGate c ctx (recFuture words) with
  | (some (.peer r _ _), _, s) => s.futureDown r c ctx ktag (recFuture words)
  | (some t, .go _, s) =>
    let rel : List Release := [{ agent := a, scope := 5 }]
    (s.unitStore t 16 0 rel).unitStore (t.plus 64) 64 0 rel
  | (_, _, s) => s

/-- Whether a push on a core would take some region of a kernel's path past its deque share (R249, R309). -/
def State.shareFull (s : State) (c ktag : Nat) : Bool :=
  let e := s.eff ktag
  (e.path.zip e.budgets).any fun (r, _, _, b, _) =>
    decide (b ≤ ((s.core c).deque.filter fun x => (s.eff x.ktag).path.contains r).length)

/-- Whether the log holds a task's spawn ordinal as a later decision than its next one. -/
def State.ordinalLater (s : State) (t : TaskInfo) : Bool :=
  (s.logFindV t.ctx (fun id x v => id == t.id.toNat && x / 2 ^ 32 == 5 && v == t.ordinal % 2 ^ 64 && decide (t.decisions % 2 ^ 32 < x % 2 ^ 32))
    (s.fld (.ordSize t.ctx) 31 0 * 128) 0).isSome

/-- What the order log makes of a spawn ordinal (R256, R258): it is a decision of a deterministic task with more than one strand.
In replay the strand waits until its logged ordinal is next. -/
def State.ordinalWaits (s : State) (i : Issue) : Bool :=
  i.g.task.det && decide (1 < i.g.strands.length) && s.logMode i.g.task == 2 &&
    (match s.logEntry i.g.task 5 with
      | some (v, _) => v != BitVec.ofNat 64 i.g.task.ordinal
      | none => s.ordinalLater i.g.task)

/-- Takes the group's ordinal (R234), logged where it is a decision (R256): the child's id, the issue with the new count, and the
state. -/
def State.takeOrdinal (s : State) (i : Issue) : DWord × Issue × State :=
  let s := if decide (1 < i.g.strands.length) then (s.decideFor i.core i.slot 5 (BitVec.ofNat 64 i.g.task.ordinal) 0).2 else s
  let t := { i.g.task with decisions := (s.group i.core i.slot).task.decisions }
  (t.childId, { i with g := { i.g with task := { t with ordinal := t.ordinal + 1 } } }, s)

/-! ## SPAWN, SPAWNR (R249, R250) -/

/-- The precise fault of an invalid record. -/
def Issue.badRecord (i : Issue) (p : Nat) : Flt := { code := fcRecordInvalid, mask := i.em, addr := BitVec.ofNat 64 p }

/-- Whether the record at a pointer of the own region can be checked now (R233): what is pending on it settles (R227), and the pages of its
operands' descriptors are ready (R337). -/
def State.recReady (s : State) (i : Issue) (p : Nat) : Bool × State :=
  let s := s.settleAt (.spad i.core (ptrOffset p)) 128
  s.descsReady i.core i.g.task.ctx (s.recAt i p)

/-- The common beginning of SPAWN, SPAWNR and EXEC: the release, the record's check, what else refuses it, then the effect. -/
def State.withRecord (s : State) (i : Issue) (p : Nat) (bad : State → List DWord → Bool) (eff : State → List DWord → State) : State :=
  if !s.strandQuiet i.core i.slot i.n then s.stall i
  else match s.recReady i p with
    | (false, s) => s.stall i
    | (true, s) =>
      let words := s.recAt i p
      if s.recInvalid i.core i.g.task.ctx i.g.task.ktag words || bad s words then
        s.takeFault i.core i.slot i.n i.pc (i.badRecord p)
      else if s.ordinalWaits i then s.stall i
      else eff s words

/-- A pushed record stands at the hot end of its core's deque; one of a cancelled kernel ends at once, its future cancelled (R315). -/
def State.pushOwn (s : State) (c : Nat) (r : Rec) : State :=
  let x := s.core c
  if ((s.kernel r.ktag).map (·.cancelled)).getD false then s.setCore c { x with ends := x.ends ++ [{ record := r, ending := .cancelled }] }
  else s.setCore c { x with deque := x.deque ++ [r] }

/-- SPAWN (R249). -/
def execSpawn (h : List Hint) (f : FmtC) (s : State) : Host.Outcome State Fault Refusal :=
  let p (i : Issue) := (i.g.sreg f.sb.toNat).toNat
  perform h s (reservedSet 0xC0 f.payload) (fun _ => {}) (fun _ => false) (fun _ => false) (fun i s => s.recFault i (p i))
    fun i s => s.withRecord i (p i) (fun _ _ => false) fun s words =>
    let full := decide (512 ≤ (s.core i.core).deque.length) || s.shareFull i.core i.g.task.ktag
    match (if full then (true, s) else s.futureReady i.core i.g.task.ctx (recFuture words)) with
    | (false, s) => s.stall i
    | (true, s) =>
      let (id, i, s) := s.takeOrdinal i
      let s := s.markRecord i (p i) words id
      if full then let i := s.reseen i; s.retire i (i.g.setS f.sa.toNat 0) i.next false
      else
        let s := s.clearFuture i.agent i.core i.g.task.ctx i.g.task.ktag words
        let (n, s) := s.fresh
        let r : Rec := { id := n, addr := BitVec.ofNat 64 (p i), words := recWithId words id, ctx := i.g.task.ctx, ktag := i.g.task.ktag
                         det := i.g.task.det, pushedAt := s.time, pusher := some (i.g.uid, i.g.task.no) }
        let s := (s.pushOwn i.core r).liveUp i.g.task.ktag
        let i := s.reseen i
        s.retire i (i.g.setS f.sa.toNat (BitVec.ofNat 64 (recFuture words))) i.next false

/-- Whether SPAWNR's target word is refused (R250). -/
def State.targetBad (s : State) (w : Nat) : Bool :=
  decide (1535 < bits w 10 0) || decide (s.fld .lnkDom 16 8 ≤ bits w 23 16) || bits w 15 11 != 0 || bits w 63 25 != 0

/-- SPAWNR (R250): the plain form goes on, .blk waits for acceptance. -/
def execSpawnr (h : List Hint) (f : FmtC) (s : State) : Host.Outcome State Fault Refusal :=
  let p (i : Issue) := (i.g.sreg f.sb.toNat).toNat
  let w (i : Issue) := (i.g.sreg f.sc.toNat).toNat
  let blk := f.f.getLsbD 0
  perform h s (reservedSet 0xC1 f.payload) (fun _ => {}) (fun _ => false) (fun i => s.targetBad (w i))
    (fun i s => s.recFault i (p i)) fun i s =>
    if 63 ≤ i.g.ms then s.stall i
    else s.withRecord i (p i) (fun _ _ => false) fun s words =>
      let (id, i, s) := s.takeOrdinal i
      let s := s.markRecord i (p i) words id
      let (n, s) := s.fresh
      let (rid, s) := s.fresh
      let rank := bits (w i) 23 16
      let r : Rec := { id := rid, addr := BitVec.ofNat 64 (p i), words := recWithId words id, ctx := i.g.task.ctx, ktag := i.g.task.ktag
                       det := i.g.task.det }
      let m : SpawnMsg :=
        { id := n, core := i.core, slot := i.slot, strand := i.n, uid := i.g.uid, pc := i.pc, op := n, ctx := i.g.task.ctx
          ktag := i.g.task.ktag, target := bits (w i) 10 0
          rank := if bit (w i) 24 && rank != s.fld .lnkDom 7 0 then some rank else none
          blk := blk, dest := f.sa.toNat, future := BitVec.ofNat 64 (recFuture words), record := r, since := s.time }
      let s := { s with spawns := s.spawns ++ [m] }
      let i := s.reseen i
      let g := i.g.count .ms n false
      if blk then
        let x := (g.strand i.n).leave true s.time
        s.setGroup i.core i.slot (g.setStrand i.n { x with
          pc := i.addr, state := .waiting
          wait := { kind := .spawnr, addr := BitVec.ofNat 64 (p i), target := BitVec.ofNat 64 (w i), dest := f.sa.toNat, cont := i.next
                    issue := i.pc } })
      else s.retire i g i.next false

/-! ## JOIN, FSET (R251, R252) -/

/-- JOIN (R251). -/
def execJoinF (h : List Hint) (f : FmtC) (s : State) : Host.Outcome State Fault Refusal :=
  let p (i : Issue) := (i.g.sreg f.sa.toNat).toNat
  perform h s (reservedSet 0xC2 f.payload) (fun _ => { ximm := 1 }) (fun _ => false) (fun _ => false)
    (fun i s => s.barFault i (p i) 128 true false) fun i s => s.waitOn i .join (p i) 1 f.sb.toNat 6 i.cont

/-- The pointer that FSET writes through. -/
def fsetPtr (i : Issue) (k : Nat) : Nat := (recFuture i.g.task.record + 16 + 8 * k) % 2 ^ 64

/-- FSET (R252): a plain store that no counter counts. -/
def execFset (h : List Hint) (f : FmtC) (s : State) : Host.Outcome State Fault Refusal :=
  let k := f.f.toNat % 8
  perform h s (reservedSet 0xC3 f.payload) (fun _ => {}) (fun _ => false) (fun _ => decide (6 ≤ k))
    (fun i s => s.barFault i (fsetPtr i k) 8 false true) fun i s =>
    let (id, s) := s.fresh
    let x := i.g.strand i.n
    let accs := ((s.wholeTarget i.core i.slot i.g.task (fsetPtr i k)).map fun t =>
      s.access i 64 0 (fsetPtr i k) 8 (i.g.sreg f.sa.toNat).toNat 0 t).toList
    let s := { s with ops := s.ops ++ [{ i.op .st .store accs with id := id, fence := x.fenced }] }
    s.retire i (i.g.setStrand i.n { x with fenced := none }) i.next false

/-! ## EXEC (R253) -/

/-- Whether a record cannot run in place in a group (R253): QUAD, a class above the caller's, or a ninth nesting. -/
def Group.execBad (g : Group) (r : List DWord) : Bool :=
  recQuad r || decide (g.vc < recVc r) || decide (g.tc < recTc r) || decide (g.ac < recAc r) || decide (g.lc < recLc r)
    || decide (8 ≤ g.frames.length)

/-- EXEC (R253): the strand waits; the frame is saved and the child enters once the group's counters are zero, its operands staged and
its extra range leased. -/
def execExecR (h : List Hint) (f : FmtC) (s : State) : Host.Outcome State Fault Refusal :=
  let p (i : Issue) := (i.g.sreg f.sa.toNat).toNat
  perform h s (reservedSet 0xC4 f.payload) (fun _ => {}) (fun _ => false) (fun _ => false)
    (fun i s => if i.g.strands.length != 1 then some { code := fcIllegalConvergence } else s.recFault i (p i)) fun i s =>
    s.withRecord i (p i) (fun s words => i.g.execBad words || (s.saveRoom i.g.task.ctx i.g.task.ktag i.g.saveSize).1.isNone) fun s words =>
    match s.saveRoom i.g.task.ctx i.g.task.ktag i.g.saveSize with
    | (none, s) => s.takeFault i.core i.slot i.n i.pc (i.badRecord (p i))
    | (some base, s) =>
      let (id, i, s) := if recIdv words then (recId words, i, s) else s.takeOrdinal i
      let (n, s) := s.fresh
      let r : Rec := { id := n, addr := BitVec.ofNat 64 (p i), words := recWithId words id, ctx := i.g.task.ctx, ktag := i.g.task.ktag
                       det := i.g.task.det, state := .leasing, toStage := recOperands words }
      let s := s.takeSave i.g.task.ctx base i.g.saveSize
      let x := s.core i.core
      let s := s.setCore i.core { x with binding := x.binding ++ [.record r []] }
      let s := s.askLease i.core r
      let y := (i.g.strand i.n).leave true s.time
      s.setGroup i.core i.slot (i.g.setStrand i.n { y with
        pc := i.addr, state := .waiting
        wait := { kind := .exec, addr := i.pc, issue := i.pc, dest := f.sb.toNat, cont := i.next, head := BitVec.ofNat 64 n, ring := BitVec.ofNat 64 base } })

/-! ## LEASE, UNLEASE (R254, R255) -/

/-- The faults of LEASE after the size's range (R254): alignment, then the space and the spans. -/
def State.leaseFault (s : State) (i : Issue) (b z : Nat) : Option Flt :=
  let flt (code : Nat) : Option Flt := some { code := code, mask := i.em, addr := BitVec.ofNat 64 b }
  if b % 65536 ≠ 0 ∨ z % 65536 ≠ 0 then flt fcAlignment
  else if tagBad b true || ptrSpace b != 0 || !s.spansOk (s.coreSpans i.core i.g.task.ctx) i.g.task.ctx (spanAllows true false) 40 (ptrOffset b) z then flt fcPermission
  else none

/-- Gives every group of a task a value for what it added by LEASE. -/
def State.setAdded (s : State) (c k : Nat) (ls : List LeaseRange) : State :=
  (taskSlots (s.group c k) k).foldl (fun s j =>
    let g := s.group c j
    s.setGroup c j { g with task := { g.task with added := ls } }) s

/-- LEASE (R254): the strand stalls until the memory side replies. -/
def execLease (h : List Hint) (f : FmtC) (s : State) : Host.Outcome State Fault Refusal :=
  let b (i : Issue) := (i.g.sreg f.sa.toNat).toNat
  let z (i : Issue) := (i.g.sreg f.sb.toNat).toNat
  perform h s (reservedSet 0xC5 f.payload) (fun _ => {}) (fun _ => false)
    (fun i => decide (z i < 65536) || decide (2 ^ 35 < z i)) (fun i s => s.leaseFault i (b i) (z i)) fun i s =>
    let mine (q : LeaseReq) : Bool := q.holder == .task i.core i.g.uid i.g.task.no && q.strand == i.n
    let done (s : State) (v : DWord) : State := s.retire i (i.g.setS f.sc.toNat v) i.next false
    let set := s.leaseSet i.g.task
    match s.leaseReqs.find? mine with
    | some q =>
      match q.answer with
      | none => s.stall i
      | some v => done { s with leaseReqs := s.leaseReqs.filter fun x => x.id != q.id } (BitVec.ofNat 64 v)
    | none =>
      if inLeases set (b i) (z i) then done s 0
      else if 8 ≤ set.length then done s 1
      else
        let (id, s) := s.fresh
        let q : LeaseReq :=
          { id := id, holder := .task i.core i.g.uid i.g.task.no, ctx := i.g.task.ctx, base := b i, size := z i, strand := i.n
            pieces := s.spanPieces (s.coreSpans i.core i.g.task.ctx) i.g.task.ctx 40 (b i) (z i) }
        { s with leaseReqs := s.leaseReqs ++ [q] }.stall i

/-- UNLEASE (R255). -/
def execUnlease (h : List Hint) (f : FmtC) (s : State) : Host.Outcome State Fault Refusal :=
  simple h s 0xC6 f.payload {} fun i s =>
    let b := (i.g.sreg f.sa.toNat).toNat
    match i.g.task.added.find? fun r => r.base == b with
    | none => s.retire i (i.g.setS f.sb.toNat 1) i.next false
    | some r =>
      let added := i.g.task.added.erase r
      let s := s.setAdded i.core i.slot added
      let mine (e : Lease) : Bool :=
        e.base == b && e.size == r.size && (match e.holder with | .task c _ t => c == i.core && t == i.g.task.no | _ => false)
      let s := { s with leases := s.leases.eraseP mine }
      s.retire i ({ i.g with task := { i.g.task with added := added } }.setS f.sb.toNat 0) i.next false

/-! ## ORDMARK (R259) -/

/-- ORDMARK (R259). -/
def execOrdmark (h : List Hint) (f : FmtC) (s : State) : Host.Outcome State Fault Refusal :=
  simple h s 0xE4 f.payload {} fun i s =>
    if i.g.task.det then
      let s := (s.decideFor i.core i.slot 6 (i.g.sreg f.sa.toNat) (f.f.zeroExtend 64)).2
      s.retire i { i.g with task := (s.group i.core i.slot).task } i.next false
    else s.retire i i.g i.next false

end Sys2Proof.Machine
end

