-- ==== Sys2Proof/Machine/MemoryEvents.lean ====
section
/-! DEFINITION. Steps of accesses on their way and at their homes (R174, R192 to R205, R212 to R216, R226, R227, R256 to R258, R329,
R346, R365), and of waits on words (R215). A step whose conditions do not hold leaves the state as it is. -/
namespace Sys2Proof.Machine

/-! ## Finding an operation -/

/-- An outstanding operation and one of its accesses. -/
def State.opAt (s : State) (id n : Nat) : Option (MemOp × Access) :=
  match s.ops.find? fun o => o.id == id with
  | some o => (o.accs[n]?).map fun a => (o, a)
  | none => none

/-! ## Completion (R198) -/

/-- The registers of a value of an access: two for eight bytes, and for the fill of a pair (R177, R180). -/
def Access.pair (a : Access) (n : Nat) : Bool := a.size == 8 || (a.size == 0 && n == 2)

/-- A value that returned stands in its destination (R177 to R180, R219). -/
def Group.receive (g : Group) (d : Dest) (a : Access) : Group :=
  match d with
  | .none => g
  | .uni d => g.setS d (BitVec.ofNat 64 a.value)
  | .vec d n =>
    if 64 ≤ a.lane then g
    else
      let m : DWord := 1#64 <<< a.lane
      let g := g.setV (d + a.reg) m fun _ => BitVec.ofNat 32 a.value
      if a.pair n then g.setV (d + a.reg + 1) m fun _ => BitVec.ofNat 32 (a.value / 2 ^ 32) else g

/-- LOAD_COMPLETE (R198): a value that was read arrives, never before an older acquire has been performed (R200). PROBE writes its
intermediate address first (R346). -/
def State.loadComplete (s : State) (id n : Nat) : State :=
  match s.opAt id n with
  | some (o, a) =>
    if o.kind.returns && a.performed && !a.completed && !s.acquireOpen o a then
      let g := s.group o.core o.slot
      let g := if o.kind = .probe then g.setS (o.words.getD 2 0).toNat (o.words.getD 0 0) else g
      ((s.setGroup o.core o.slot (g.receive o.dest a)).onAccess id n fun x => { x with completed := true }).finishOp id
    else s
  | none => s

/-- LOAD_COMPLETE. -/
def execLoadComplete (s : State) : Host.Outcome State Fault Refusal := .next (s.loadComplete s.arg.op s.arg.acc)

/-- STORE_ACKNOWLEDGE (R198): the point of coherence acknowledges what it performed. -/
def State.storeAck (s : State) (id n : Nat) : State :=
  match s.opAt id n with
  | some (o, a) =>
    if !o.kind.returns && a.performed && !a.completed then
      (s.onAccess id n fun x => { x with completed := true }).finishOp id
    else s
  | none => s

/-- STORE_ACKNOWLEDGE. -/
def execStoreAcknowledge (s : State) : Host.Outcome State Fault Refusal := .next (s.storeAck s.arg.op s.arg.acc)

/-! ## Loads, stores and the other requests at their homes -/

/-- An access waits at its home for its page (R337). -/
def State.holdAccess (s : State) (o : MemOp) (n : Nat) : State := s.onAccess o.id n fun x => { x with held := true }

/-- The part of a peer's traffic that this part sees (R210, R359, R360): with no port up the task ends by LINK_DOWN; the peer may
refuse; otherwise what comes back is a free value, six bits of a 6-bit element (R31), and an acquire may read a release there, which orders all
that follows (log entry 24). -/
def State.atPeer (s : State) (o : MemOp) (n : Nat) (a : Access) (r : Nat) : State :=
  if (s.rankPorts r).isEmpty then s.homeFault o n a fcLinkDown
  else if s.arg.flag then s.homeFault o n a s.peerRefusal
  else
    let (v, s) := if o.kind.returns then s.peerAnswer else (0, s)
    let w := if o.kind == .load && a.data != 0 then a.data else 8 * a.size
    let g := s.group o.core o.slot
    let s := if o.acquire && o.engine.isNone then
        (s.setGroup o.core o.slot { g with unseen := [] }).redoEarly o a true
      else s
    s.performed o n (v.toNat % 2 ^ w) (s.acquireOpen o a)

/-- Whether a load stands at a slice that is not its home's, on its way through a span with RME (R338). -/
def State.atReplica (s : State) (a : Access) : Bool := a.goal != s.goalOf a.target

/-- Whether a slice's die holds a replica of the page of a load that stands there (R338). -/
def State.replicaHere (s : State) (a : Access) (die : Nat) : Bool :=
  match a.target with
  | .global n ia _ =>
    (match (s.walk n ia).1 with
      | some l => let p := s.page n l; p.state == some .replicated && p.replicas.contains die && l.tier != 3
      | none => false)
  | _ => false

/-- A load that was read, with what its group may not see yet (R203): a 6-bit element keeps its six bits (R31). -/
def State.loadValue (s : State) (o : MemOp) (n : Nat) (a : Access) (p : Option Place) : State :=
  let s := ((s.settleAt a.target a.size).hears o a).acquires o a
  let (v, s) := s.seen o a (s.readVia a.target p a.size)
  s.performed o n (if a.data = 0 then v else v % 2 ^ a.data) (s.acquireOpen o a)

/-- A load or store at its home (R177, R202, R204, R213, R227, R341). -/
def State.plainAtHome (s : State) (o : MemOp) (n : Nat) (a : Access) : State :=
  match a.target with
  | .peer r _ _ => s.atPeer o n a r
  | t =>
    let store := o.kind == .store
    if !store && s.atReplica a && !s.replicaHere a (coreDie o.core) then s.onAccess o.id n fun x => { x with goal := s.goalOf t, sent := 0 }
    else match s.gate t true store (some (coreDie o.core)) with
    | (.wait, s) => s.holdAccess o n
    | (.gone, s) => s.accessFault o n a fcLeaseExpired
    | (.go p, s) =>
      if store then
        if s.protects t false then (s.countProtect t).accessFault o n a fcBarrierProtect
        else (((s.settleAt t a.size).storeVia t p a.size a.data o.releases).sees o a).performed o n 0 false
      else s.loadValue o n a p

/-- The dirty bytes of a context's L2 lines that a test on intermediate addresses accepts go to the storage beneath (R183). -/
def State.writeBack (s : State) (ctx : Nat) (hit : Nat → Bool) : State :=
  s.l2.foldl (fun s (c, k, v) =>
    if k / 2 ^ 56 = ctx ∧ hit (k % 2 ^ 56) = true then { s with mem := Memory.setByte s.mem c v, l2 := Bank.drop s.l2 c }
    else s) s

/-- CINV and CWB at work (R183, R210, R227): pending sets of the range settle, dirty lines are written back; CINV.desc drops entries of
the issuing core's descriptor cache. A registered line stays registered. -/
def State.cacheAtHome (s : State) (o : MemOp) (kind : Nat) : State :=
  let va := (o.words.getD 0 0).toNat
  let n := (o.words.getD 1 0).toNat
  if kind = 1 then
    let c := s.core o.core
    s.setCore o.core { c with desc := c.desc.filter fun e => !(e.ctx == o.ctx && decide (e.addr < va + n) && decide (va < e.addr + 64)) }
  else if ptrSpace va != 0 then s
  else
    let (first, size) := lineRange va n
    let hit (ia : Nat) : Bool := s.rangeHolds o.spans o.ctx (first % 2 ^ 60) size ia
    let s := s.settleWhere fun p => match p.target with
      | .global c ia _ => c == o.ctx && (List.range p.size).any fun k => hit (ia + k)
      | _ => false
    s.writeBack o.ctx hit

/-- What the page home adds to PROBE's word (R346): the leaf's fields, the page's states, its home's place. -/
def State.probePage (s : State) (ctx ia : Nat) (det : Bool) : Nat × State :=
  let (leaf, s) := s.walk ctx ia
  let base := match leaf with
    | some l => l.base
    | none => ia / 65536 * 65536
  let home := s.homeDie ctx base * 2 ^ 21 + homeSlice base * 2 ^ 24
  match leaf with
  | none => (home, s)
  | some l =>
    let p := s.page ctx l
    let fixed := 2 ^ 9 + l.level * 2 ^ 12 + home
    let moving := l.tier * 2 ^ 10 + (if l.rm then 2 ^ 14 else 0) + (if p.state = some .draining then 2 ^ 15 else 0)
      + (if p.state = some .migrating then 2 ^ 16 else 0) + l.cnt * 2 ^ 17
    (if det then fixed else fixed + moving, s)

/-- PROBE at the page home (R346). -/
def State.probeAtHome (s : State) (o : MemOp) (n : Nat) (a : Access) : State :=
  let det := (s.group o.core o.slot).task.det
  let (v, s) := s.probePage o.ctx (o.words.getD 0 0).toNat det
  s.performed o n ((o.words.getD 1 0).toNat + v) (s.acquireOpen o a)

/-- EVENT writes its record, or is dropped; an ABSENT page holds it (R325, R329). -/
def State.eventAtHome (s : State) (o : MemOp) (n : Nat) (_ : Access) : State :=
  let r := s.groupRecord o.core o.slot o.strand o.pc
    { code := 0x0F00 + (o.words.getD 2 0).toNat, kind := 4, addr := o.words.getD 0 0, info := o.words.getD 1 0 }
  if !(s.ctx o.ctx).recsWaiting.isEmpty then s
  else if s.faultFull o.ctx then (s.writeRecordNow o.ctx r).performed o n 0 false
  else
    let at' := s.faultPlace o.ctx
    match s.reach o.ctx at' 64 true with
    | (.absent, s) => s
    | (_, s) => (s.writeRecordNow o.ctx r).performed o n 0 false

/-- A publication of a window (R207, R365): every held line of both ports is written to host memory, and then the window's version
counter rises by one. -/
def State.publish (s : State) (n : Nat) : State :=
  let mem := s.held.foldl (fun m h => h.bytes.foldl (fun m (k, v) => Memory.setByte m (hostCell h.port (h.addr + k)) v) m) s.mem
  let p := s.fld (.hwCtl n) 38 38
  let at' := hostCell p (s.reg (.hwVer n)).toNat
  { s with held := [], mem := Memory.write mem at' 8 (Memory.read mem at' 8 + 1) }

/-- MEMORY_REQUEST_AT_HOME (R197, R202): a request that is not an atomic is performed at its point of coherence. -/
def State.requestAtHome (s : State) (id n : Nat) : State :=
  match s.opAt id n with
  | none => s
  | some (o, a) =>
    if s.mayPerform o n a then
      match o.kind with
      | .load | .store => s.plainAtHome o n a
      | .cache k => (s.cacheAtHome o k).performed o n 0 false
      | .probe => s.probeAtHome o n a
      | .event => s.eventAtHome o n a
      | .publish => (s.publish (o.words.getD 0 0).toNat).performed o n 0 false
      | _ => s
    else s

/-- MEMORY_REQUEST_AT_HOME. -/
def execMemoryRequestAtHome (s : State) : Host.Outcome State Fault Refusal := .next (s.requestAtHome s.arg.op s.arg.acc)

/-! ## Atomics at their homes (R204, R205, R213, R219, R226) -/

/-- The accesses whose packets one packet carries (R226), itself first. -/
def State.carried (s : State) (id n : Nat) : List (MemOp × Nat × Access) :=
  s.ops.flatMap fun o => o.accs.zipIdx.filterMap fun (a, k) => if a.carrier = some (id, n) then some (o, k, a) else none

/-- The accesses of a packet, in the order of their issue (R197). -/
def State.packetOf (s : State) (id n : Nat) : List (MemOp × Nat × Access) :=
  s.ops.flatMap fun o => o.accs.zipIdx.filterMap fun (a, k) =>
    if a.carrier = some (id, n) ∨ (o.id = id ∧ k = n) then some (o, k, a) else none
/-- Their numbers. -/
def packetIds (ms : List (MemOp × Nat × Access)) : List (Nat × Nat) := ms.map fun (o, k, _) => (o.id, k)

/-- An atomic of a task on a logged line takes the next place in the line's sequence (R256). -/
def State.lineCounted (s : State) (t : TaskInfo) (a : Access) : State :=
  let line := t.ctx + 64 * (s.loc a.target 0 / 128)
  if s.loggedAt t a.ptr.toNat then { s with logSeq := Bank.put s.logSeq line (Bank.lookD s.logSeq line 0 + 1) } else s

/-- The order log's view of an atomic (R256 to R258): whether it waits for its place in its line's sequence, and the state once its
place has been recorded or found. a.decision numbers a returning atomic to a logged range. -/
def State.atomLog (s : State) (o : MemOp) (a : Access) : Bool × State :=
  let t := (s.group o.core o.slot).task
  let line := t.ctx + 64 * (s.loc a.target 0 / 128)
  let seq := Bank.lookD s.logSeq line 0
  let counted := s.lineCounted t a
  match a.decision with
  | none => (true, counted)
  | some d =>
    match s.logMode t with
    | 1 => (true, counted.logAppend t.ctx t.id d 2 (BitVec.ofNat 64 seq) a.ptr)
    | 2 =>
      match s.logReach t.ctx with
      | (.absent, s) => (false, s)
      | (.refused, s) => (true, s.logRefused t.ctx |>.lineCounted t a)
      | (.present, s) =>
        match s.logFind t.ctx (fun id x => id == t.id.toNat && x == d % 2 ^ 32 + 2 * 2 ^ 32) (s.fld (.ordSize t.ctx) 31 0 * 128) 0 with
        | some (v, _) =>
          if seq < v.toNat then (false, s)
          else (true, (s.lineCounted t a).setFld (.ordHead t.ctx) 31 0 (s.fld (.ordHead t.ctx) 31 0 + 1))
        | none => (true, (s.lineCounted t a).logMissing t.ctx)
    | _ => (true, counted)

/-- A packet's atomic at its home, with those that it carries (R205, R226): integers as one operation, floating-point operands one after
the other in the order of their issue; each contributor's release joins the chain. Of a merged sum that wraps the first in issue order is the
breaker (log entry 121). -/
def State.applyAtomic (s : State) (o : MemOp) (a : Access) (more : List (MemOp × Nat × Access)) (p : Option Place) : Nat × State :=
  match more with
  | [] => s.atomicVia o a p
  | (q, _, b) :: rest =>
    if o.kind = .amon 1 then (0, more.foldl (fun s (q, _, b) => (s.atomicVia q b p).2) s)
    else
      let x := rest.foldl (fun x (_, _, c) => combine o.kind a.size x c.data 0) b.data
      let (v, s) := s.atomicVia q { b with data := x } p
      (v, rest.foldl (fun s (r, _, c) => r.releases.foldl (fun s e => s.joinChain c.target c.size (some e)) s) s)

/-- An atomic with what its packet carries, once its page and the order log let it be applied; more lists the whole packet where it carries
several. -/
def State.atomicAtPlace (s : State) (o : MemOp) (n : Nat) (a : Access) (more : List (MemOp × Nat × Access)) (p : Option Place) : State :=
  let t := a.target
  if s.protects t (atomPermitted o.kind a.size (s.loc t 0 % 128)) then
    match more with
    | [] => (s.countProtect t).homeFault o n a fcBarrierProtect
    | _ => more.foldl (fun s (q, k, b) => (s.countProtect t).homeFault q k b fcBarrierProtect) s
  else
    let s := s.settleAt t a.size
    let (v, s) := ((if o.kind.returns then s.hears o a else s).acquires o a).applyAtomic o a more p
    match more with
    | [] => (if o.engine.isSome then s else s.sees o a).performed o n v false
    | _ => more.foldl (fun s (q, k, b) => (if q.engine.isSome then s else s.sees q b).performed q k 0 false) s

/-- ATOMIC_AT_HOME (R204, R219, R221). -/
def State.atomicAtHome (s : State) (id n : Nat) : State :=
  match s.opAt id n with
  | none => s
  | some (o, a) =>
    let more := if (s.carried id n).isEmpty then [] else s.packetOf id n
    let atomic := match o.kind with
      | .atom _ | .amon _ | .cas | .xch => true
      | _ => false
    let at' := !a.performed && a.carrier.isNone && a.place == a.goal
    if atomic && at' && (if more.isEmpty then s.orderOk o n a else more.all fun (q, k, b) => s.orderBut (packetIds more) q k b) then
      match a.target with
      | .peer r _ _ => if more.isEmpty then s.atPeer o n a r else more.foldl (fun s (q, k, b) => s.atPeer q k b r) s
      | t =>
        match s.gate t true true (some (coreDie o.core)) with
        | (.wait, s) => s.holdAccess o n
        | (.gone, s) =>
          if more.isEmpty then s.homeFault o n a fcLeaseExpired
          else more.foldl (fun s (q, k, b) => s.homeFault q k b fcLeaseExpired) s
        | (.go p, s) =>
          match s.atomLog o a with
          | (false, s) => s
          | (true, s) => ((more.filter fun (q, k, _) => !(q.id == id && k == n)).foldl (fun s (q, _, b) => (s.atomLog q b).2) s).atomicAtPlace o n a more p
    else s

/-- ATOMIC_AT_HOME. -/
def execAtomicAtHome (s : State) : Host.Outcome State Fault Refusal := .next (s.atomicAtHome s.arg.op s.arg.acc)

/-- Whether two operations' packets may be one (R205, R226): the same non-returning operation, ord and scope, and no relaxed one with a
release. -/
def MemOp.mergeable (o q : MemOp) : Bool :=
  (match o.kind with | .amon _ => true | _ => false) && o.kind == q.kind && o.ord == q.ord && o.release == q.release
    && o.fence.map scopeNo == q.fence.map scopeNo && scopeNo o.scope == scopeNo q.scope

/-- Whether a packet's members could be performed as soon as it is at its home: what program order puts before them at its location has been
performed or stands in the packet itself. -/
def State.mayMerge (s : State) (ms : List (MemOp × Nat × Access)) : Bool := ms.all fun (o, k, a) => s.orderBut (packetIds ms) o k a

/-- ROUTER_MERGE (R205, R226): two packets that have left their groups (R200) and wait at one router for the same output become one; a
floating-point packet carries at most four operands. -/
def State.routerMerge (s : State) (id n id2 n2 : Nat) : State :=
  match s.opAt id n, s.opAt id2 n2 with
  | some (o, a), some (q, b) =>
    let both := s.packetOf id n ++ s.packetOf id2 n2
    if (id, n) ≠ (id2, n2) ∧ o.mergeable q = true ∧ a.size = b.size ∧ s.sameLoc a.target b.target = true ∧ a.place = b.place
        ∧ a.place ≠ a.goal ∧ a.performed = false ∧ b.performed = false ∧ a.carrier = none ∧ b.carrier = none
        ∧ s.mayLeave o a = true ∧ s.mayLeave q b = true ∧ (o.kind ≠ .amon 1 ∨ both.length ≤ 4) ∧ s.mayMerge both = true then
      (s.carried id2 n2).foldl (fun s (x, k, _) => s.onAccess x.id k fun y => { y with carrier := some (id, n) })
        (s.onAccess id2 n2 fun y => { y with carrier := some (id, n) })
    else s
  | _, _ => s

/-- ROUTER_MERGE. -/
def execRouterMerge (s : State) : Host.Outcome State Fault Refusal :=
  .next (s.routerMerge s.arg.op s.arg.acc s.arg.op2 s.arg.acc2)

/-! ## Deterministic adds (R227, R256, R258, R321) -/

/-- Whether a slice holds a new member of a context itself (R227, R321). -/
def State.sliceRoom (s : State) (ctx : Nat) (home : Nat × Nat) : Bool :=
  let here := s.pending.filter fun p => p.die == home.1 && p.slice == home.2 && !p.spilled
  decide (here.length < 8192) && decide ((here.filter fun p => p.ctx == ctx).length < 128)

/-- How a die reaches the place of the next member in a context's spill area: none without an area or without room in it, and no place that is
refused (R227, R412); one whose page is not resident waits. -/
def State.spillReach (s : State) (d ctx : Nat) : Reach × State :=
  let base := (s.reg (.spillBase d ctx)).toNat
  let used := (s.pending.filter fun p => p.die == d && p.ctx == ctx && p.spilled).length * Config.spillBytes
  if base = 0 ∨ s.fld (.spillSize d ctx) 31 0 * 65536 < used + Config.spillBytes then (.refused, s)
  else s.reach ctx (base + used) Config.spillBytes true

/-- The members of a location's pending set. -/
def State.membersAt (s : State) (t : Target) : Nat := (s.pending.filter fun p => s.sameLoc p.target t).length

/-- How a replay finds the log as a deterministic add arrives: an ABSENT page of it holds the add back (R412). -/
def State.settleReach (s : State) (o : MemOp) : Reach × State :=
  let t := (s.group o.core o.slot).task
  if s.logMode t = 2 then
    match s.logReach t.ctx with
    | (.refused, s) => (.refused, s.logRefused t.ctx)
    | r => r
  else (.refused, s)

/-- Whether a replay settles a location now: the arriving task's next logged decision is this settle (R258). -/
def State.settleLogged (s : State) (o : MemOp) (a : Access) : Bool :=
  let t := (s.group o.core o.slot).task
  s.logMode t == 2 &&
    (match s.logEntry t 4 with
      | some (v, x) => x == a.ptr && decide (v.toNat ≤ s.membersAt a.target)
      | none => false)

/-- An early settle (R227): it is counted at its die, and a decision of the task whose add arrived (R256). -/
def State.earlySettle (s : State) (o : MemOp) (a : Access) (die : Nat) : State :=
  let n := s.membersAt a.target
  let s := (s.settleAt a.target a.size).bump (.barStat die) 47 32 1
  (s.decideFor o.core o.slot 4 (BitVec.ofNat 64 n) a.ptr).2

/-- DETERMINISTIC_AMON_ARRIVAL (R227): the lane joins its location's pending set and is performed; without room for it the location
settles at once, with it (log entry 31). -/
def State.amonArrival (s : State) (id n : Nat) : State :=
  match s.opAt id n with
  | none => s
  | some (o, a) =>
    if o.kind == .det && s.mayPerform o n a then
      match a.target with
      | .peer r _ _ => s.atPeer o n a r
      | t =>
        match s.gate t true true (some (coreDie o.core)) with
        | (.wait, s) => s.holdAccess o n
        | (.gone, s) => s.accessFault o n a fcLeaseExpired
        | (.go _, s) =>
          if s.protects t false then (s.countProtect t).accessFault o n a fcBarrierProtect
          else match s.settleReach o with
          | (.absent, s) => s.holdAccess o n
          | (_, s) =>
            let home := s.homeOf t
            let here := s.sliceRoom o.ctx home
            match (if here then (.present, s) else s.spillReach home.1 o.ctx) with
            | (.absent, s) => s.holdAccess o n
            | (r, s) =>
            let p : Pending :=
              { target := t, size := a.size, task := o.task, lane := a.lane, ordinal := a.cmp, ktag := (s.group o.core o.slot).task.ktag
                ctx := o.ctx, operand := a.data, die := home.1, slice := home.2, spilled := !here && r == .present }
            let s := { s.sees o a with pending := s.pending ++ [p] }
            let s := o.releases.foldl (fun s r => s.joinChain t a.size (some r)) s
            let s := if (!here && r != .present) || s.settleLogged o a then s.earlySettle o a home.1 else s
            s.performed o n 0 false
    else s

/-- DETERMINISTIC_AMON_ARRIVAL. -/
def execDeterministicAmonArrival (s : State) : Host.Outcome State Fault Refusal := .next (s.amonArrival s.arg.op s.arg.acc)

/-! ## Waits on words (R215) -/

/-- Changes a wait. -/
def State.onWait (s : State) (id : Nat) (f : WaitReq → WaitReq) : State :=
  { s with waits := s.waits.map fun w => if w.id = id then f w else w }

/-- Removes a wait. -/
def State.dropWait (s : State) (id : Nat) : State := { s with waits := s.waits.filter fun w => w.id != id }

/-- Whether no earlier access of a waiting strand to the word is still to be performed (R197). -/
def State.waitClear (s : State) (w : WaitReq) : Bool :=
  match w.who with
  | .strand c u n =>
    let word := s.locsOf w.target 8
    s.ops.all fun o => !(o.core == c && o.uid == u && o.engine.isNone) || o.accs.all fun a =>
      a.performed || !a.owners.contains (.strand n) || !((s.locs a).any word.contains)
  | _ => true

/-- The waiter entries at a home slice (R211). -/
def State.entriesAt (s : State) (home : Nat × Nat) : Nat :=
  (s.waits.filter fun w => w.stage == .entry && s.homeOf w.target == home).length

/-- A wait meets a fault at the memory side: its strand's task ends (R95); a queue's wait stands for the queue to stop (R304, R341). -/
def State.waitFault (s : State) (w : WaitReq) (code : Nat) : State :=
  match w.who with
  | .strand c u n =>
    match s.slotOfGroup c u with
    | some k =>
      let x := (s.group c k).strand n
      (s.dropWait w.id).takeFault c k n x.wait.issue { code := code, kind := 2, mask := x.em, addr := x.wait.addr }
    | none => s
  | .queue _ => s
  | .peer rank _ => (s.dropWait w.id).peerReply rank 0 code

/-- A wait's entry is made at its home, after those that stand there (R215, R216). -/
def State.makeEntry (s : State) (id : Nat) : State :=
  { s with waits := (s.waits.filter fun w => w.id != id)
                    ++ (s.waits.filter fun w => w.id == id).map fun w => { w with stage := .entry } }

/-- WAIT_REQUEST_AT_HOME (R215): the word is compared; the reply wakes, an entry is made, or the request is refused. On a peer the reply
is a free value, and comes when it comes (log entry 24). -/
def State.waitAtHome (s : State) (id : Nat) : State :=
  match s.waits.find? fun w => w.id == id with
  | none => s
  | some w =>
    if w.stage == .sent && s.waitClear w then
      match w.target with
      | .peer r _ _ =>
        if (s.rankPorts r).isEmpty then s.waitFault w fcLinkDown
        else if s.arg.flag then s.waitFault w s.peerRefusal
        else if s.arg.code = 1 then
          let (v, s) := s.peerAnswer
          s.onWait id fun w => { w with stage := .woken (max v.toNat w.value) (s.arg.v == 1) }
        else s
      | t =>
        let (task, die) := match w.who with
          | .strand c _ _ => (true, coreDie c)
          | _ => (false, 0)
        match s.gate t task false (some die) with
        | (.wait, s) => s
        | (.gone, s) => s.waitFault w fcLeaseExpired
        | (.go _, s) =>
          let (v, s) := (s.settleAt t 8).readT t 0 8
          if w.value ≤ v then
            let s := s.waiterReads w
            s.onWait id fun w => { w with stage := .woken v false, heard := s.releasesAt t 8 }
          else if s.entriesAt (s.homeOf t) < 2048 then s.makeEntry id
          else s.onWait id fun w => { w with stage := .refused, since := s.time }
    else s

/-- WAIT_REQUEST_AT_HOME. -/
def execWaitRequestAtHome (s : State) : Host.Outcome State Fault Refusal := .next (s.waitAtHome s.arg.id)

/-- The core whose cycles a waiter's time between requests counts (R215); the front end's and a peer's waits count core 0's. -/
def Waiter.core : Waiter → Nat
  | .strand c _ _ => c
  | _ => 0

/-- BAR_CFG.RETRY of a waiter's die, two to a core cycle; 0 reads as 1 (R228). -/
def State.retryTime (s : State) (w : Waiter) : Nat := 2 * max 1 (s.fld (.barCfg (coreDie w.core)) 15 0)

/-- WAIT_REQUEST_RETRY (R215). -/
def execWaitRequestRetry (s : State) : Host.Outcome State Fault Refusal :=
  .next (match s.waits.find? fun w => w.id == s.arg.id with
    | some w =>
      if w.stage == .refused && decide (s.retryTime w.who ≤ s.coreSince w.who.core w.since) then
        s.onWait w.id fun w => { w with stage := .sent, since := s.time }
      else s
    | none => s)

/-- JOIN's last read, of the status word behind the counter (R251): its value, or none while its page is not resident; a fault that it
meets ends the task, LINK_DOWN among them where no port reaches a peer's future any more (R360). -/
def State.joinStatus (s : State) (c k n : Nat) : Option (DWord × Bool) × State :=
  let g := s.group c k
  let x := g.strand n
  match s.wholeTarget c k g.task ((x.wait.addr.toNat + 8) % 2 ^ 64) with
  | none => (none, s)
  | some (.peer r _ ia) =>
    if (s.rankPort r (homeHash ia)).isNone then
      (some (0, false), s.takeFault c k n x.wait.issue { code := fcLinkDown, kind := 2, mask := x.em, addr := x.wait.addr })
    else let (v, s) := s.peerAnswer; (some (v, true), s)
  | some t =>
    match s.gate t true false (some (coreDie c)) with
    | (.wait, s) => (none, s)
    | (.gone, s) => (some (0, false), s.takeFault c k n x.wait.issue { code := fcLeaseExpired, kind := 2, mask := x.em, addr := x.wait.addr })
    | (.go _, s) => let (v, s) := (s.settleAt t 8).readT t 0 8; (some (BitVec.ofNat 64 v, true), s)

/-- The satisfying read of a wait is an acquire at its scope, which synchronises with the releases of the word it read (R194, R200, R203); a
peer's word may hold the adds of the group's own engines, and all that they wrote is seen. -/
def State.acquireWait (s : State) (c k : Nat) (w : WaitReq) : State :=
  let g := s.group c k
  s.setGroup c k (match w.target with
    | .peer _ _ _ => { g with unseen := [] }
    | _ => g.acquireOf c w.scope w.heard)

/-- A woken strand goes on (R77, R109, R111, R224, R251); answers false where it cannot yet, since a page it needs is not resident. -/
def State.wakeStrand (s : State) (c k n : Nat) (w : WaitReq) (broken : Bool) : Bool × State :=
  let x := (s.group c k).strand n
  let s := s.acquireWait c k w
  match x.wait.kind with
  | .park | .bwait => (true, (s.putS c k x.wait.dest (if broken then 1 else 0)).endWait c k n x.wait.cont)
  | .join =>
    match s.joinStatus c k n with
    | (none, s) => (false, s)
    | (some (_, false), s) => (true, s)
    | (some (v, true), s) => (true, (s.putS c k x.wait.dest v).endWait c k n x.wait.cont)
  | .trap => if x.wait.phase = 0 then s.trapPost c k n else s.trapDone c k n
  | _ => (true, s)

/-- Whether a barrier's break still has an earlier entry of the same line to wake on a core: the wakes go out in the order of the entries
(R216). -/
def State.wakeBehind (s : State) (w : WaitReq) : Bool :=
  let line := s.loc w.target 0 / 128
  (s.waits.takeWhile fun v => v.id != w.id).any fun v =>
    (match v.stage with | .woken _ true => true | _ => false) && s.loc v.target 0 / 128 == line
      && (match v.who with | .strand c u _ => (s.slotOfGroup c u).isSome | _ => true)

/-- WAKE (R215): a strand's wake reaches its core. One of a saved group stands until the group is restored; one that no waiting strand
is left for is dropped. -/
def State.wake (s : State) (id : Nat) : State :=
  match s.waits.find? fun w => w.id == id with
  | none => s
  | some w =>
    match w.who, w.stage with
    | .peer rank _, .woken v broken =>
      if broken && s.wakeBehind w then s else (s.dropWait id).peerReply rank (BitVec.ofNat 64 v) (if broken then 1 else 0)
    | .strand c u n, .woken _ broken =>
      if broken && s.wakeBehind w then s
      else match s.slotOfGroup c u with
      | some k =>
        let x := (s.group c k).strand n
        if x.state == .waiting then
          match s.wakeStrand c k n w broken with
          | (true, s) => s.dropWait id
          | (false, s) => s
        else s.dropWait id
      | none =>
        if (s.core c).saved.any fun v => v.group.uid == u then s
        else if (s.core c).binding.any fun b => (match b with | .saved g _ _ _ => g.uid == u | _ => false) then s
        else s.dropWait id
    | _, _ => s

/-- WAKE. -/
def execWake (s : State) : Host.Outcome State Fault Refusal := .next (s.wake s.arg.id)

/-! ## The descriptor cache (R174) -/

/-- Adds a descriptor to a core's cache; a full cache gives up an entry of its choice. -/
def State.addDesc (s : State) (c : Nat) (e : DescEntry) : State :=
  let x := s.core c
  let rest := x.desc.filter fun y => !(y.ctx == e.ctx && y.addr == e.addr)
  if rest.length < 64 then s.setCore c { x with desc := rest ++ [e] }
  else { s.setCore c { x with desc := rest.eraseIdx (Config.pick s.draws % rest.length) ++ [e] } with draws := s.draws + 1 }

/-- Forgets a fetch. -/
def State.dropFetch (s : State) (c : Nat) (f : Fetch) : State :=
  let x := s.core c
  s.setCore c { x with fetches := x.fetches.filter fun y => y != f }

/-- DESCRIPTOR_FETCH (R174): the 64 bytes arrive; a fault is charged to the naming instruction, which has no other effect. LEASE_EXPIRED and
LINK_DOWN that name a task are of kind imprecise all the same (R328). -/
def State.descFetch (s : State) (c k n : Nat) : State :=
  match (s.core c).fetches.find? fun f => f.slot == k && f.strand == n with
  | none => s
  | some f =>
    let g := s.group c k
    let x := g.strand n
    let bad (s : State) (code : Nat) : State :=
      (s.dropFetch c f).takeFault c k n f.pc
        { code := code, kind := if code = fcPermission then 0 else 2, mask := x.em, addr := BitVec.ofNat 64 f.ptr }
    if !((s.slot c k).state == .active || (s.slot c k).state == .frozen) || x.pc != f.pc then s.dropFetch c f
    else match s.heldTarget f.spans c k g.task f.ptr with
      | none => s.dropFetch c f
      | some t =>
        let peer := match t with | .peer _ _ _ => true | _ => false
        if peer && s.arg.flag then bad s s.peerRefusal
        else match s.serve t true false c with
          | (.wait, s) => s
          | (.bad code, s) => bad s code
          | (.done, s) =>
            let (v, s) := (s.settleAt t 64).fetchT t 64
            (s.addDesc c { ctx := g.task.ctx, addr := descKey k f.ptr, words := natWords v 8 }).dropFetch c f

/-- DESCRIPTOR_FETCH. -/
def execDescriptorFetch (s : State) : Host.Outcome State Fault Refusal := .next (s.descFetch s.arg.core s.arg.slot s.arg.strand)

end Sys2Proof.Machine
end

