-- ==== Sys2Proof/Machine/Slots.lean ====
section
/-! DEFINITION. Slots and their blocks: the buddy allocators of a core (R83, R84, R266), what a record or group asks of them, the
per-core budgets of regions (R309), and the end of what a slot held. -/
namespace Sys2Proof.Machine

/-! ## The allocators (R84) -/

/-- The granules of a class of a core (R83, R169): the vector halves of ports 0 and 1, tiles, accumulators, the private pool. -/
def State.granules (s : State) (c cls : Nat) : Nat :=
  match cls with
  | 0 | 1 => 64
  | 2 => 32
  | 3 => 16
  | _ => s.fld (.spadSplit c) 13 8

/-- Whether a block overlaps a range of granules of a class. -/
def Block.meets (b : Block) (cls base size : Nat) : Bool :=
  b.cls == cls && decide (b.base < base + size) && decide (base < b.base + b.size)

/-- Whether an aligned piece of a class is free. -/
def pieceFree (bs : List Block) (cls cap base size : Nat) : Bool :=
  base % size == 0 && decide (base + size ≤ cap) && bs.all fun b => !b.meets cls base size

/-- Whether an aligned piece is a free block of its allocator: free, and not half of a larger free one, since a freed block
merges with its buddy. -/
def pieceWhole (bs : List Block) (cls cap base size : Nat) : Bool :=
  pieceFree bs cls cap base size && !pieceFree bs cls cap (base / (2 * size) * (2 * size)) (2 * size)

/-- The block that a request of a power of two receives: the lowest free one of its size, or the front of the lowest of the smallest
larger ones. -/
def buddyFrom (bs : List Block) (cls cap : Nat) : Nat → Nat → Option Nat
  | 0, _ => none
  | fuel + 1, size =>
    match firstBelow (fun b => pieceWhole bs cls cap b size) cap with
    | some b => some b
    | none => buddyFrom bs cls cap fuel (2 * size)

/-- The place that the allocator of a class gives a request (R84). -/
def State.buddy (s : State) (c : Nat) (bs : List Block) (cls size : Nat) : Option Nat :=
  buddyFrom bs cls (s.granules c cls) 7 size

/-- What classes ask of a slot: class and granules (R83, R230). -/
def classWants (k vc tc ac lc : Nat) : List (Nat × Nat) :=
  [(k / 16, 2 ^ vc)] ++ (if tc = 0 then [] else [(2, 2 ^ (tc - 1))]) ++ (if ac = 0 then [] else [(3, 2 ^ (ac - 1))])
    ++ (if lc = 0 then [] else [(4, 4 ^ (lc - 1))])

/-- Grants a list of requests to a slot, each its block, or none at all. -/
def State.grantTo (s : State) (c k : Nat) : List (Nat × Nat) → List Block → Option (List Block)
  | [], bs => some bs
  | (cls, n) :: t, bs =>
    match s.buddy c bs cls n with
    | some b => s.grantTo c k t (bs ++ [{ cls := cls, base := b, size := n, slot := k }])
    | none => none

/-- Grants the same classes to several slots. -/
def State.grantSlots (s : State) (c : Nat) (wants : Nat → List (Nat × Nat)) : List Nat → List Block → Option (List Block)
  | [], bs => some bs
  | k :: t, bs =>
    match s.grantTo c k (wants k) bs with
    | some bs => s.grantSlots c wants t bs
    | none => none

/-- The free granules of a class. -/
def State.freeGranules (s : State) (c cls : Nat) : Nat :=
  s.granules c cls - (((s.core c).blocks.filter fun b => b.cls == cls).map (·.size)).foldl (· + ·) 0

/-! ## Budgets (R309) -/

/-- The tile and accumulator granules that a region and its descendants hold on a core. -/
def State.regionUses (s : State) (c r : Nat) : Nat × Nat :=
  (s.core c).slots.foldl (fun (t, a) (_, x) =>
    if x.state != .free && (s.eff x.group.task.ktag).path.contains r then (t + classT x.group.tc / 2, a + classA x.group.ac)
    else (t, a)) (0, 0)

/-- Whether every region on a kernel's path stays within its effective tile and accumulator budgets on a core when a task takes so
many granules more (R309). -/
def State.inBudget (s : State) (c ktag tiles accums : Nat) : Bool :=
  let e := s.eff ktag
  (e.path.zip e.budgets).all fun (r, t, a, _, _) =>
    let (ut, ua) := s.regionUses c r
    decide (ut + tiles ≤ t) && decide (ua + accums ≤ a)

/-! ## Choosing slots (R240) -/

/-- The sets of slots that a task can take: one slot, or four slots 4m to 4m + 3; those that a first slot asked for names come
first. -/
def slotSets (quad : Bool) (first : Nat) : List (List Nat) :=
  if quad then (List.range 8).map fun m => (List.range 4).map (4 * ((m + first / 4) % 8) + ·)
  else (List.range 32).map fun k => [(k + first) % 32]

/-- The first set of free slots whose blocks can be granted, and the blocks after it; the choice among free slots is open, and the
turn's slot operand makes it (log entry 27). -/
def State.chooseSlots (s : State) (c : Nat) (quad : Bool) (wants : Nat → List (Nat × Nat)) : Option (List Nat × List Block) :=
  (slotSets quad s.arg.slot).findSome? fun ks =>
    if ks.all fun k => (s.slot c k).state == .free then
      (s.grantSlots c wants ks (s.core c).blocks).map fun bs => (ks, bs)
    else none

/-! ## Giving blocks back (R75, R84, R266) -/

/-- A slot's blocks after its group has gone: vector and private blocks are free at once, tile and accumulator blocks pass to
SCRUB (R266). keep says that the lane-private block stays (R86): it belongs to no slot then, written as slot 32. -/
def CoreState.releaseBlocks (x : CoreState) (k : Nat) (keep : Bool) : CoreState :=
  { x with blocks := x.blocks.filterMap fun b =>
      if b.slot ≠ k then some b
      else if b.cls = 2 ∨ b.cls = 3 then some { b with state := .scrub, slot := 32 }
      else if b.cls = 4 ∧ keep then some { b with slot := 32 }
      else none }

/-- A slot becomes FREE. -/
def State.freeSlot (s : State) (c k : Nat) (keep : Bool) : State :=
  (s.setCore c ((s.core c).releaseBlocks k keep)).setSlot c k {}

/-- The private-pool granule of a slot's block; a number past the pool for none. -/
def State.lpOf (s : State) (c k : Nat) : Nat :=
  match (s.core c).blocks.find? fun b => b.cls == 4 && b.slot == k with
  | some b => b.base
  | none => 2 ^ 16

end Sys2Proof.Machine
end

