-- ==== Sys2Proof/Machine/GroupEvents.lean ====
section
/-! DEFINITION. Steps of a group's life: claims (R413), binding and entry (R75, R76, R240), compaction (R84, R85), parking,
pre-emption, saving and restoring (R86, R96, R97), the end of a task (R236) and the counters (R92, R108). A step whose
conditions do not hold leaves the state as it is. -/
namespace Sys2Proof.Machine

/-! ## Claims (R413) -/

/-- Whether a slot holds a group that has not ended. -/
def SlotState.lives : SlotState → Bool
  | .active | .frozen | .saving => true
  | _ => false

/-- CLAIM_SERVED (R80, R81, R413): the strand that forms takes over the order of the accesses of those that arrived (R199). -/
def execClaimServed (s : State) : Host.Outcome State Fault Refusal :=
  let c := s.arg.core
  let k := s.arg.slot
  let g := s.group c k
  .next (if (s.slot c k).state.lives then
    match g.firstClaim, g.freeStrand with
    | some j, some n => (s.setGroup c k (g.serveClaim s.time)).ownForm c k j n
    | _, _ => s
  else s)

/-- Whether a kernel is being cancelled. -/
def State.cancelling (s : State) (tag : Nat) : Bool := ((s.kernel tag).map (·.cancelled)).getD true

/-! ## Candidates for a slot (R240) -/

/-- Whether one of a saved group's strands can go on: it was pre-empted with a strand that does not wait, or a wake has come for it. -/
def State.savedReady (s : State) (c : Nat) (v : Saved) : Bool :=
  v.group.strands.any (fun (_, x) => x.state != .waiting)
    || s.waits.any fun w => match w.who, w.stage with
      | .strand d u _, .woken _ _ => d == c && u == v.group.uid
      | _, _ => false

/-- The saved groups that are restored with one: the four of its quad, or itself (R96). -/
def CoreState.savedSet (x : CoreState) (v : Saved) : List Saved :=
  match v.group.task.quad with
  | none => [v]
  | some q => x.saved.filter fun u => u.group.task.ktag == v.group.task.ktag &&
      (match u.group.task.quad with
        | some p => u.group.task.id - BitVec.ofNat 64 p == v.group.task.id - BitVec.ofNat 64 q
        | none => false)

/-- The saved groups that can be restored now. -/
def State.restorable (s : State) (c : Nat) : List Saved :=
  (s.core c).saved.filter fun v => ((s.core c).savedSet v).any (s.savedReady c)

/-- The groups of a core, on its slots, saved or being restored. -/
def CoreState.groups (x : CoreState) : List Group :=
  (x.slots.filter fun (_, y) => y.state != .free).map (·.2.group) ++ x.saved.map (·.group) ++ x.binding.filterMap fun b => match b with
    | .saved g _ _ _ => some g
    | _ => none

/-- Whether the group that pushed a record has a strand in WAITING, or its task has ended (R240). A caller whose child runs waits in its EXEC. -/
def State.pusherWaits (s : State) (c : Nat) (r : Rec) : Bool :=
  match r.pusher with
  | none => true
  | some (uid, no) =>
    (s.core c).groups.all fun g =>
      g.uid != uid || g.task.no != no || g.strands.any fun (_, x) => x.state == .waiting

/-- Whether a deque record is available (R240). -/
def State.recAvailable (s : State) (c : Nat) (r : Rec) : Bool :=
  r.state != .staging && (r.available || r.stolen || s.pusherWaits c r)

/-- Whether an order-log entry's id and index words say that a record was stolen (R257). -/
def stealEntry (id index : Nat) (r : Rec) : Bool := id == (recId r.words).toNat && index == 0xFFFFFFFF + 2 ^ 32

/-- The thief and victim of a record's next steal in replay (R257, R258), after those that have happened; none if none is logged. -/
def State.loggedSteal (s : State) (r : Rec) : Option (Nat × Nat) :=
  (s.logNth r.ctx (fun id i => stealEntry id i r) (s.fld (.ordSize r.ctx) 31 0 * 128) 0 r.steals).map fun (v, _) =>
    (bits v.toNat 10 0, bits v.toNat 26 16)

/-- Whether a record's steals are forced by a log in replay (R258). -/
def State.replays (s : State) (r : Rec) : Bool := s.logMode { ctx := r.ctx, det := r.det } == 2

/-- Whether the log of a replayed record cannot be read yet, since a page of it is not resident (R412). -/
def State.logAway (s : State) (r : Rec) : Bool := s.replays r && (s.logReach r.ctx).1 == .absent

/-- Whether a replay leaves a record for its logged thief (R258): one more steal of it is logged, or may be, so it is not taken locally. -/
def State.thiefWaits (s : State) (r : Rec) : Bool := s.replays r && (s.logAway r || (s.loggedSteal r).isSome)

/-- The logs that a core's records are replayed from are reached: a page of one that is ABSENT is asked for, and one that is refused stops (R258,
R412). -/
def State.reachLogs (s : State) (c : Nat) : State :=
  (s.core c).deque.foldl (fun s r =>
    if s.replays r then
      (match s.logReach r.ctx with
        | (.refused, s) => s.logRefused r.ctx
        | (_, s) => s)
    else s) s

/-- The oldest aged record of a deque (R240). -/
def State.agedRec (s : State) (c : Nat) : Option Rec :=
  let aged := (s.core c).deque.filter fun r => r.aged && !s.thiefWaits r
  (sortBy (fun a b => decide (a.pushedAt ≤ b.pushedAt)) aged).head?

/-- The slots and blocks that a record would take, if its budgets and the allocators grant them (R84, R240, R309); a record in STAGING
is not chosen before it is STAGED (R238). -/
def State.fits (s : State) (c : Nat) (r : Rec) : Option (List Nat × List Block) :=
  let w := r.words
  let n := if recQuad w then 4 else 1
  if r.state != .staging && s.inBudget c r.ktag (n * (classT (recTc w) / 2)) (n * classA (recAc w)) then
    s.chooseSlots c (recQuad w) fun k => classWants k (recVc w) (recTc w) (recAc w) (recLc w)
  else none

/-- The candidates of step 3 of R240, the first one first. -/
def State.lastCandidates (s : State) (c : Nat) : List Rec :=
  let x := s.core c
  let a := x.deque.reverse.find? fun r => s.recAvailable c r && !s.thiefWaits r
  match x.inbound.head?, a with
  | some h, some a => if recPrio h.words < recPrio a.words then [a, h] else [h, a]
  | some h, none => [h]
  | none, some a => [a]
  | none, none => []

/-- The records that the task unit would take now, in order: a saved group that can be restored holds every record back, and an aged
record every later one (R240). -/
def State.candidates (s : State) (c : Nat) : List Rec :=
  if !(s.restorable c).isEmpty then []
  else match s.agedRec c with
    | some r => [r]
    | none => s.lastCandidates c

/-- What is still to be staged of a record. -/
def Rec.unstaged (r : Rec) : List Nat :=
  match r.state with
  | .staged => []
  | .staging => r.toStage
  | _ => recOperands r.words

/-- The task of a record, on group q of a quad or alone (R234). -/
def Rec.task (r : Rec) (quad : Option Nat) : TaskInfo :=
  { id := recId r.words + BitVec.ofNat 64 (quad.getD 0), addr := r.addr, record := r.words, ctx := r.ctx, ktag := r.ktag
    quad := quad, det := r.det, handler := r.handler, relaunches := r.relaunches, steals := r.steals }

/-- The group that a record's classes make, before its entry. -/
def Rec.group (r : Rec) (quad : Option Nat) : Group :=
  { task := r.task quad, vc := recVc r.words, tc := recTc r.words, ac := recAc r.words, lc := recLc r.words }

/-- SLOT_BIND (R75, R84, R238, R240): the first candidate that can be granted its slots and blocks leaves its queue; its extra lease is
asked for, and what is not staged yet is staged first. -/
def State.slotBind (s : State) (c : Nat) : State :=
  let s := s.reachLogs c
  match (s.candidates c).findSome? fun r => (s.fits c r).map fun g => (r, g) with
  | none => s
  | some (r, ks, bs) =>
    let x := s.core c
    let r' := { r with toStage := r.unstaged, state := .leasing }
    let s := s.setCore c { x with
      deque := x.deque.filter fun y => !y.same r
      inbound := x.inbound.filter fun y => !y.same r
      blocks := bs
      binding := x.binding ++ [.record r' ks] }
    let s := ks.zipIdx.foldl (fun s (k, q) =>
      s.setSlot c k { state := .binding, group := r.group (if recQuad r.words then some q else none) }) s
    (s.askLease c r').progress r.ktag

/-- SLOT_BIND. -/
def execSlotBind (s : State) : Host.Outcome State Fault Refusal := .next (s.slotBind s.arg.core)

/-! ## Entry (R76, R238, R253) -/

/-- The entry address of a record: its kernel's code base and ENTRY (R229). -/
def State.entryPc (s : State) (r : Rec) : DWord :=
  ((s.kernel r.ktag).map fun k => k.launch.codeBase).getD 0 + BitVec.ofNat 64 (recEntry r.words)

/-- Whether a chosen record may enter: its operands staged and its extra range leased (R238). -/
def Rec.ready (r : Rec) : Bool := r.toStage.isEmpty && r.leaseHeld

/-- The lease of a record passes to its task. -/
def State.leaseToTask (s : State) (c uid id no : Nat) : State :=
  { s with leases := s.leases.map fun e => if e.holder == .record c id then { e with holder := .task c uid no } else e }

/-- The tile and accumulator blocks that a slot's classes ask for and that an engine reset or a fault took away, granted anew once their scrub
has made room (R292, R295); none while there is none. -/
def State.regrant (s : State) (c : Nat) : List Nat → Option State
  | [] => some s
  | k :: t =>
    let g := s.group c k
    let x := s.core c
    let lack := (classWants k g.vc g.tc g.ac g.lc).filter fun (cls, _) =>
      (cls == 2 || cls == 3) && !(x.blocks.any fun b => b.cls == cls && b.slot == k)
    if lack.isEmpty then s.regrant c t
    else match s.grantTo c k lack x.blocks with
      | none => none
      | some bs => (s.setCore c { x with blocks := bs }).regrant c t

/-- A record enters its slots (R76), each group as an agent of its own (R191), the task with a number of its own. -/
def State.enter (s : State) (c : Nat) (r : Rec) (ks : List Nat) : State :=
  let x := s.core c
  let s := s.setCore c { x with binding := x.binding.filter fun b => match b with
    | .record y _ => !y.same r
    | _ => true }
  let (no, s) := s.fresh
  let s := ks.zipIdx.foldl (fun s (k, q) =>
    let task := { r.task (if recQuad r.words then some q else none) with no := no }
    let (id, s) := s.fresh
    s.setSlot c k { state := .active
                    group := { Group.entry task (recVc r.words) (recTc r.words) (recAc r.words) (recLc r.words) (s.entryPc r) s.time with
                                  uid := id } }) s
  s.leaseToTask c (s.group c (ks.headD 0)).uid r.id no

/-- The first of a group's strands. -/
def Group.first (g : Group) : Nat := ((g.strands.head?).map (·.1)).getD 0

/-- A record that was to run in place leaves the task unit. -/
def State.dropBinding (s : State) (c : Nat) (r : Rec) : State :=
  let x := s.core c
  s.setCore c { x with
    binding := x.binding.filter fun b => match b with
      | .record z _ => !z.same r
      | _ => true
    cmds := x.cmds.filter fun d => d.owner != .staging r.id }

/-- A child enters its caller's slot (R253): the caller's state stands in its EXEC frame, and its registers are the child's. The entry is an
acquire of the group (R203). -/
def State.enterChild (s : State) (c k : Nat) (r : Rec) : State :=
  let g := s.group c k
  let x := g.strand g.first
  let base := x.wait.ring.toNat
  let s := (s.writeWords g.task.ctx base (g.saveWords k)).dropBinding c r
  let f : Frame := { addr := base, size := g.saveSize, task := g.task, dest := x.wait.dest, cont := x.wait.cont, issue := x.wait.issue, fenced := x.fenced
                     mmaqs := g.mmaqs, tokens := g.tokens, made := g.made }
  let child := Group.entry (r.task none) g.vc g.tc g.ac g.lc (s.entryPc r) s.time
  let (no, s) := s.fresh
  let child := { child with task := { child.task with quad := g.task.quad, no := no }, frames := f :: g.frames, mmaqs := g.mmaqs,
                             mmaqBad := g.mmaqBad, unseen := g.acquired.unseen, heard := g.heard, uid := g.uid }
  (s.setGroup c k child).leaseToTask c g.uid r.id no

/-- The record that a slot's group waits to run in place, if it waits so (R253). -/
def State.execRec (s : State) (c k : Nat) : Option Rec :=
  let g := s.group c k
  match g.strands.find? fun (_, x) => x.state == .waiting && x.wait.kind == .exec with
  | none => none
  | some (_, x) =>
    (s.core c).binding.findSome? fun b => match b with
      | .record r _ => if r.id = x.wait.head.toNat then some r else none
      | _ => none

/-- The record that is binding to a slot. -/
def CoreState.bindingAt (x : CoreState) (k : Nat) : Option (Rec × List Nat) :=
  x.binding.findSome? fun b => match b with
    | .record r ks => if ks.contains k then some (r, ks) else none
    | _ => none

/-- TASK_ENTRY (R75, R76, R238, R253, R295). An EXEC frame's page that is ABSENT is asked for first, and a
save area that can no longer be reached lacks room (R312, R412). -/
def State.taskEntry (s : State) (c k : Nat) : State :=
  match (s.core c).bindingAt k with
  | some (r, ks) => if r.ready then (match s.regrant c ks with | some s => s.enter c r ks | none => s) else s
  | none =>
    match s.execRec c k with
    | none => s
    | some r =>
      let g := s.group c k
      if (s.slot c k).state == .active && r.ready && g.drained then
        let x := g.strand g.first
        let base := x.wait.ring.toNat
        match s.reach g.task.ctx base g.saveSize true with
        | (.absent, s) => s
        | (.present, s) => s.enterChild c k r
        | (.refused, s) =>
          let s := ((s.dropSave g.task.ctx base).dropBinding c r).dropLease c r.id
          s.takeFault c k g.first x.wait.addr { code := fcRecordInvalid, kind := 2, mask := x.em }
      else s

/-! ## Parking and pre-emption (R96, R97, R312) -/

/-- Whether every strand of a group waits in JOIN, PARK or TRAP (R96). -/
def Group.parked (g : Group) : Bool :=
  g.strands.all fun (_, x) => x.state == .waiting && (x.wait.kind == .join || x.wait.kind == .park || x.wait.kind == .trap)

/-- Whether an MMAQ of a slot's quad is incomplete (R96). -/
def State.mmaqOpen (s : State) (c k : Nat) : Bool :=
  (s.core c).tileOps.any fun o => (taskSlots (s.group c k) k).contains o.slot && o.kind.mmaqNo.isSome

/-- Whether a group, and with it its quad, is eligible for parking (R96). -/
def State.eligible (s : State) (c k : Nat) : Bool :=
  !s.mmaqOpen c k && (taskSlots (s.group c k) k).all fun j =>
    (s.slot c j).state == .active && (s.group c j).parked && !(s.group c j).strands.isEmpty && !(s.group c j).servable

/-- The cycle in which the last of its strands began its wait. -/
def State.eligibleSince (s : State) (c k : Nat) : Nat :=
  ((taskSlots (s.group c k) k).flatMap fun j => (s.group c j).strands.map fun (_, x) => x.since / 2).foldl max 0

/-- Takes a save block for each slot of a task; none if an area lacks room (R312). -/
def State.takeBlocks (s : State) (c : Nat) : List Nat → Option State
  | [] => some s
  | k :: t =>
    let g := s.group c k
    match s.saveRoom g.task.ctx g.task.ktag g.saveSize with
    | (none, _) => none
    | (some p, s) =>
      let s := s.takeSave g.task.ctx p g.saveSize
      (s.setSlot c k { s.slot c k with saveAt := some p }).takeBlocks c t

/-- A task begins to be saved: its slots are SAVING, with MMAQs that its quad has not all issued withdrawn (R75, R97); without room for
its blocks it goes on (R312). -/
def State.beginSave (s : State) (c k : Nat) : State :=
  let ks := taskSlots (s.group c k) k
  match s.takeBlocks c ks with
  | none => ks.foldl (fun s j => s.setSlot c j { s.slot c j with preempt := none }) s
  | some s =>
    ks.foldl (fun s j => s.setSlot c j { s.slot c j with state := .saving, cause := .none }) (s.withdrawLoose c k)

/-- Whether a record of the core that waits for a slot finds none free (R96). -/
def State.slotWanted (s : State) (c : Nat) : Bool :=
  let none' (quad : Bool) : Bool := (slotSets quad 0).all fun ks => ks.any fun k => (s.slot c k).state != .free
  (s.agedRec c).any (fun r => none' (recQuad r.words)) || (s.lastCandidates c).any fun r => none' (recQuad r.words)

/-- OFF_CORE_PARK (R96): the group or quad that became eligible first is saved. -/
def State.park (s : State) (c : Nat) : State :=
  if s.slotWanted c then
    let ks := (List.range 32).filter fun k =>
      (s.slot c k).state == .active && s.eligible c k && (s.takeBlocks c (taskSlots (s.group c k) k)).isSome
    match sortBy (fun a b => decide (s.eligibleSince c a < s.eligibleSince c b)
        || (s.eligibleSince c a == s.eligibleSince c b && decide (a ≤ b))) ks with
    | k :: _ => s.beginSave c k
    | [] => s
  else s

/-- OFF_CORE_PARK. -/
def execOffCorePark (s : State) : Host.Outcome State Fault Refusal := .next (s.park s.arg.core)

/-- Whether a group's EXEC is under way: its record is still to enter (R253). -/
def Group.entering (g : Group) : Bool := g.strands.any fun (_, x) => x.state == .waiting && x.wait.kind == .exec

/-- A group whose pre-emption was asked for stops at its pre-emption point, a quad when all four stand at theirs (R97): it is saved, or
ends if it was cancelled (R315). force says that the point is no longer waited for, and that an instruction boundary is enough. An EXEC
under way is completed first: its child enters before the group is saved. -/
def State.stopCheck (s : State) (c k : Nat) (force : Bool) : State :=
  let ks := taskSlots (s.group c k) k
  if (s.group c k).ending.isSome then s.cancelPoint c k force
  else if ks.all fun j =>
      let x := s.slot c j
      x.preempt.isSome && x.state == .active && (x.group.atPoint || (force && x.group.atBoundary)) && !x.group.entering then
    s.beginSave c k
  else s

/-- TASK_ENTRY; a group whose pre-emption waited for its EXEC then stops (R97). -/
def execTaskEntry (s : State) : Host.Outcome State Fault Refusal :=
  .next ((s.taskEntry s.arg.core s.arg.slot).stopCheck s.arg.core s.arg.slot false)

/-- PREEMPT_REQUEST (R97, R312); a request that waits is looked at again. -/
def State.preempt (s : State) (c k : Nat) : State :=
  let ks := taskSlots (s.group c k) k
  if ks.all (fun j => (s.slot c j).state == .active && (s.slot c j).preempt.isNone) && (s.takeBlocks c ks).isSome then
    (ks.foldl (fun s j => s.setSlot c j { s.slot c j with preempt := some s.time }) s).stopCheck c k false
  else s.stopCheck c k false

/-- PREEMPT_REQUEST. -/
def execPreemptRequest (s : State) : Host.Outcome State Fault Refusal := .next (s.preempt s.arg.core s.arg.slot)

/-- PREEMPT_TIMEOUT (R97): 2,000 core cycles have passed without the point. -/
def execPreemptTimeout (s : State) : Host.Outcome State Fault Refusal :=
  .next (match (s.slot s.arg.core s.arg.slot).preempt with
    | some t => if 4000 ≤ s.coreSince s.arg.core t then s.stopCheck s.arg.core s.arg.slot true else s
    | none => s)

/-! ## Compaction (R84, R85, R266) -/

/-- Whether a class has enough free granules for so many requests of a size, and no aligned blocks for them. -/
def State.cramped (s : State) (c cls n count : Nat) : Bool :=
  decide (n * count ≤ s.freeGranules c cls) && (s.grantTo c 32 (List.replicate count (cls, n)) (s.core c).blocks).isNone

/-- The classes that a task asks for, on slots of a port. -/
def wantOf (k cls vc tc ac lc : Nat) : Option Nat :=
  ((classWants k vc tc ac lc).find? fun (x, _) => x == cls).map (·.2)

/-- Whether something that waits for blocks on a core is held up by a class being broken up (R84): a saved group, or a record. -/
def State.wantsRoom (s : State) (c cls : Nat) : Bool :=
  let held (quad : Bool) (vc tc ac lc : Nat) : Bool :=
    (slotSets quad 0).any fun ks => ks.all (fun k => (s.slot c k).state == .free) &&
      (match wantOf (ks.headD 0) cls vc tc ac lc with
        | some n => s.cramped c cls n ks.length
        | none => false)
  match s.restorable c with
  | v :: _ => cls != 4 && held v.group.task.quad.isSome v.group.vc v.group.tc v.group.ac 0
  | [] => (s.candidates c).any fun r =>
      (s.fits c r).isNone && held (recQuad r.words) (recVc r.words) (recTc r.words) (recAc r.words) (recLc r.words)

/-- The move that compaction makes next (R84): that of the largest live block that a lower free aligned place takes. -/
def State.nextMove (s : State) (c cls : Nat) : Option Move :=
  let x := s.core c
  let live := x.blocks.filter fun b => b.cls == cls && decide (b.slot < 32) && b.state != .scrub
  let order := sortBy (fun a b => decide (b.size < a.size) || (a.size == b.size && decide (a.base ≤ b.base))) live
  order.findSome? fun b =>
    (firstBelow (fun p => pieceFree x.blocks cls (s.granules c cls) p b.size) b.base).map fun p =>
      { cls := cls, slot := b.slot, src := b.base, dst := p }

/-- Whether a block is the one that a move concerns. -/
def Move.hits (m : Move) (b : Block) : Bool := b.cls == m.cls && b.base == m.src && b.slot == m.slot

/-- COMPACTION_MOVE (R84, R85): the copy engine freezes the group of the block it will move, outside a hint sequence, and keeps the place; a
group that is not ACTIVE is waited for. Once the group's ld and tl have drained and the engine stands between two segments (R184), the block is
MOVING. -/
def State.compactionMove (s : State) (c cls : Nat) : State :=
  let x := s.core c
  match x.move with
  | some m =>
    let y := s.slot c m.slot
    if y.state == .frozen && y.cause == .compaction && y.group.ld == 0 && y.group.tl == 0 && x.midSegment.isNone then
      s.setCore c { x with blocks := x.blocks.map fun b => if m.hits b then { b with state := .moving } else b }
    else s
  | none =>
    if s.wantsRoom c cls then
      match s.nextMove c cls with
      | none => s
      | some m =>
        let size := ((x.blocks.find? m.hits).map (·.size)).getD 0
        let y := s.slot c m.slot
        if y.state == .active && y.group.atBoundary then
          let s := s.setCore c { x with move := some m
                                        blocks := x.blocks ++ [{ cls := cls, base := m.dst, size := size, slot := 33, state := .moving }] }
          s.setSlot c m.slot { s.slot c m.slot with state := .frozen, cause := .compaction }
        else s
    else s

/-- COMPACTION_MOVE. -/
def execCompactionMove (s : State) : Host.Outcome State Fault Refusal := .next (s.compactionMove s.arg.core s.arg.code)

/-- The bytes of a private-pool block at its new place (R170), what is pending on them settled first (R227); accesses to it that are still on
their way find it there (R85). -/
def State.movePool (s : State) (c src dst size : Nat) : State :=
  let off (b : Nat) : Nat := s.poolBase c + 16384 * b
  let s := s.settleAt (.spad c (off src)) (16384 * size)
  let (v, s) := s.readT (.spad c (off src)) 0 (16384 * size)
  let s := s.writeT (.spad c (off dst)) 0 (16384 * size) v
  { s with ops := s.ops.map fun o => { o with accs := o.accs.map fun a => match a.target with
      | .priv d p l b => if d = c ∧ p = off src then { a with target := .priv d (off dst) l b } else a
      | _ => a } }

/-- COMPACTION_COPY_END (R85): the block stands at its new place and the group goes on; a group that has ended in the meantime keeps
its block where it was. -/
def State.compactionEnd (s : State) (c : Nat) : State :=
  let x := s.core c
  match x.move with
  | none => s
  | some m =>
    let y := s.slot c m.slot
    let rest := x.blocks.filter fun b => b.slot != 33
    if y.state == .frozen && y.cause == .compaction then
      match x.blocks.find? fun b => m.hits b && b.state == .moving with
      | none => s
      | some b =>
        let s := if m.cls = 4 then s.movePool c m.src m.dst b.size else s
        let y := s.slot c m.slot
        let s := s.setCore c { s.core c with
          move := none, blocks := rest.map fun z => if m.hits z then { z with base := m.dst, state := .bound } else z }
        (s.setSlot c m.slot { y with state := .active, cause := .none }).stopCheck c m.slot false
    else
      s.setCore c { x with
        move := none, blocks := rest.map fun z => if m.hits z && z.state == .moving then { z with state := .bound } else z }

/-- COMPACTION_COPY_END. -/
def execCompactionCopyEnd (s : State) : Host.Outcome State Fault Refusal := .next (s.compactionEnd s.arg.core)

/-! ## Saving and restoring (R75, R86, R96) -/

/-- Whether nothing of a slot's group is under way: counters, accesses, copy commands, tile operations (R97, R236). -/
def State.slotQuiet (s : State) (c k : Nat) : Bool :=
  let x := s.core c
  (s.group c k).drained && s.ops.all (fun o => o.engine.isSome || !(o.core == c && o.slot == k)) && x.tileOps.all (fun o => o.slot != k)
    && x.cmds.all fun d => match d.owner with
      | .group j _ _ _ => j != k
      | _ => true

/-- The groups of a task are in their save blocks and leave their slots (R86). -/
def State.saveTask (s : State) (c : Nat) (ks : List Nat) : State :=
  ks.foldl (fun s k =>
    let x := s.slot c k
    let g := x.group
    let base := x.saveAt.getD 0
    let s := s.writeWords g.task.ctx base (g.saveWords k)
    let y := s.core c
    let v : Saved := { group := s.group c k, addr := base, size := g.saveSize, lpBase := s.lpOf c k, preempted := x.preempt.isSome }
    (s.setCore c { y with saved := y.saved ++ [v] }).freeSlot c k true) s

/-- How the save blocks of a task's slots can be reached now (R412): an ABSENT page is asked for. -/
def State.reachBlocks (s : State) (c : Nat) : List Nat → Reach × State
  | [] => (.present, s)
  | k :: t =>
    let g := s.group c k
    let base := (s.slot c k).saveAt.getD 0
    match s.reach g.task.ctx base g.saveSize true with
    | (.present, s) => s.reachBlocks c t
    | r => r

/-- A task whose save area no longer holds its blocks goes on where it stands (R312, R412). -/
def State.unsave (s : State) (c : Nat) (ks : List Nat) : State :=
  ks.foldl (fun s k =>
    let x := s.slot c k
    (s.dropSave x.group.task.ctx (x.saveAt.getD 0)).setSlot c k { x with state := .active, saveAt := none, preempt := none }) s

/-- SAVE_COMPLETE (R75, R86, R97); a saved group of a cancelled kernel ends at once (R315). -/
def State.saveComplete (s : State) (c k : Nat) : State :=
  let ks := taskSlots (s.group c k) k
  if ks.all fun j => (s.slot c j).state == .saving && s.slotQuiet c j && !(s.group c j).servable then
    match s.reachBlocks c ks with
    | (.present, s) =>
      let tag := (s.group c k).task.ktag
      let dead := ((s.kernel tag).map (·.cancelled)).getD false
      let s := s.saveTask c ks
      if dead then s.setCore c ((s.core c).cancelRecords tag) else s
    | (.absent, s) => s
    | (.refused, s) => s.unsave c ks
  else s

/-- SAVE_COMPLETE. -/
def execSaveComplete (s : State) : Host.Outcome State Fault Refusal := .next (s.saveComplete s.arg.core s.arg.slot)

/-- RESTORE_GROUP (R75, R96): a saved group, or quad, that can go on takes free slots and blocks; its lane-private block stands where it
was. Which one of several is open (log entry 27). -/
def State.restoreGroup (s : State) (c : Nat) : State :=
  let all := s.restorable c
  match all[s.arg.id % max 1 all.length]? with
  | none => s
  | some v =>
    let set := (s.core c).savedSet v
    let set := sortBy (fun a b => decide (a.group.task.quad.getD 0 ≤ b.group.task.quad.getD 0)) set
    match s.chooseSlots c v.group.task.quad.isSome fun k => classWants k v.group.vc v.group.tc v.group.ac 0 with
    | none => s
    | some (ks, bs) =>
      let x := s.core c
      let pairs := ks.zip set
      let bs := bs.map fun b =>
        if b.cls = 4 ∧ b.slot = 32 then
          (match pairs.find? fun (_, u) => u.lpBase == b.base with
            | some (k, _) => { b with slot := k }
            | none => b)
        else b
      let s := s.setCore c { x with
        blocks := bs, saved := x.saved.filter fun u => !set.contains u
        binding := x.binding ++ pairs.map fun (k, u) => .saved u.group u.addr u.size k }
      pairs.foldl (fun s (k, u) => s.setSlot c k { state := .restoring, group := u.group }) s

/-- RESTORE_GROUP. -/
def execRestoreGroup (s : State) : Host.Outcome State Fault Refusal := .next (s.restoreGroup s.arg.core)

/-- The records that a group of a core has sent name its slot anew (R96). -/
def State.renameGroup (s : State) (c k uid : Nat) : State :=
  { s with spawns := s.spawns.map fun m => if m.core = c ∧ m.uid = uid then { m with slot := k } else m }

/-- The saved group and block that a slot is restoring. -/
def CoreState.restoring (x : CoreState) (k : Nat) : Option (Group × Nat × Nat) :=
  x.binding.findSome? fun b => match b with
    | .saved g a n j => if j = k then some (g, a, n) else none
    | _ => none

/-- How the save blocks being read back can be reached (R412). -/
def State.reachSaved (s : State) (c : Nat) : List Nat → Bool × State
  | [] => (true, s)
  | k :: t =>
    match (s.core c).restoring k with
    | none => (false, s)
    | some (g, a, n) =>
      match s.reach g.task.ctx a n false with
      | (.present, s) => s.reachSaved c t
      | (_, s) => (false, s)

/-- One group is back in its slot: ACTIVE as saved, or, with a block that is not restored, ended (R75, R86). -/
def State.restoreOne (s : State) (c k : Nat) : State :=
  match (s.core c).restoring k with
  | none => s
  | some (g, a, n) =>
    let (b, s) := s.readWords g.task.ctx a (n / 8)
    let x := s.core c
    let s := (s.dropSave g.task.ctx a).setCore c { x with binding := x.binding.filter fun y => match y with
      | .saved _ _ _ j => j != k
      | _ => true }
    if blockBad b then
      let s := (s.setSlot c k { state := .active, group := g }).renameGroup c k g.uid
      (s.takeFault c k 0xFF 0 { code := fcRecordInvalid, kind := 2 }).endTask c k (.failed fcRecordInvalid)
    else (s.setSlot c k { state := .active, group := g.load b s.time }).renameGroup c k g.uid

/-- RESTORE_COMPLETE (R75, R86, R295). A save block on a page that is gone keeps the group out (log entry 28). -/
def State.restoreComplete (s : State) (c k : Nat) : State :=
  if (s.slot c k).state == .restoring then
    let ks := taskSlots (s.group c k) k
    match s.regrant c ks with
    | none => s
    | some s =>
      match s.reachSaved c ks with
      | (true, s) => ks.foldl (fun s j => s.restoreOne c j) s
      | (false, s) => s
  else s

/-- RESTORE_COMPLETE. -/
def execRestoreComplete (s : State) : Host.Outcome State Fault Refusal := .next (s.restoreComplete s.arg.core s.arg.slot)

/-! ## The end of a task (R236, R253, R293) -/

/-- How a task's groups end: the first of them that does not plainly end decides. -/
def State.taskEnding (s : State) (c : Nat) (ks : List Nat) : Ending :=
  ((ks.filterMap fun k => (s.group c k).ending).find? fun e => e != .done).getD .done

/-- A task's waits, leases and requests end with it, those of every group of a quad (R215, R247, R340): the task's number, and its groups' as
agents. -/
def State.dropTask (s : State) (c no : Nat) (uids : List Nat) : State :=
  let mine : Holder → Bool := fun h => match h with
    | .task d _ t => d == c && t == no
    | _ => false
  { s with waits := s.waits.filter fun w => match w.who with
             | .strand d u _ => !(d == c && uids.contains u)
             | _ => true
           leases := s.leases.filter fun e => !mine e.holder
           leaseReqs := s.leaseReqs.filter fun q => !mine q.holder }

/-- A group's caller as its EXEC frame holds it (R253), on the slot of its child. -/
def State.callerGroup (s : State) (c k : Nat) (f : Frame) (rest : List Frame) : Group :=
  let x := s.slot c k
  let b := (s.readWords f.task.ctx f.addr (f.size / 8)).1
  let caller : Group := { x.group with task := f.task, frames := rest, ending := none, faulted := false, strands := []
                                       tokens := f.tokens, made := f.made, outst := [], step := none, mmaqs := f.mmaqs }
  caller.load b s.time

/-- The relaunched copy of a task's record (R293): its address, id and words as at binding; its future and count stand. -/
def TaskInfo.again (t : TaskInfo) (id time : Nat) : Rec :=
  { t.asRec with id := id, handler := t.handler, relaunches := t.relaunches + 1, pushedAt := time, available := true }

/-- A slot's task leaves it: the record that was to run in place ends with it, the save block taken is given back, and the slot is
FREE. -/
def State.leaveSlot (s : State) (c k : Nat) : State :=
  let x := s.slot c k
  let s := match x.saveAt with
    | some p => s.dropSave x.group.task.ctx p
    | none => s
  s.freeSlot c k false

/-- The caller of an EXEC child is back on its slot with the child's status (R253): its block is read back, and it goes on after the
EXEC. -/
def State.returnFrame (s : State) (c k : Nat) (f : Frame) (rest : List Frame) (status : Nat) : State :=
  let x := s.slot c k
  let caller := s.callerGroup c k f rest
  let s := s.dropSave f.task.ctx f.addr
  let n := caller.first
  let y := { caller.strand n with pc := f.cont, state := .ready, wait := {}, fenced := f.fenced }
  s.setSlot c k { x with state := .active, cause := .none
                         group := (caller.setStrand n y).setS f.dest (BitVec.ofNat 64 status) }

/-- A record in place is relaunched (R253, R293): its caller is back in its EXEC, which waits for the record's copy to be staged and leased
again, in the frame that it keeps (log entry 96). -/
def State.relaunchChild (s : State) (c k : Nat) (f : Frame) (rest : List Frame) (t : TaskInfo) : State :=
  let x := s.slot c k
  let (id, s) := s.fresh
  let caller := s.callerGroup c k f rest
  let n := caller.first
  let r : Rec := { t.again id s.time with state := .leasing, toStage := recOperands t.record }
  let y := { caller.strand n with
    state := .waiting, fenced := f.fenced
    wait := { kind := .exec, addr := f.issue, issue := f.issue, dest := f.dest, cont := f.cont, head := BitVec.ofNat 64 id
              ring := BitVec.ofNat 64 f.addr } }
  let s := s.setSlot c k { x with state := .active, cause := .none, group := caller.setStrand n y }
  let z := s.core c
  (s.setCore c { z with binding := z.binding ++ [.record r []] }).askLease c r

/-- A caller that ends with its child goes no further (R253, R315). -/
def State.cancelFrame (s : State) (c k : Nat) (f : Frame) (rest : List Frame) (e : Ending) : State :=
  let x := s.slot c k
  (s.dropSave f.task.ctx f.addr).setSlot c k { x with
    group := { x.group with task := f.task, frames := rest, ending := some e, strands := [], tokens := [] } }

/-- How the caller of a child that ends goes on: it ends too where its kernel is cancelled, or where another group of its quad has
ended its task; otherwise it is restored (R236, R253, R315). -/
def State.callerEnding (s : State) (c k : Nat) : Option Ending :=
  let g := s.group c k
  if s.cancelling g.task.ktag then some .cancelled
  else (taskSlots g k).findSome? fun j =>
    let x := s.slot c j
    match x.group.ending with
    | some e => if j != k && x.state == .draining && x.group.frames.isEmpty && e != .done then some e else none
    | none => none

/-- What the return to a caller needs now: the blocks of its classes, and its frame's save block. -/
def State.frameReady (s : State) (c k : Nat) : Bool × State :=
  match (s.group c k).frames with
  | [] => (true, s)
  | f :: _ =>
    if (s.callerEnding c k).isSome then (true, s)
    else match s.regrant c [k] with
      | none => (false, s)
      | some s =>
        match s.reach f.task.ctx f.addr f.size false with
        | (.present, s) => (true, s.settleAt (.global f.task.ctx f.addr false) f.size)
        | (_, s) => (false, s)

/-- What the end of a slot's task needs to reach now: its future, which a relaunch does not touch (R293), and its caller's state. -/
def State.endReady (s : State) (c k : Nat) (e : Ending) : Bool × State :=
  let g := s.group c k
  match (if e = .relaunch && (s.callerEnding c k).isNone then (true, s) else s.futureReady c g.task.ctx (recFuture g.task.record)) with
  | (false, s) => (false, s)
  | (true, s) => s.frameReady c k

/-- A record that a strand of a group waits to run in place ends with the group, and the frame taken for it is given back (R253). -/
def State.dropExec (s : State) (c k : Nat) : State :=
  let g := s.group c k
  let s := match s.execRec c k with
    | some r => (s.dropBinding c r).dropLease c r.id
    | none => s
  match g.strands.find? fun (_, x) => x.state == .waiting && x.wait.kind == .exec with
  | some (_, x) => s.dropSave g.task.ctx x.wait.ring.toNat
  | none => s

/-- The end of a task whose accesses have all completed (R236, R253, R293). -/
def State.finishTask (s : State) (c k : Nat) (ks : List Nat) (e : Ending) : State :=
  let t := (s.group c k).task
  let uids := ks.map fun j => (s.group c j).uid
  let s := s.dropExec c k
  if e = .relaunch && (s.group c k).frames.isEmpty then
    let (id, s) := s.fresh
    let s := ks.foldl (fun s j => s.leaveSlot c j) (s.dropTask c t.no uids)
    let x := s.core c
    s.setCore c { x with relaunch := x.relaunch ++ [t.again id s.time] }
  else match (if e = .relaunch && (s.callerEnding c k).isNone then (s.group c k).frames else []) with
  | f :: rest => (s.dropTask c t.no uids).relaunchChild c k f rest t
  | [] =>
    let e := if e = .relaunch then (s.callerEnding c k).getD .cancelled else e
    let s := ((s.completeFuture c k t e).dropTask c t.no uids).progress t.ktag
    match (s.group c k).frames with
    | f :: rest =>
      match s.callerEnding c k with
      | some e' => s.cancelFrame c k f rest e'
      | none => s.returnFrame c k f rest e.status
    | [] => (ks.foldl (fun s j => s.leaveSlot c j) s).liveEnd t.ktag (e != .cancelled)

/-- The strand that waited to run a record in place goes on with the record's status, since the record ended before it ran (R238,
R253). -/
def State.resumeExec (s : State) (c id status : Nat) : State :=
  (List.range 32).foldl (fun s k =>
    let g := s.group c k
    match g.strands.find? fun (_, x) => x.state == .waiting && x.wait.kind == .exec && x.wait.head == BitVec.ofNat 64 id with
    | some (n, x) =>
      if g.ending.isNone then ((s.dropSave g.task.ctx x.wait.ring.toNat).putS c k x.wait.dest (BitVec.ofNat 64 status)).endWait c k n x.wait.cont
      else s
    | none => s) s

/-- A record or saved group that ended without its slot: its future is completed, and its kernel's count falls (R236, R238). -/
def State.finishEnd (s : State) (c : Nat) (r : EndRec) (rest : List EndRec) : State :=
  let t := r.record.task none
  match s.futureReady c t.ctx (recFuture t.record) with
  | (false, s) => s
  | (true, s) =>
    let s := s.completeFuture c 0 t r.ending
    let s := if r.record.id = 0 then s.dropTask c r.no [] else s.dropLease c r.record.id
    let s := s.setCore c { s.core c with ends := rest }
    let s := if r.counts || r.record.id = 0 then s else s.resumeExec c r.record.id r.ending.status
    if r.counts then (s.liveEnd t.ktag (r.ending != .cancelled)).progress t.ktag else s.progress t.ktag

/-- TASK_END (R75, R236): a draining task whose accesses have all completed; with the flag, the next ending that has no slot. -/
def State.taskEnd (s : State) (c k : Nat) : State :=
  if s.arg.flag then
    match (s.core c).ends with
    | r :: rest => s.finishEnd c r rest
    | [] => s
  else
    let ks := endSlots (s.group c k) k
    if ks.all fun j => (s.slot c j).state == .draining && s.slotQuiet c j then
      let e := s.taskEnding c ks
      match s.endReady c (ks.headD k) e with
        | (true, s) => s.finishTask c (ks.headD k) ks e
        | (false, s) => s
    else s

/-- TASK_END. -/
def execTaskEnd (s : State) : Host.Outcome State Fault Refusal := .next (s.taskEnd s.arg.core s.arg.slot)

/-! ## Counters (R92, R108) -/

/-- The counter of a code, in the order of R92. -/
def Ctr.ofCode : Nat → Ctr
  | 0 => .ld | 1 => .st | 2 => .cp | 3 => .tl | _ => .ms

/-- A strand that waits in WAIT goes on once the counters allow it (R77, R108). -/
def Strand.release (x : Strand) (g : Group) (time : Nat) : Strand :=
  if x.state == .waiting && x.wait.kind == .wait && g.waitMet x.wait.word.toNat then
    { x with pc := x.wait.cont, state := .ready, wait := {}, since := time }
  else x

/-- COUNTER_RETIRE (R92): the oldest operation of a counter has completed, so the counter falls; strands in WAIT are looked at again. -/
def State.counterRetire (s : State) (c k : Nat) (ctr : Ctr) : State :=
  let g := s.group c k
  match g.outst.find? fun o => o.ctr == ctr with
  | some o =>
    if o.done then
      let g := { g.setCtr ctr (g.ctr ctr - 1) with outst := g.outst.filter fun x => x.id != o.id }
      let h := { g with strands := g.strands.map fun (n, x) => (n, x.release g s.time) }
      let s := s.setGroup c k h
      if h.noneWaits && !g.noneWaits then s.progress g.task.ktag else s
    else s
  | none => s

/-- COUNTER_RETIRE. -/
def execCounterRetire (s : State) : Host.Outcome State Fault Refusal :=
  .next (s.counterRetire s.arg.core s.arg.slot (Ctr.ofCode s.arg.code))

end Sys2Proof.Machine
end

