-- ==== Sys2Proof/Machine/TaskEvents.lean ====
section
/-! DEFINITION. The task unit's own steps: staging (R238, R241), leases as the memory side answers them (R340 to R342), availability and
ageing (R240), steals (R242, R243), and remote spawns (R244, R245, R250). -/
namespace Sys2Proof.Machine

/-! ## Records on a core -/

/-- The record of a number on a core's deque or inbound queue, or chosen for a slot. -/
def CoreState.recOf (x : CoreState) (id : Nat) : Option Rec :=
  (x.deque ++ x.inbound ++ x.binding.filterMap fun b => match b with
    | .record r _ => some r
    | _ => none).find? fun r => r.id == id

/-- Changes the record of a number. -/
def CoreState.onRec (x : CoreState) (id : Nat) (f : Rec → Rec) : CoreState :=
  let g (r : Rec) : Rec := if r.id = id then f r else r
  { x with deque := x.deque.map g, inbound := x.inbound.map g
           binding := x.binding.map fun b => match b with
             | .record r ks => .record (g r) ks
             | y => y }

/-- The slots that a record has been chosen for; none if it is not binding. -/
def CoreState.bindSlots (x : CoreState) (id : Nat) : Option (List Nat) :=
  x.binding.findSome? fun b => match b with
    | .record r ks => if r.id = id then some ks else none
    | _ => none

/-- A record leaves whatever holds it, with its staging. -/
def CoreState.dropRec (x : CoreState) (id : Nat) : CoreState :=
  { x with deque := x.deque.filter fun r => r.id != id
           inbound := x.inbound.filter fun r => r.id != id
           binding := x.binding.filter fun b => match b with
             | .record r _ => r.id != id
             | _ => true
           cmds := x.cmds.filter fun d => d.owner != .staging id }

/-! ## A launch that fails (R313, R314) -/

/-- A kernel in LAUNCHING whose launch fails: its entry and its leases are free, a record of kind region says why, and its launch is
over. A cancellation held until now finds it FAULTED (R313). -/
def State.launchFail (s : State) (tag code : Nat) : State :=
  match s.kernel tag with
  | none => s
  | some k =>
    let mine (h : Holder) : Bool := h == .kernel tag || h == .record 1536 tag
      || (match h, k.placed with
          | .record c id, some p => c == p && (((s.core c).recOf id).map fun r => r.root && r.ktag == tag).getD false
          | _, _ => false)
    let s := { s with
      leases := s.leases.filter fun e => !mine e.holder
      leaseReqs := s.leaseReqs.filter fun q => !mine q.holder
      kernels := Bank.drop s.kernels tag }
    let s := match k.placed with
      | some c =>
        let x := s.core c
        let ids : List Nat := x.binding.filterMap fun b => match b with
          | Binding.record r _ => if r.root && r.ktag == tag then some r.id else none
          | _ => none
        ids.foldl (fun (s : State) id => s.setCore c ((s.core c).dropRec id)) s
      | none => s
    let s := s.regionFault k.launch.ctx
      { code := code, kind := 3, region := k.launch.region, ktag := tag, addr := k.launch.addr
        core := (k.placed).getD 0xFFFF }
    s.launchOver k.launch tag (some code)

/-! ## A record that fails before it runs (R238, R95, R326) -/

/-- The policy that acts on a record's fault: a handler's is 0, and there is no group to park for the debugger (R326, R327). -/
def State.recPolicy (s : State) (r : Rec) : Nat :=
  let p := if r.handler then 0 else (s.eff r.ktag).policy
  if p = 2 then 0 else p

/-- A record ends with a fault before it runs: its fault record, its future failed, its slots free, and the policy (R95, R238, R326,
R327). A root still LAUNCHING fails its launch (R314). -/
def State.recFails (s : State) (c : Nat) (r : Rec) (code : Nat) (addr : DWord) : State :=
  let x := s.core c
  if r.root && (x.bindSlots r.id == some []) then s.launchFail r.ktag code
  else
    let ks := (x.bindSlots r.id).getD []
    let inPlace := x.bindSlots r.id == some []
    let f : FaultRec :=
      { code := code, kind := 2, core := c, slot := ks.headD 0xFF, region := s.regionOf r.ktag, ktag := r.ktag, task := recId r.words
        addr := addr }
    let seq := s.nextSeq r.ctx
    let h := (s.eff r.ktag).handler
    let s := s.writeRecord r.ctx f
    let s := (s.setCore c (x.dropRec r.id)).dropLease c r.id
    let s := ks.foldl (fun s k => s.freeSlot c k false) s
    let y := s.core c
    let s := s.setCore c { y with ends := y.ends ++ [{ record := r, ending := .failed code, counts := !inPlace }] }
    match s.recPolicy r with
    | 1 => s.endDomain r.ktag
    | 3 => s.handle r.ctx { core := c, ktag := r.ktag, ptr := h, fault := f, seq := seq, id := recId r.words }
    | _ => s

/-! ## Staging (R231, R238, R241) -/

/-- The records that the staging engine works on (R241): the STG_DEPTH nearest the hot end that have operands, the inbound head, and those
chosen for a slot. -/
def State.stageWindow (s : State) (c : Nat) : List Nat :=
  let x := s.core c
  let want := x.deque.filter fun r => !(recOperands r.words).isEmpty
  (want.drop (want.length - s.fld (.stgDepth c) 2 0)).map (·.id)
    ++ (x.inbound.head?.map (·.id)).toList
    ++ x.binding.filterMap fun b => match b with
      | .record r _ => some r.id
      | _ => none

/-- What the staging of a slot comes to next: it waits for a page, meets a fault at an address, or has its descriptor read. -/
inductive StageLook where
  | wait
  | fault (code : Nat) (addr : Nat)
  | ready (desc : Nat)
deriving DecidableEq, Repr

/-- The first fault of a slot's box and destination (R168, R187, R241): code and address. -/
def State.stageBox (s : State) (c : Nat) (g : Group) (d dst : Nat) : Option (Nat × Nat) :=
  let leases := s.leaseSet g.task
  let n := elemBytes (descType d)
  let a : Ask := { size := n, align := n, rd := true, whole := true, leased := false }
  let ps := boxAll d (List.replicate 5 0)
  let bad := (ps.map fun p => (p, s.ptrStep c g leases a p)).filter fun (_, k) => k != 0
  let worst := bad.foldl (fun m (_, k) => min m k) 4
  match bad.find? fun (_, k) => k == worst with
  | some (p, k) => some (stepCode k, p)
  | none =>
    let lo := ps.foldl min (ps.headD 0)
    let hi := ps.foldl max 0
    if !ps.isEmpty && ptrSpace lo == 0 && !inLeases leases (ptrOffset lo) (hi + n - lo) then some (fcLeaseRange, lo)
    else
      let k := s.ptrStep c g leases { size := descBytes d, align := 1, wr := true, whole := true } dst
      if k = 0 then none else some (stepCode k, dst)

/-- The destination of a tile-operand slot (R231). -/
def stageDst (w : Nat) : Nat := 2 * 2 ^ 60 + bits w 63 52 * 256

/-- Reads the descriptor of a record's slot and checks it, its box and its destination (R168, R174, R241). -/
def State.stageLook (s : State) (c : Nat) (r : Rec) (slot : Nat) : StageLook × State :=
  let w := recSlot r.words slot
  let p := bits w 51 6 * 64
  let g := r.group none
  let k := s.ptrStep c g (s.leaseSet g.task) { size := 64, align := 64, rd := true, whole := true } p
  if k ≠ 0 then (.fault (stepCode k) p, s)
  else match s.coreTarget c r.ctx p 64 with
    | none => (.fault fcPermission p, s)
    | some t =>
      match s.serve t true false c with
      | (.wait, s) => (.wait, s)
      | (.bad code, s) => (.fault code p, s)
      | (.done, s) =>
        let (d, s) := (s.settleAt t 64).fetchT t 64
        if descBad d then (.fault fcRecordInvalid p, s)
        else match s.stageBox c g d (stageDst w) with
          | some (code, a) => (.fault code a, s)
          | none => (.ready d, s)

/-- Whether a record's next operand may be staged now: its lease is held and none of its operands is under way. -/
def State.stageTurn (s : State) (c : Nat) (r : Rec) : Bool :=
  r.leaseHeld && !r.toStage.isEmpty && r.state != .pushed && (s.core c).cmds.all fun d => d.owner != .staging r.id

/-- STAGING_START (R238, R241): a record of the window enters STAGING and asks for its lease; then, slot by slot, the engine reads the
descriptor and gives the copy engine a command of its own. -/
def State.stagingStart (s : State) (c id : Nat) : State :=
  match (s.core c).recOf id with
  | none => s
  | some r =>
    if !(s.stageWindow c).contains id && r.state != .staging then s
    else if r.state = .pushed then
      if (recOperands r.words).isEmpty then s
      else
        let r' := { r with state := .staging, toStage := recOperands r.words }
        (s.setCore c ((s.core c).onRec id fun _ => r')).askLease c r'
    else if s.stageTurn c r then
      match s.stageLook c r (r.toStage.headD 0) with
      | (.ready d, s) =>
        let desc := natWords d 8
        let segs := segments (stageDst (recSlot r.words (r.toStage.headD 0))) 0 (descBytes d)
        let kind : CopyKind := .box desc (List.replicate 5 0)
        let find (s : State) (p : Nat) : Option Target := s.wholeTarget c 64 (r.task none) p
        if (s.piecesIn find (cmdRanges kind segs)).any fun (n, ia) => s.pageAwaits n ia then s
        else
          let (n, s) := s.fresh
          let x := s.core c
          s.setCore c { x with cmds := x.cmds ++ [{ id := n, owner := .staging r.id, ctx := r.ctx, ktag := r.ktag, kind := kind, segs := segs,
                                                    spans := s.coreSpans c r.ctx }] }
      | (_, s) => s
    else s

/-- STAGING_START. -/
def execStagingStart (s : State) : Host.Outcome State Fault Refusal := .next (s.stagingStart s.arg.core s.arg.id)

/-- A root record whose operands are staged enters its core's inbound queue ahead of all others, and its kernel runs (R313, R314, R235); a
cancellation held until now is applied (R313). -/
def State.rootEnters (s : State) (c : Nat) (r : Rec) : State :=
  match s.futureReady c r.ctx (recFuture r.words) with
  | (false, s) => s
  | (true, s) =>
    let s := s.clearFuture (.task c) c r.ctx r.ktag r.words
    let x := (s.core c).dropRec r.id
    let s := s.setCore c { x with inbound := { r with state := if (recOperands r.words).isEmpty then .pushed else .staged, pushedAt := s.time } :: x.inbound }
    match s.kernel r.ktag with
    | none => s
    | some k =>
      let order := (s.kernels.map fun (_, y) => y.runOrder).foldl max 0 + 1
      let s := (s.setKernel { k with state := .running, live := 1, runOrder := order, cancelHeld := false }).progress r.ktag
      if k.cancelHeld then s.cancelKernel r.ktag else s

/-- STAGING_COMPLETE (R238, R314): every slot is written and the lease is held. -/
def State.stagingComplete (s : State) (c id : Nat) : State :=
  let x := s.core c
  match x.recOf id with
  | none => s
  | some r =>
    if r.toStage.isEmpty && r.leaseHeld then
      (if r.root && (x.bindSlots id == some []) then s.rootEnters c r
       else if r.state = .staging then s.setCore c (x.onRec id fun y => { y with state := .staged }) else s)
    else s

/-- STAGING_COMPLETE. -/
def execStagingComplete (s : State) : Host.Outcome State Fault Refusal := .next (s.stagingComplete s.arg.core s.arg.id)

/-- The fault that a record's staging meets now: in its next descriptor, or in a piece of the command under way; with the turn's flag a
peer refuses a box on another part (log entry 24). -/
def State.stageFault (s : State) (c : Nat) (r : Rec) : Option (Nat × DWord) :=
  match (s.core c).cmds.find? fun d => d.owner == .staging r.id with
  | some cmd =>
    let desc := match cmd.kind with
      | .box d _ => wordsNat d
      | _ => 0
    cmd.segs.findSome? fun g =>
      if g.landed then none
      else if s.arg.flag && s.segPeer c cmd g then some (fcPermission, BitVec.ofNat 64 (descBase desc))
      else match s.segRead c cmd g g.got (g.size - g.got) with
        | (.bad code, _, _) => some (code, BitVec.ofNat 64 (descBase desc))
        | _ => none
  | none =>
    if s.stageTurn c r then
      match s.stageLook c r (r.toStage.headD 0) with
      | (.fault code a, _) => some (code, BitVec.ofNat 64 a)
      | _ => none
    else none

/-- STAGING_FAULT (R238, R314). -/
def State.stagingFault (s : State) (c id : Nat) : State :=
  match (s.core c).recOf id with
  | none => s
  | some r =>
    match s.stageFault c r with
    | some (code, a) => s.recFails c r code a
    | none => s

/-- STAGING_FAULT. -/
def execStagingFault (s : State) : Host.Outcome State Fault Refusal := .next (s.stagingFault s.arg.core s.arg.id)

/-! ## Leases at the memory side (R340 to R342) -/

/-- How the pages of a range stand: every page resident, some still to come, or one unmapped or draining. -/
inductive Pages where
  | resident | coming | gone
deriving DecidableEq, Repr

/-- The pages of a range of intermediate addresses, each with its leaf; none where there is no page. -/
def State.rangeLeaves (s : State) (ctx : Nat) : Nat → Nat → Nat → List (Option Leaf)
  | 0, _, _ => []
  | fuel + 1, ia, n =>
    if n = 0 then []
    else match (s.walk ctx ia).1 with
      | none => [none]
      | some l =>
        let k := min n (l.base + l.size - ia)
        some l :: s.rangeLeaves ctx fuel (ia + k) (n - k)

/-- The pages of a lease's range. -/
def State.leaseLeaves (s : State) (ctx : Nat) (pieces : List (Option (Nat × Nat))) : List (Option Leaf) :=
  pieces.flatMap fun p => match p with
    | none => [none]
    | some (ia, k) => s.rangeLeaves ctx (k / 65536 + 2) ia k

/-- How the pages of a range stand (R340). -/
def State.leasePages (s : State) (ctx : Nat) (pieces : List (Option (Nat × Nat))) : Pages :=
  let ls := s.leaseLeaves ctx pieces
  let gone (l : Option Leaf) : Bool := match l with
    | none => true
    | some l => (s.page ctx l).state == some .draining
  let coming (l : Option Leaf) : Bool := match l with
    | none => false
    | some l => let p := (s.page ctx l).state; decide (l.tier = 3) || p == some .requested || p == some .collapsing
  if ls.any gone then .gone else if ls.any coming then .coming else .resident

/-- The dies that home the pages of a range, each of which holds an entry for its lease (R342). -/
def State.leaseDies (s : State) (ctx : Nat) (pieces : List (Option (Nat × Nat))) : List Nat :=
  (List.range 8).filter fun d => (s.leaseLeaves ctx pieces).any fun l => match l with
    | some l => s.homeDie ctx l.base == d
    | none => false

/-- Whether a die has a lease entry for a context: in its own 128, or in the rest that all contexts share (R342). -/
def State.leaseRoom (s : State) (ctx d : Nat) : Bool :=
  let held (n : Nat) : Nat := (s.leases.filter fun e => e.ctx == n && (s.leaseDies e.ctx e.pieces).contains d).length
  let opened := (s.contexts.filter fun (_, x) => x.state != .free).map (·.1)
  decide (held ctx < 128)
    || decide ((opened.map fun n => held n - 128).foldl (· + ·) 0 < 8192 - 128 * opened.length)


/-- A lease request is refused (R340): a launch fails, a record ends, and LEASE answers 2 (R238, R254, R314). -/
def State.leaseRefused (s : State) (q : LeaseReq) : State :=
  match q.holder with
  | .kernel tag => s.launchFail tag fcLeaseExpired
  | .record c id =>
    if c = 1536 then s.launchFail id fcLeaseExpired
    else match (s.core c).recOf id with
      | some r => s.recFails c r fcLeaseExpired (BitVec.ofNat 64 q.base)
      | none => { s with leaseReqs := s.leaseReqs.filter fun x => x.id != q.id }
  | .task _ _ _ => { s with leaseReqs := s.leaseReqs.map fun x => if x.id = q.id then { x with answer := some 2 } else x }

/-- LEASE_REQUEST (R340, R345): a request reaches the page homes; it is refused, or its absent pages are asked for. -/
def State.leaseRequest (s : State) (id : Nat) : State :=
  match s.leaseReqs.find? fun q => q.id == id with
  | none => s
  | some q =>
    if q.posted || q.answer.isSome then s
    else if s.leasePages q.ctx q.pieces = .gone then s.leaseRefused q
    else
      let kind := match q.holder with
        | .task _ _ _ => 2
        | _ => 1
      let s := (s.leaseLeaves q.ctx q.pieces).foldl (fun s l => match l with
        | some l => if l.tier = 3 then s.requestPage q.ctx l kind else s
        | none => s) s
      { s with leaseReqs := s.leaseReqs.map fun x => if x.id = id then { x with posted := true } else x }

/-- LEASE_REQUEST. -/
def execLeaseRequest (s : State) : Host.Outcome State Fault Refusal := .next (s.leaseRequest s.arg.id)

/-- The granted range, as its holder takes it (R238, R254, R314). -/
def State.leaseTaken (s : State) (q : LeaseReq) : State :=
  match q.holder with
  | .kernel tag =>
    { s with leaseReqs := s.leaseReqs.filter fun x => x.id != q.id }.onKernel tag fun k => { k with leasesLeft := k.leasesLeft - 1 }
  | .record c id =>
    let s := { s with leaseReqs := s.leaseReqs.filter fun x => x.id != q.id }
    if c = 1536 then s.onKernel id fun k => { k with leasesLeft := k.leasesLeft - 1 }
    else s.setCore c ((s.core c).onRec id fun r => { r with leased := true })
  | .task c u _ =>
    let k := (s.slotOfGroup c u).getD 0
    let s := s.setAdded c k ((s.group c k).task.added ++ [{ base := q.base, size := q.size }])
    { s with leaseReqs := s.leaseReqs.map fun x => if x.id = q.id then { x with answer := some 0 } else x }

/-- The answer that a LEASE gets without a new entry, since another strand's LEASE came first (R254): its range is held by now, or eight
entries are in use. -/
def State.leaseShort (s : State) (q : LeaseReq) : Option Nat :=
  match q.holder with
  | .task c u _ =>
    let set := s.leaseSet (s.group c ((s.slotOfGroup c u).getD 0)).task
    if inLeases set q.base q.size then some 0 else if 8 ≤ set.length then some 1 else none
  | _ => none

/-- Whether a request's holder can take its answer now: a task only while it stands on its slot (R97, R254). -/
def State.leaseHolderHere (s : State) (h : Holder) : Bool :=
  match h with
  | .task c u t => ((s.slotOfGroup c u).map fun k => (s.group c k).task.no == t).getD false
  | _ => true

/-- LEASE_GRANTED (R340, R342): every page is there and every home has an entry; the lease expires one period from now. -/
def State.leaseGranted (s : State) (id : Nat) : State :=
  match s.leaseReqs.find? fun q => q.id == id with
  | none => s
  | some q =>
    if !q.posted || q.answer.isSome || !s.leaseHolderHere q.holder then s
    else match s.leasePages q.ctx q.pieces with
      | .gone => s.leaseRefused q
      | .coming => s
      | .resident =>
        match s.leaseShort q with
        | some v => { s with leaseReqs := s.leaseReqs.map fun x => if x.id = id then { x with answer := some v } else x }
        | none =>
          if (s.leaseDies q.ctx q.pieces).all (s.leaseRoom q.ctx) then
            let (n, s) := s.fresh
            let e : Lease := { id := n, holder := q.holder, ctx := q.ctx, base := q.base, size := q.size, pieces := q.pieces
                               granted := s.real, renewed := s.real, expiry := s.real + s.leasePeriod q.ctx }
            { s with leases := s.leases ++ [e] }.leaseTaken q
          else s

/-- LEASE_GRANTED. -/
def execLeaseGranted (s : State) : Host.Outcome State Fault Refusal := .next (s.leaseGranted s.arg.id)

/-- Whether a lease covers a DRAINING page. -/
def State.leaseDrains (s : State) (e : Lease) : Bool :=
  (s.leaseLeaves e.ctx e.pieces).any fun l => match l with
    | some l => (s.page e.ctx l).state == some .draining
    | none => false

/-- LEASE_RENEWAL (R340, R341): half a period after the last one; a renewal over a DRAINING page is refused, and the lease keeps its expiry. A
step that comes late makes up the renewals since. -/
def State.leaseRenewal (s : State) (id : Nat) : State :=
  { s with leases := s.leases.map fun e =>
      let half := s.leasePeriod e.ctx / 2
      let at' := e.renewed + (s.real - e.renewed) / half * half
      if e.id = id ∧ e.renewed + half ≤ s.real then
        (if s.leaseDrains e then { e with renewed := at' } else { e with renewed := at', expiry := at' + s.leasePeriod e.ctx })
      else e }

/-- LEASE_RENEWAL. -/
def execLeaseRenewal (s : State) : Host.Outcome State Fault Refusal := .next (s.leaseRenewal s.arg.id)

/-- LEASE_LAPSE (R341): the expiry of a lease has passed on the pages that drain; it is no more on them. -/
def State.leaseLapse (s : State) (id : Nat) : State :=
  { s with pages := s.pages.map fun (k, p) => (k, { p with lapses := p.lapses.filter fun (i, t) => !(i == id && decide (t ≤ s.real)) }) }

/-- LEASE_LAPSE. -/
def execLeaseLapse (s : State) : Host.Outcome State Fault Refusal := .next (s.leaseLapse s.arg.id)

/-! ## Availability and ageing (R240) -/

/-- RECORD_AVAILABLE (R240): TSK_CFG.HOLD core cycles have passed since the push. -/
def State.recordAvailable (s : State) (c id : Nat) : State :=
  let hold := 2 * s.fld (.tskCfg c) 15 0
  let x := s.core c
  s.setCore c { x with deque := x.deque.map fun r =>
    if r.id = id ∧ hold ≤ s.coreSince c r.pushedAt then { r with available := true } else r }

/-- RECORD_AVAILABLE. -/
def execRecordAvailable (s : State) : Host.Outcome State Fault Refusal := .next (s.recordAvailable s.arg.core s.arg.id)

/-- RECORD_AGED (R240, R260): a record has stood TSK_CFG.AGE units of 16 core cycles on the deque. -/
def State.recordAged (s : State) (c id : Nat) : State :=
  let age := 32 * s.fld (.tskCfg c) 47 32
  let x := s.core c
  s.setCore c { x with deque := x.deque.map fun r =>
    if r.id = id ∧ age ≤ s.coreSince c r.pushedAt then { r with aged := true } else r }

/-- RECORD_AGED. -/
def execRecordAged (s : State) : Host.Outcome State Fault Refusal := .next (s.recordAged s.arg.core s.arg.id)

/-! ## Stealing over Halyard (R242, R243, R258) -/

/-- Whether a core is idle (R242). -/
def State.idle (s : State) (c : Nat) : Bool :=
  let x := s.core c
  (List.range 32).any (fun k => (s.slot c k).state == .free) && (s.restorable c).isEmpty && x.inbound.isEmpty && x.deque.isEmpty

/-- The cores of a step's set (R242), in increasing index. -/
def stealSet (c step : Nat) : List Nat :=
  (List.range 1536).filter fun v =>
    v != c && (match step with
      | 2 => coreBit v == coreBit c
      | 3 => coreDie v == coreDie c && coreBit v != coreBit c
      | _ => coreDie v != coreDie c)

/-- One step of the LFSR (R242). -/
def lfsrStep (x : Half) : Half :=
  let f := x.getLsbD 15 ^^ x.getLsbD 14 ^^ x.getLsbD 12 ^^ x.getLsbD 3
  (x <<< 1) ||| (if f then 1 else 0)

/-- Draws from a set until a core comes that the round has not asked: the core and the LFSR (R242). -/
def stealDraw (set asked : List Nat) : Nat → Half → Option Nat × Half
  | 0, x => (none, x)
  | fuel + 1, x =>
    let x := lfsrStep x
    let v := set.getD (x.toNat % max 1 set.length) 0
    if asked.contains v then stealDraw set asked fuel x else (some v, x)

/-- The number of cores that a step asks (R242, R261). -/
def State.stealCount (s : State) (c step : Nat) : Nat :=
  match step with
  | 2 => s.fld (.hlyCfg (coreDie c)) 3 0
  | 3 => s.fld (.hlyCfg (coreDie c)) 7 4
  | _ => s.fld (.hlyCfg (coreDie c)) 11 8

/-- The next victim of a round (R242), with the steal state and LFSR after its choice; none at the round's end. -/
def State.nextVictim (s : State) (c : Nat) : Nat → Steal → Half → Option Nat × Steal × Half
  | 0, t, x => (none, t, x)
  | fuel + 1, t, x =>
    if t.stepNo = 1 then
      let v := c / 16 * 16 + (c % 16 + 15) % 16
      let t := { t with stepNo := 2, drawn := 0 }
      if t.asked.contains v then s.nextVictim c fuel t x else (some v, { t with asked := t.asked ++ [v] }, x)
    else if 5 ≤ t.stepNo then (none, t, x)
    else
      let set := stealSet c t.stepNo
      if s.stealCount c t.stepNo ≤ t.drawn ∨ set.all t.asked.contains then
        s.nextVictim c fuel { t with stepNo := t.stepNo + 1, drawn := 0 } x
      else match stealDraw set t.asked 65535 x with
        | (some v, x) => (some v, { t with asked := t.asked ++ [v], drawn := t.drawn + 1 }, x)
        | (none, x) => s.nextVictim c fuel { t with stepNo := t.stepNo + 1, drawn := 0 } x

/-- Whether a victim may give a record to a thief (R22, R243): it is not STAGING, and its kernel's clusters hold the thief's. -/
def State.mayGive (s : State) (thief : Nat) (r : Rec) : Bool :=
  r.state != .staging && (s.kernelClusters r.ktag).getLsbD (coreBit thief)

/-- Whether a replay's log has this victim give a record to this thief (R258). -/
def State.logGives (s : State) (victim thief : Nat) (r : Rec) : Bool :=
  s.replays r && !s.logAway r && s.loggedSteal r == some (thief, victim)

/-- The victim that an idle thief's log names first (R258): a core whose deque holds a record that it is logged to steal. -/
def State.loggedVictim (s : State) (c : Nat) : Option Nat :=
  s.cores.findSome? fun (v, x) =>
    if x.deque.any fun r => s.logGives v c r then some v else none

/-- The request to a round's next victim, or the round's end and its backoff (R242). -/
def State.stealNext (s : State) (c : Nat) : State :=
  let x := s.core c
  match s.nextVictim c 8 x.steal x.lfsr with
  | (some v, t, l) => s.setCore c { x with lfsr := l, steal := { t with victim := some v, answered := false, reply := none } }
  | (none, _, l) => s.setCore c { x with lfsr := l, steal := { backoff := some (s.time + 2 * s.fld (.hlyCfg (coreDie c)) 31 16) } }

/-- STEAL_REQUEST (R242, R258). -/
def State.stealRequest (s : State) (c : Nat) : State :=
  let s := s.cores.foldl (fun s (v, _) => s.reachLogs v) s
  let x := s.core c
  let t := x.steal
  if s.idle c && t.victim.isNone && t.backoff.isNone then
    match s.loggedVictim c with
    | some v => if t.asked.contains v then s.stealNext c else s.setCore c { x with steal := { t with victim := some v, asked := t.asked ++ [v] } }
    | none => s.stealNext c
  else s

/-- STEAL_REQUEST. -/
def execStealRequest (s : State) : Host.Outcome State Fault Refusal := .next (s.stealRequest s.arg.core)

/-- STEAL_BACKOFF (R242). -/
def State.stealBackoff (s : State) (c : Nat) : State :=
  let x := s.core c
  match x.steal.backoff with
  | some t => if t ≤ s.time then s.setCore c { x with steal := { x.steal with backoff := none } } else s
  | none => s

/-- STEAL_BACKOFF. -/
def execStealBackoff (s : State) : Host.Outcome State Fault Refusal := .next (s.stealBackoff s.arg.core)

/-- The depth that a victim's deque needs for a thief (R243, R261). -/
def State.stealMin (s : State) (victim thief : Nat) : Nat :=
  let d := coreDie victim
  if coreBit victim = coreBit thief then 1
  else if coreDie thief = d then max 1 (s.fld (.hlyXcluMin d) 9 0)
  else max 1 (s.fld (.hlyXdieMin d) 9 0)

/-- The record that a victim grants a thief (R22, R243, R258): one that a replay's log has it give, however short the deque is; else the first
from the cold end that it may give and that no log forces. -/
def State.stealGrant (s : State) (victim thief : Nat) : Option Rec :=
  let x := s.core victim
  match x.deque.find? fun r => s.mayGive thief r && s.logGives victim thief r with
  | some r => some r
  | none =>
    if x.deque.length < s.stealMin victim thief then none
    else x.deque.find? fun r => s.mayGive thief r && !s.replays r

/-- The order log's entry of a steal (R256, R257). -/
def State.logSteal (s : State) (r : Rec) (victim thief : Nat) : State :=
  match s.logMode { ctx := r.ctx, det := r.det } with
  | 1 => s.logAppend r.ctx (recId r.words) 0xFFFFFFFF 1 (BitVec.ofNat 64 (thief + victim * 2 ^ 16)) 0
  | 2 => s.setFld (.ordHead r.ctx) 31 0 (s.fld (.ordHead r.ctx) 31 0 + 1)
  | _ => s

/-- STEAL_REQUEST_AT_VICTIM (R238, R243): the victim grants, and the record leaves its deque, its staged bytes and its lease behind; or it
refuses. -/
def State.stealAtVictim (s : State) (thief : Nat) : State :=
  let x := s.core thief
  match x.steal.victim with
  | none => s
  | some v =>
    if x.steal.answered then s
    else match s.stealGrant v thief with
      | none => s.setCore thief { x with steal := { x.steal with answered := true } }
      | some r =>
        let s := ((s.setCore v ((s.core v).dropRec r.id)).dropLease v r.id).bump (.tskStat v) 47 32 1
        let s := s.logSteal r v thief
        let y := s.core thief
        let r' := { r with state := .pushed, leased := false, toStage := [], stolen := true, available := true, aged := false, pusher := none,
                           steals := r.steals + 1 }
        s.setCore thief { y with steal := { y.steal with answered := true, reply := some r' } }

/-- STEAL_REQUEST_AT_VICTIM. -/
def execStealRequestAtVictim (s : State) : Host.Outcome State Fault Refusal := .next (s.stealAtVictim s.arg.core)

/-- STEAL_REPLY (R238, R239, R242): a stolen record is pushed at the thief's hot end; a refusal lets the round go on. -/
def State.stealReply (s : State) (c : Nat) : State :=
  let x := s.core c
  let t := x.steal
  if t.answered then
    match t.reply with
    | some r =>
      if x.deque.length < 512 then s.setCore c { x with deque := x.deque ++ [{ r with pushedAt := s.time }], steal := {} } else s
    | none => s.setCore c { x with steal := { t with victim := none, answered := false } }
  else s

/-- STEAL_REPLY. -/
def execStealReply (s : State) : Host.Outcome State Fault Refusal := .next (s.stealReply s.arg.core)

/-! ## Remote spawns (R244, R245, R250) -/

/-- Changes a record on its way. -/
def State.onSpawn (s : State) (id : Nat) (f : SpawnMsg → SpawnMsg) : State :=
  { s with spawns := s.spawns.map fun m => if m.id = id then f m else m }

/-- Whether a kernel still takes records (R244, R315): it is live and not cancelled. -/
def State.kernelLive (s : State) (tag : Nat) : Bool :=
  match s.kernel tag with
  | some k => k.state != .launching && !k.cancelled
  | none => false

/-- A record is accepted into an inbound queue (R23, R235, R244): its future is cleared, it stands at the tail, and its kernel counts
it. -/
def State.acceptInbound (s : State) (c : Nat) (r : Rec) : State :=
  let s := s.clearFuture (.task c) c r.ctx r.ktag r.words
  let x := s.core c
  (s.setCore c { x with inbound := x.inbound ++ [{ r with pushedAt := s.time }] }).liveUp r.ktag

/-- A record on its way is lost with a fault of its sender's instruction (R244, R360). -/
def State.spawnFault (s : State) (m : SpawnMsg) (code : Nat) : State :=
  let s := { s with spawns := s.spawns.filter fun y => y.id != m.id }.engineDone m.core m.slot m.op
  s.takeFault m.core m.slot m.strand m.pc { code := code, kind := 2 }

/-- What a peer part answers to a record (R210, R244, R357): it accepts, refuses or drops it, or the record was dropped at a fifth hop on its way
(log entry 24). -/
def State.peerInbound (s : State) (m : SpawnMsg) : State :=
  let (v, s) := s.peerAnswer
  if v.getLsbD 0 then s.onSpawn m.id fun m => { m with arrived := true, accepted := true }
  else if v.getLsbD 1 then s.onSpawn m.id fun m => { m with arrived := true, dropped := true }
  else if v.getLsbD 2 then s.spawnFault m fcLinkDown
  else s.onSpawn m.id fun m => { m with arrived := true, refused := true }

/-- Whether a peer's packet has been applied already: each end-to-end tag of the last 4,096 of a rank is applied once (R360). -/
def State.tagKnown (s : State) (rank tag : Nat) : Bool := (Bank.lookD s.tags rank []).contains tag
/-- A peer's packet has been applied. -/
def State.tagged (s : State) (rank tag : Nat) : State :=
  { s with tags := Bank.put s.tags rank ((tag :: Bank.lookD s.tags rank []).take 4096) }

/-- A record that a peer's SPAWNR sent arrives (R244, R245, R317, R360): it matches a live kernel of its context by region and root logical id.
The answer is 0 for acceptance, with the future pointer, 1 for a refusal, which puts a .blk sender (code 1) on the core's grant list, and
INBOUND_REFUSED for a dropped record. One for a further rank goes on by this part's route table, but for a fifth hop, which drops it (R357). -/
def State.peerRecord (s : State) (a : StepArgs) : State :=
  if s.tagKnown a.id a.op then s
  else if a.rank ≠ s.fld .lnkDom 7 0 then
    (if 4 ≤ a.hops ∨ (s.rankPort a.rank a.core).isNone = true then (s.tagged a.id a.op).peerReply a.id 0 fcLinkDown
     else s.tagged a.id a.op)
  else
  let words := natWords a.ia 16
  let mine (k : Kernel) : Bool := k.launch.ctx == a.ctx && k.launch.region == a.size && k.launch.rootId == a.v && s.kernelLive k.tag
  match s.kernels.find? fun (_, k) => mine k with
  | none => (s.tagged a.id a.op).peerReply a.id 0 fcInboundRefused
  | some (tag, k) =>
    if 1536 ≤ a.core ∨ (s.kernelClusters tag).getLsbD (coreBit a.core) = false then (s.tagged a.id a.op).peerReply a.id 0 fcInboundRefused
    else if 64 ≤ (s.core a.core).inbound.length then
      let (g, s) := ((s.tagged a.id a.op).bump (.tskStat a.core) 63 48 1).fresh
      let x := s.core a.core
      let s := if a.code = 1 ∧ x.grants.length < 64 then
          { s.setCore a.core { x with grants := x.grants ++ [g] } with peerRefused := Bank.put s.peerRefused g a.id }
        else s
      s.peerReply a.id 0 1
    else match s.futureReady a.core a.ctx (recFuture words) with
      | (false, s) => s
      | (true, s) =>
        let (id, s) := (s.tagged a.id a.op).fresh
        (s.acceptInbound a.core
          { id := id, addr := BitVec.ofNat 64 a.addr, words := words, ctx := a.ctx, ktag := tag, det := k.det }).peerReply a.id
            (BitVec.ofNat 64 (recFuture words)) 0

/-- INBOUND_ARRIVAL (R22, R244, R245): a record reaches its target core, which accepts, refuses or drops it. -/
def State.inboundArrival (s : State) (id : Nat) : State :=
  match s.spawns.find? fun m => m.id == id with
  | none => s
  | some m =>
    if m.arrived || m.refused then s
    else if m.rank.isSome then (if (s.rankPort (m.rank.getD 0) m.target).isNone then s.spawnFault m fcLinkDown else s.peerInbound m)
    else
      let c := m.target
      let x := s.core c
      if !s.kernelLive m.ktag || !(s.kernelClusters m.ktag).getLsbD (coreBit c) then
        s.onSpawn id fun m => { m with arrived := true, dropped := true }
      else if 64 ≤ x.inbound.length then
        let s := s.bump (.tskStat c) 63 48 1
        let s := s.setCore c { x with grants := if x.grants.length < 64 && !x.grants.contains id then x.grants ++ [id] else x.grants }
        s.onSpawn id fun m => { m with arrived := true, refused := true, granted := false }
      else match s.futureReady c m.ctx (recFuture m.record.words) with
        | (false, s) => s
        | (true, s) => (s.acceptInbound c m.record).onSpawn id fun m => { m with arrived := true, accepted := true }

/-- INBOUND_ARRIVAL; with the flag, of a record from a peer part. -/
def execInboundArrival (s : State) : Host.Outcome State Fault Refusal :=
  .next (if s.arg.flag then s.peerRecord s.arg else s.inboundArrival s.arg.id)

/-- The sender's strand ends its SPAWNR (R250): s[sD], its counter, and for .blk the strand goes on. -/
def State.spawnrEnds (s : State) (m : SpawnMsg) (v : DWord) : State :=
  let s := (s.putS m.core m.slot m.dest v).engineDone m.core m.slot m.op
  let s := { s with spawns := s.spawns.filter fun y => y.id != m.id }
  let x := (s.group m.core m.slot).strand m.strand
  if m.blk && x.state == .waiting && x.wait.kind == .spawnr then s.endWait m.core m.slot m.strand x.wait.cont else s

/-- A plain sender, or one that has ended, is off its target's grant list (R245). -/
def State.offGrants (s : State) (m : SpawnMsg) : State :=
  let x := s.core m.target
  s.setCore m.target { x with grants := x.grants.filter (· ≠ m.id) }

/-- SPAWNR_REPLY (R244, R245, R250): acceptance writes the future pointer; a plain refusal writes zero, and a .blk sender holds its record;
a dropped record ends its task with INBOUND_REFUSED. -/
def State.spawnrReply (s : State) (id : Nat) : State :=
  match s.spawns.find? fun m => m.id == id with
  | none => s
  | some m =>
    if !m.arrived then s
    else if m.accepted then s.spawnrEnds m m.future
    else if m.dropped then s.spawnFault m fcInboundRefused
    else if m.blk then
      let live := (s.group m.core m.slot).ending.isNone
      if live then s.onSpawn id fun m => { m with arrived := false, refused := !m.granted, since := s.time }
      else ({ s with spawns := s.spawns.filter fun y => y.id != id }.engineDone m.core m.slot m.op).offGrants m
    else (s.spawnrEnds m 0).offGrants m

/-- SPAWNR_REPLY. -/
def execSpawnrReply (s : State) : Host.Outcome State Fault Refusal := .next (s.spawnrReply s.arg.id)

/-- INBOUND_GRANT (R245): an entry has freed, and the oldest refused sender resends its record. One grant goes out for each free entry; a peer's
sender gets it as the answer 2. -/
def State.inboundGrant (s : State) (c : Nat) : State :=
  let x := s.core c
  match x.grants with
  | [] => s
  | id :: rest =>
    let out := (s.spawns.filter fun m => m.target == c && m.rank.isNone && m.granted).length
    if x.inbound.length + out < 64 then
      match Bank.look s.peerRefused id with
      | some rank => { s.setCore c { x with grants := rest } with peerRefused := Bank.drop s.peerRefused id }.peerReply rank 0 2
      | none =>
      (s.setCore c { x with grants := rest }).onSpawn id fun m =>
        if m.blk then (if m.arrived then { m with granted := true } else { m with granted := true, refused := false }) else m
    else s

/-- A peer part's grant for a record that it had refused (R245): its .blk sender sends it again. -/
def State.peerGrant (s : State) (id : Nat) : State :=
  s.onSpawn id fun m => if m.rank.isSome && m.blk && m.refused then
      (if m.arrived then { m with granted := true } else { m with granted := true, refused := false }) else m

/-- INBOUND_GRANT; with the flag, one that a peer part has sent. -/
def execInboundGrant (s : State) : Host.Outcome State Fault Refusal :=
  .next (if s.arg.flag then s.peerGrant s.arg.id else s.inboundGrant s.arg.core)

/-- SPAWNR_RESEND (R245, R260): a .blk sender off the grant list sends its record again after TSK_CFG.RETRY core cycles; one
whose task ends gives its record up. -/
def State.spawnrResend (s : State) (id : Nat) : State :=
  match s.spawns.find? fun m => m.id == id with
  | none => s
  | some m =>
    let listed := m.rank.isNone && (s.core m.target).grants.contains id
    if m.refused && !m.arrived && (s.group m.core m.slot).ending.isSome then
      ({ s with spawns := s.spawns.filter fun y => y.id != id }.engineDone m.core m.slot m.op).offGrants m
    else if m.blk && m.refused && !m.arrived && !listed && decide (2 * max 1 (s.fld (.tskCfg m.core) 31 16) ≤ s.coreSince m.core m.since) then
      s.onSpawn id fun m => { m with refused := false }
    else s

/-- SPAWNR_RESEND. -/
def execSpawnrResend (s : State) : Host.Outcome State Fault Refusal := .next (s.spawnrResend s.arg.id)

end Sys2Proof.Machine
end

