-- ==== Sys2Proof/Machine/QueueEvents.lean ====
section
/-! DEFINITION. The queue front end (R297 to R306): queue states, packets, queue links and launch graphs. -/
namespace Sys2Proof.Machine

/-! ## Queue registers (R297) -/

/-- A queue. -/
def State.queue (s : State) (q : Nat) : Queue := Bank.lookD s.queues q {}
/-- Gives a queue a value. -/
def State.setQueue (s : State) (q : Nat) (x : Queue) : State := { s with queues := Bank.put s.queues q x }
/-- A queue's context. -/
def State.queCtx (s : State) (q : Nat) : Nat := s.fld (.queCtl q) 10 5
/-- A queue's state (R298): 0 DISABLED, 1 IDLE, 2 ACTIVE, 3 STOPPED. The part has 4,096 queues (R20). -/
def State.queState (s : State) (q : Nat) : Nat := if q < 4096 then s.fld (.queStat q) 17 16 else 0
/-- Gives a queue a state. -/
def State.setQueState (s : State) (q st : Nat) : State := s.setFld (.queStat q) 17 16 st
/-- The slot that a queue reads: its current one, or that of the started packet at which it stopped (R298, log entry 97), with its phase. -/
def State.slotNow (s : State) (q : Nat) : Nat × Nat := ((s.queue q).redo).getD ((s.queue q).slot, s.fld (.queStat q) 18 18)
/-- The pointer of the slot that a queue reads. -/
def State.slotPtr (s : State) (q : Nat) : Nat := ((s.reg (.queBase q)).toNat + 128 * (s.slotNow q).1) % 2 ^ 64
/-- A queue's poll timer starts, with the period that QUE_CFG holds now (R299). -/
def State.startPoll (s : State) (q : Nat) : State :=
  s.setQueue q { s.queue q with pollFrom := s.time, poll := s.fld .queCfg 23 0 }
/-- Whether a context's queues start packets (R320). -/
def State.ctxOpen (s : State) (n : Nat) : Bool := (s.ctx n).state == .opened || (s.ctx n).state == .releasing

/-! ## What the front end reaches (R301, R341, R412) -/

/-- The first check of R168 that a pointer of the front end fails, by its code, or 0: pointers are global (R301), and it needs the spans'
permissions asked for. -/
def State.frontFault (s : State) (ctx p align : Nat) (rd wr : Bool) : Nat :=
  if tagBad p true then fcSpace
  else if p % align ≠ 0 then fcAlignment
  else if ptrSpace p ≠ 0 then fcPermission
  else match s.span ctx (ptrOffset p) with
    | some (_, _, ctl) => if spanAllows rd wr ctl then 0 else fcPermission
    | none => fcPermission

/-- Reads n bytes at a pointer for the front end. -/
def State.frontRead (s : State) (ctx p n : Nat) : Served × Nat × State :=
  s.rangeRead (fun s a => s.ownTarget ctx a 1) false 0 (rangePieces (n / 65536 + 2) p n)

/-- Whether the front end can write a target now. -/
def State.frontReach (s : State) (ctx p : Nat) (write : Bool) : Served × Option Target × State :=
  match s.ownTarget ctx p 8 with
  | none => (.bad fcPermission, none, s)
  | some t =>
    match s.serve t false write 0 with
    | (r, s) => (r, some t, s)

/-! ## Stopping and reading (R298 to R300, R304) -/

/-- A queue stops at its current packet (R298, R304): one record of kind region, and FAULT holds the code. -/
def State.stopAt (s : State) (q code : Nat) (addr : DWord) (region : Nat) : State :=
  let s := s.regionFault (s.queCtx q) { code := code, kind := 3, region := region, addr := addr, info := BitVec.ofNat 64 q }
  let s := (s.setQueState q 3).setFld (.queStat q) 15 0 code
  { s.setQueue q { s.queue q with current := none, reading := false } with waits := s.waits.filter fun w => w.who != .queue q }

/-- A queue stops at the packet of its current slot. -/
def State.stopQueue (s : State) (q code region : Nat) : State := s.stopAt q code (BitVec.ofNat 64 (s.slotPtr q)) region

/-- A queue stops at a packet that has started (R298, R304, R306, R341): RUN reads that packet again, the last one of several
(log entry 124). One whose queue is disabled leaves its record alone. -/
def State.stopStarted (s : State) (q ctx code : Nat) (addr : DWord) (region : Nat) : State :=
  if s.fld (.queCtl q) 11 11 = 1 then
    let x := s.queue q
    let k := (addr.toNat - (s.reg (.queBase q)).toNat) / 128
    let phase := s.fld (.queStat q) 18 18
    let s := s.stopAt q code addr region
    s.setQueue q { s.queue q with redo := some (k, if k < x.slot then phase else 1 - phase) }
  else s.regionFault ctx { code := code, kind := 3, region := region, addr := addr, info := BitVec.ofNat 64 q }

/-- The front end reads the current slot (R298 to R300): byte 0 decides whether the queue is ACTIVE, and the rest follows it. An ABSENT
page holds the read back. -/
def State.readSlot (s : State) (q : Nat) : State :=
  let x := s.queue q
  let ctx := s.queCtx q
  if !s.ctxOpen ctx || x.current.isSome then s
  else
    let p := s.slotPtr q
    let code := s.frontFault ctx p 128 true false
    if code ≠ 0 then s.stopQueue q code 0xFFFFFFFF
    else match s.frontRead ctx p 128 with
      | (.wait, _, s) => s.setQueue q { x with reading := true }
      | (.bad _, _, s) => s.stopQueue q fcPermission 0xFFFFFFFF
      | (.done, v, s) =>
        let y := { x with reading := false }
        if bit v 7 == ((s.slotNow q).2 == 1) then (s.setQueState q 2).setQueue q { y with current := some (natWords v 16) }
        else ((s.setQueState q 1).setQueue q y).startPoll q

/-- The current packet has started: the next slot, its phase, READ, and the next read (R297, R298); one that was read again leaves the queue
where it stood. -/
def State.advance (s : State) (q : Nat) : State :=
  let x := s.queue q
  if x.redo.isSome then (s.setQueue q { x with redo := none, current := none }).readSlot q
  else
  let last := x.slot + 1 == 2 ^ s.fld (.queCtl q) 4 0
  let s := s.setQueue q { x with slot := if last then 0 else x.slot + 1, current := none }
  let s := if last then s.setFld (.queStat q) 18 18 (1 - s.fld (.queStat q) 18 18) else s
  (s.setFld (.queStat q) 63 32 (s.fld (.queStat q) 63 32 + 1)).readSlot q

/-- The packets of a queue that are started and not complete (R302). -/
def Queue.open' (x : Queue) : List Started := x.started.filter fun y => !y.node

/-- Whether a queue's current packet may start (R302, R320): WAIT holds it until every earlier packet has completed, and 64 may be under
way. -/
def State.mayStart (s : State) (q : Nat) (v : Nat) : Bool :=
  s.ctxOpen (s.queCtx q) && (!bit v 6 || (s.queue q).open'.isEmpty) && decide ((s.queue q).open'.length < 64)

/-- The bits of a packet of each type that may be set (R300, R301). -/
def packetBits (type : Nat) : List (Nat × Nat) :=
  [(3, 0), (7, 6)] ++ (match type with
    | 1 => [(159, 64), (639, 192)]
    | 2 => [(143, 64), (255, 192)]
    | 3 => [(159, 64)]
    | 4 => [(191, 64), (194, 192)]
    | 5 => [(191, 64)]
    | 6 | 7 => [(71, 64), (127, 96)]
    | 8 => [(67, 64)]
    | _ => [(191, 64)])

/-- Whether a packet has a non-zero zero field (R300, R304). -/
def packetBad (type v : Nat) : Bool :=
  v != (packetBits type).foldl (fun n (hi, lo) => n + bits v hi lo * 2 ^ lo) 0

/-- The step of a packet of a type: a slot still to be read is read; a packet that may start and has no non-zero zero field has its
effect, which takes the packet as a number. -/
def State.packet (s : State) (q type : Nat) (eff : State → Nat → State) : State :=
  if s.queState q ≠ 2 then s
  else match (s.queue q).current with
    | none => s.readSlot q
    | some ws =>
      let v := wordsNat ws
      if bits v 3 0 ≠ type ∨ s.mayStart q v = false then s
      else if packetBad type v then s.stopQueue q fcRecordInvalid (if type = 1 then bits v 159 128 else 0xFFFFFFFF)
      else eff s v

/-- A packet starts that completes later: its entry, with the packet's number, and the next slot. -/
def State.startPacket (s : State) (q : Nat) (barrier : DWord) (region : Nat) (finished : Bool) (more : State → Nat → State) : State :=
  let x := s.queue q
  let y : Started := { id := x.nextPkt, ctx := s.queCtx q, addr := BitVec.ofNat 64 (s.slotPtr q), barrier := barrier, region := region
                       finished := finished }
  (more (s.setQueue q { x with started := x.started ++ [y], nextPkt := x.nextPkt + 1 }) x.nextPkt).advance q

/-! ## Register writes and reads of the slot (R297 to R299) -/

/-- QUEUE_ENABLE (R297, R298): EN written 1 while it was 0; every field takes effect, and a SIZE outside 6 to 16 none. -/
def State.queueEnable (s : State) (q : Nat) (v : DWord) : State :=
  let n := bits v.toNat 4 0
  if q < 4096 ∧ s.fld (.queCtl q) 11 11 = 0 ∧ v.getLsbD 11 ∧ 6 ≤ n ∧ n ≤ 16 then
    let s := s.setReg (.queCtl q) (v &&& (Reg.queCtl q).rwMask)
    let s := ((s.setQueState q 1).setFld (.queStat q) 18 18 1).setFld (.queStat q) 63 32 0
    (s.setQueue q { s.queue q with slot := 0, current := none, reading := false, redo := none }).startPoll q
  else s

/-- QUEUE_ENABLE. -/
def execQueueEnable (s : State) : Host.Outcome State Fault Refusal := .next (s.queueEnable s.arg.id s.arg.v)

/-- QUEUE_DISABLE (R298): EN written 0; packets already started run to completion. -/
def State.queueDisable (s : State) (q : Nat) (v : DWord) : State :=
  if q < 4096 ∧ s.fld (.queCtl q) 11 11 = 1 ∧ v.getLsbD 11 = false then
    let s := (s.setFld (.queCtl q) 11 11 0).setQueState q 0
    { s.setQueue q { s.queue q with current := none, reading := false } with waits := s.waits.filter fun w => w.who != .queue q }
  else s

/-- QUEUE_DISABLE. -/
def execQueueDisable (s : State) : Host.Outcome State Fault Refusal := .next (s.queueDisable s.arg.id s.arg.v)

/-- QUEUE_RUN (R298): RUN written 1 with EN, which stays 1: a STOPPED queue is ACTIVE and reads its slot again. -/
def State.queueRun (s : State) (q : Nat) (v : DWord) : State :=
  if s.fld (.queCtl q) 11 11 = 1 ∧ v.getLsbD 11 ∧ v.getLsbD 12 ∧ s.queState q = 3 then (s.setQueState q 2).readSlot q else s

/-- QUEUE_RUN. -/
def execQueueRun (s : State) : Host.Outcome State Fault Refusal := .next (s.queueRun s.arg.id s.arg.v)

/-- QUEUE_DOORBELL (R298, R299): an IDLE queue's slot is read at once and its timer starts again. -/
def execQueueDoorbell (s : State) : Host.Outcome State Fault Refusal :=
  let q := s.arg.id
  .next (if s.queState q = 1 then (s.startPoll q).readSlot q
         else if s.queState q = 2 then s.readSlot q else s)

/-- QUEUE_POLL (R298, R299): the poll timer of an IDLE queue expires; a read of it that waits for its page is tried again. -/
def State.queuePoll (s : State) (q : Nat) : State :=
  let x := s.queue q
  if s.queState q = 1 ∧ x.reading = true then s.readSlot q
  else if s.queState q = 1 ∧ x.poll ≠ 0 ∧ x.pollFrom + x.poll ≤ s.time then (s.startPoll q).readSlot q
  else s

/-- QUEUE_POLL. -/
def execQueuePoll (s : State) : Host.Outcome State Fault Refusal := .next (s.queuePoll s.arg.id)

/-! ## LAUNCH (R301, R304, R308, R313) -/

/-- What a LAUNCH packet or a node's image asks for. -/
def launchOf (source : LaunchBy) (ctx : Nat) (addr : DWord) (v : Nat) : Launch :=
  { source := source, ctx := ctx, codeBase := BitVec.ofNat 64 (bits v 127 64), region := bits v 159 128
    rootId := BitVec.ofNat 64 (bits v 255 192), leases := (List.range 4).map fun i => BitVec.ofNat 64 (bits v (64 * i + 319) (64 * i + 256))
    record := BitVec.ofNat 64 (bits v 575 512), barrier := BitVec.ofNat 64 (bits v 639 576), addr := addr }

/-- The code with which a launch's packet or image is refused, or 0 (R304): zero fields, a region of another context, pointers. The
code base needs a span, and no permission to read or write. -/
def State.launchCode (s : State) (l : Launch) : Nat :=
  let block := s.regionBlock l.region
  let other := decide (l.region < s.fld .rgnCnt 31 0) && rgnCtx block != l.ctx
  let base := s.frontFault l.ctx l.codeBase.toNat 4096 false false
  let record := s.frontFault l.ctx l.record.toNat 128 true true
  let barrier := if l.barrier = 0 then 0 else s.frontFault l.ctx l.barrier.toNat 128 true true
  if l.leases.any fun w => leaseBad w.toNat then fcRecordInvalid
  else if other then fcPermission
  else if base ≠ 0 then base
  else if record ≠ 0 then record
  else barrier

/-- LAUNCH (R301, R313): the kernel is QUEUED. -/
def State.launchPacket (s : State) (q : Nat) : State :=
  s.packet q 1 fun s v =>
    let l := launchOf (.packet q (s.queue q).nextPkt) (s.queCtx q) (BitVec.ofNat 64 (s.slotPtr q)) v
    let code := s.launchCode l
    if code ≠ 0 then s.stopQueue q code l.region
    else s.startPacket q l.barrier l.region false fun s _ => { s with launches := s.launches ++ [l] }

/-- LAUNCH. -/
def execLaunch (s : State) : Host.Outcome State Fault Refusal := .next (s.launchPacket s.arg.id)

/-! ## GRAPH (R305, R306) -/

/-- The nodes of a launch table: image pointers, successors, predecessor counts; none if a node fails its checks (R305). -/
def graphNodes (count v : Nat) : Option (List (DWord × List Nat × Nat)) :=
  let node (i : Nat) : DWord × List Nat × Nat :=
    let b := bits v (512 * i + 511) (512 * i)
    let n := bits b 31 16
    (BitVec.ofNat 64 (bits b 127 64), (List.range n).map fun j => bits b (16 * j + 143) (16 * j + 128), bits b 15 0)
  let bad (i : Nat) : Bool :=
    let b := bits v (512 * i + 511) (512 * i)
    bits b 63 32 != 0 || decide (4096 < bits b 15 0) || decide (24 < bits b 31 16)
      || (node i).2.1.any fun j => decide (count ≤ j)
  if (List.range count).any bad then none else some ((List.range count).map node)

/-- A GRAPH packet starts (R305, R306): its table is read and checked whole, and the nodes without predecessors are to be launched in
index order. A count of 0 or above 4,096 is RECORD_INVALID (log entry 51). -/
def State.graphStart (s : State) (q : Nat) : State :=
  s.packet q 2 fun s v =>
    let ctx := s.queCtx q
    let table := bits v 127 64
    let count := bits v 143 128
    let barrier := bits v 255 192
    let stop (code : Nat) (s : State) : State := s.stopQueue q code 0xFFFFFFFF
    let tcode := s.frontFault ctx table 64 true false
    let bcode := if barrier = 0 then 0 else s.frontFault ctx barrier 128 true true
    if count = 0 ∨ 4096 < count then stop fcRecordInvalid s
    else if tcode ≠ 0 then stop tcode s
    else if bcode ≠ 0 then stop bcode s
    else if !s.spansOk (s.ctx ctx).spans ctx (spanAllows true false) 40 (ptrOffset table) (64 * count) then stop fcPermission s
    else match s.frontRead ctx table (64 * count) with
      | (.wait, _, s) => s
      | (.bad _, _, s) => stop fcPermission s
      | (.done, t, s) =>
        match graphNodes count t with
        | none => stop fcRecordInvalid s
        | some ns =>
          let (id, s) := s.fresh
          let cs := ns.map fun (_, _, c) => c
          let g : GraphRun :=
            { id := id, queue := q, pkt := (s.queue q).nextPkt, ctx := ctx, addr := BitVec.ofNat 64 (s.slotPtr q)
              nodes := ns.map fun (p, t, _) => (p, t), counters := cs
              ready := (List.range count).filter fun i => nth cs i == 0 }
          s.startPacket q (BitVec.ofNat 64 barrier) 0xFFFFFFFF false fun s _ => { s with graphs := s.graphs ++ [g] }

/-- Changes a graph in progress. -/
def State.onGraph (s : State) (id : Nat) (f : GraphRun → GraphRun) : State :=
  { s with graphs := s.graphs.map fun g => if g.id = id then f g else g }

/-- A node whose image is refused counts as one whose kernel is FAULTED with that code, and its record names the image, and the region of one
that was read (R304, R306, R314). -/
def State.nodeRefused (s : State) (g : GraphRun) (i code : Nat) (image : DWord) (region : Nat) : State :=
  let s := s.regionFault g.ctx { code := code, kind := 3, region := region, addr := image }
  (s.bump .krnStat 47 32 1).onGraph g.id fun g => { g with ready := g.ready.drop 1 }.nodeFault i code

/-- The next node of a graph that is to be launched (R306): an empty one is done at once, another's image is read and its kernel QUEUED. -/
def State.graphLaunch (s : State) (g : GraphRun) (i : Nat) : State :=
  let image := (g.nodes.getD i (0, [])).1
  if image = 0 then s.onGraph g.id fun g => { g with ready := g.ready.drop 1 }.nodeDone i
  else
    let code := s.frontFault g.ctx image.toNat 8 true false
    if code ≠ 0 then s.nodeRefused g i code image 0xFFFFFFFF
    else match s.frontRead g.ctx image.toNat 128 with
      | (.wait, _, s) => s
      | (.bad _, _, s) => s.nodeRefused g i fcPermission image 0xFFFFFFFF
      | (.done, v, s) =>
        let l := launchOf (.node g.id i) g.ctx image v
        let code := if bits v 3 0 ≠ 1 ∨ packetBad 1 v then fcRecordInvalid else s.launchCode l
        if code ≠ 0 then s.nodeRefused g i code image l.region
        else { s with launches := s.launches ++ [l] }.onGraph g.id fun g => { g with ready := g.ready.drop 1, running := g.running ++ [i] }

/-- A graph with nothing running and nothing to launch is over (R306): it completes, or it fails and its queue stops (R304). -/
def State.graphOver (s : State) (g : GraphRun) : State :=
  let s := { s with graphs := s.graphs.filter fun y => y.id != g.id }
  if g.finished = g.nodes.length then s.packetDone g.queue g.pkt
  else
    let x := s.queue g.queue
    let s := s.setQueue g.queue { x with started := x.started.filter fun y => y.id != g.pkt || y.node }
    s.stopStarted g.queue g.ctx (g.fault.getD fcRecordInvalid) g.addr 0xFFFFFFFF

/-- GRAPH (R306): a graph of the queue in progress takes its next step, or a GRAPH packet starts. In a context that closes no further
node launches (R320). -/
def State.graphStep (s : State) (q : Nat) : State :=
  match s.graphs.find? fun g => g.queue == q && (!g.ready.isEmpty || g.running.isEmpty) with
  | some g =>
    (match g.ready with
      | i :: _ => if s.ctxOpen g.ctx then s.graphLaunch g i else s
      | [] => s.graphOver g)
  | none => s.graphStart q

/-- GRAPH. -/
def execGraph (s : State) : Host.Outcome State Fault Refusal := .next (s.graphStep s.arg.id)

/-! ## COPY, BARRIER_ADD, BARRIER_WAIT (R301, R302) -/

/-- COPY (R189, R301): the core's engine starts the list, once its kick registers are free. -/
def State.copyPacket (s : State) (q : Nat) : State :=
  s.packet q 3 fun s v =>
    let p := bits v 127 64
    let count := bits v 143 128
    let core := bits v 159 144
    let code := s.frontFault (s.queCtx q) p 32 true false
    if count = 0 ∨ 1535 < core then s.stopQueue q fcRecordInvalid 0xFFFFFFFF
    else if code ≠ 0 then s.stopQueue q code 0xFFFFFFFF
    else if s.fld (.cpeStat core) 0 0 = 1 then s
    else s.startPacket q 0 0xFFFFFFFF false fun s n => s.startList core (.packet q n) (s.queCtx q) (BitVec.ofNat 64 p) count

/-- COPY. -/
def execCopyPacket (s : State) : Host.Outcome State Fault Refusal := .next (s.copyPacket s.arg.id)

/-- BARRIER_ADD (R214, R216, R223, R301): a releasing add at the packet's scope. -/
def State.barrierAdd (s : State) (q : Nat) : State :=
  s.packet q 4 fun s v =>
    let p := bits v 127 64
    let ctx := s.queCtx q
    let code := s.frontFault ctx p 128 true true
    if code ≠ 0 then s.stopQueue q code 0xFFFFFFFF
    else match s.frontReach ctx p true with
      | (.wait, _, s) => s
      | (.done, some t, s) =>
        s.startPacket q 0 0xFFFFFFFF true fun s _ =>
          ((s.settleAt t 8).addWord t (bits v 191 128) (some { agent := .front, scope := bits v 194 192 }) { ctx := ctx }).2
      | (_, _, s) => s.stopQueue q fcPermission 0xFFFFFFFF

/-- BARRIER_ADD. -/
def execBarrierAdd (s : State) : Host.Outcome State Fault Refusal := .next (s.barrierAdd s.arg.id)

/-- BARRIER_WAIT (R215, R302, R304): the queue waits on the word through the home's waiter entries; it starts, and so completes, when
the word has reached the target, and stops where the barrier broke or its page is gone. -/
def State.barrierWait (s : State) (q : Nat) : State :=
  s.packet q 5 fun s v =>
    let p := bits v 127 64
    let ctx := s.queCtx q
    let code := s.frontFault ctx p 8 true false
    match s.waits.find? fun w => w.who == .queue q with
    | some w =>
      (match w.stage with
        | .woken _ true => if s.wakeBehind w then s else s.stopQueue q fcBarrierBroken 0xFFFFFFFF
        | .woken _ false => ({ s with waits := s.waits.filter fun w => w.who != Waiter.queue q } : State).advance q
        | .entry => s
        | _ =>
          match s.frontReach ctx p false with
          | (.bad _, _, s) => s.stopQueue q fcPermission 0xFFFFFFFF
          | (_, _, s) => s)
    | none =>
      if code ≠ 0 then s.stopQueue q code 0xFFFFFFFF
      else match s.ownTarget ctx p 8 with
        | none => s.stopQueue q fcPermission 0xFFFFFFFF
        | some t =>
          let (id, s) := s.fresh
          { s with waits := s.waits ++ [{ id := id, who := .queue q, ctx := ctx, target := t, value := bits v 191 128, since := s.time }] }

/-- BARRIER_WAIT. -/
def execBarrierWait (s : State) : Host.Outcome State Fault Refusal := .next (s.barrierWait s.arg.id)

/-! ## Queue links (R303) -/

/-- LINK_RELEASE (R303, R304). -/
def State.linkRelease (s : State) (q : Nat) : State :=
  s.packet q 6 fun s v =>
    let n := bits v 71 64
    let k := bits v 127 96
    let c := s.fld (.qlinkCnt n) 31 0
    if k = 0 then s.stopQueue q fcRecordInvalid 0xFFFFFFFF
    else if s.fld (.qlinkCfg n) 31 31 = 0 ∨ s.fld (.qlinkCfg n) 11 0 ≠ q then s.stopQueue q fcPermission 0xFFFFFFFF
    else if 2 ^ 32 ≤ c + k then s.stopQueue q fcRecordInvalid 0xFFFFFFFF
    else (s.setFld (.qlinkCnt n) 31 0 (c + k)).advance q

/-- LINK_RELEASE. -/
def execLinkRelease (s : State) : Host.Outcome State Fault Refusal := .next (s.linkRelease s.arg.id)

/-- LINK_WAIT (R302 to R304). -/
def State.linkWait (s : State) (q : Nat) : State :=
  s.packet q 7 fun s v =>
    let n := bits v 71 64
    let k := bits v 127 96
    let c := s.fld (.qlinkCnt n) 31 0
    if k = 0 then s.stopQueue q fcRecordInvalid 0xFFFFFFFF
    else if s.fld (.qlinkCfg n) 31 31 = 0 ∨ s.fld (.qlinkCfg n) 27 16 ≠ q then s.stopQueue q fcPermission 0xFFFFFFFF
    else if c < k then s
    else (s.setFld (.qlinkCnt n) 31 0 (c - k)).advance q

/-- LINK_WAIT. -/
def execLinkWait (s : State) : Host.Outcome State Fault Refusal := .next (s.linkWait s.arg.id)

/-- QLINK_CFG_WRITE (R303): the link's configuration is written, and with EN its count is cleared. -/
def execQlinkCfgWrite (s : State) : Host.Outcome State Fault Refusal :=
  let n := s.arg.id
  .next ((s.setReg (.qlinkCfg n) (s.arg.v &&& (Reg.qlinkCfg n).rwMask)).setFld (.qlinkCnt n) 31 0 0)

/-! ## PUBLISH, MARKER (R301, R365) -/

/-- PUBLISH (R301, R365): a window of the queue's context is published. -/
def State.publishPacket (s : State) (q : Nat) : State :=
  s.packet q 8 fun s v =>
    let n := bits v 67 64
    if s.fld (.hwCtl n) 39 39 = 0 ∨ s.fld (.hwCtl n) 37 32 ≠ s.queCtx q then s.stopQueue q fcPermission 0xFFFFFFFF
    else s.startPacket q 0 0xFFFFFFFF true fun s _ => s.publish n

/-- PUBLISH. -/
def execPublishPacket (s : State) : Host.Outcome State Fault Refusal := .next (s.publishPacket s.arg.id)

/-- MARKER (R301): a value is stored as a release at system scope. On a registered line the store is not performed (R213). -/
def State.marker (s : State) (q : Nat) : State :=
  s.packet q 9 fun s v =>
    let p := bits v 191 128
    let ctx := s.queCtx q
    let code := s.frontFault ctx p 8 false true
    if p = 0 then s.advance q
    else if code ≠ 0 then s.stopQueue q code 0xFFFFFFFF
    else match s.frontReach ctx p true with
      | (.wait, _, s) => s
      | (.done, some t, s) =>
        s.startPacket q 0 0xFFFFFFFF true fun s _ =>
          if s.protects t false then
            (s.countProtect t).regionFault ctx { code := fcBarrierProtect, kind := 3, addr := BitVec.ofNat 64 p }
          else (s.settleAt t 8).storeAt t 8 (bits v 127 64) [{ agent := .front, scope := 7 }]
      | (_, _, s) => s.stopQueue q fcPermission 0xFFFFFFFF

/-- MARKER. -/
def execMarker (s : State) : Host.Outcome State Fault Refusal := .next (s.marker s.arg.id)

/-- INVALID_PACKET (R304): a packet of type 0 or 10 to 15 stops its queue. -/
def execInvalidPacket (s : State) : Host.Outcome State Fault Refusal :=
  let q := s.arg.id
  .next (if s.queState q ≠ 2 then s
    else match (s.queue q).current with
      | none => s.readSlot q
      | some ws =>
        let type := bits (wordsNat ws) 3 0
        if type = 0 ∨ 10 ≤ type then s.stopQueue q fcRecordInvalid 0xFFFFFFFF else s)

/-! ## Completion (R301, R302) -/

/-- A started packet leaves its queue. -/
def State.dropStarted (s : State) (q pkt : Nat) : State :=
  let x := s.queue q
  s.setQueue q { x with started := x.started.filter fun y => y.id != pkt || !y.finished }

/-- PACKET_COMPLETE (R216, R301, R306, R313): a packet, or a graph node's kernel, is over, and its completion barrier receives an add of 1
as a release at device scope. -/
def State.packetComplete (s : State) (q pkt : Nat) : State :=
  match (s.queue q).started.find? fun y => y.id == pkt && y.finished with
  | none => s
  | some y =>
    if y.barrier = 0 then s.dropStarted q pkt
    else match s.frontReach y.ctx y.barrier.toNat true with
      | (.wait, _, s) => s
      | (.done, some t, s) =>
        ((s.settleAt t 8).addWord t 1 (some { agent := .front, scope := 5 }) { ctx := y.ctx, region := y.region, ktag := y.ktag }).2.dropStarted q pkt
      | (_, _, s) => (s.dropStarted q pkt).stopStarted q y.ctx fcPermission y.addr (if y.node then 0xFFFFFFFF else y.region)

/-- PACKET_COMPLETE. -/
def execPacketComplete (s : State) : Host.Outcome State Fault Refusal := .next (s.packetComplete s.arg.id s.arg.op)

end Sys2Proof.Machine
end

