-- ==== Sys2Proof/Machine/KernelEvents.lean ====
section
/-! DEFINITION. Kernels from their entry to their end (R313 to R316), their cancellation (R315), and the regions' watchdogs (R311). -/
namespace Sys2Proof.Machine

/-! ## LAUNCHING (R313, R314) -/

/-- The cores of a cluster mask, in increasing index. -/
def maskCores (m : BitVec 96) : List Nat := (List.range 1536).filter fun c => m.getLsbD (coreBit c)

/-- The lease requests of a launch (R314): the kernel's ranges, then the root's extra range, which the root's record will hold once it is
placed (until then the holder's core is 1536). -/
def State.launchLeases (s : State) (k : Kernel) (words : List DWord) : State :=
  let own := (k.launch.leases.filterMap fun w => leaseRange w.toNat).map fun r => (Holder.kernel k.tag, r)
  let extra := ((leaseRange (recLease words)).map fun r => (Holder.record 1536 k.tag, r)).toList
  let all := own ++ extra
  let s := all.foldl (fun s (h, r) =>
    let (id, s) := s.fresh
    { s with leaseReqs := s.leaseReqs ++ [
      { id := id, holder := h, ctx := k.launch.ctx, base := r.base, size := r.size
        pieces := s.spanPieces (s.ctx k.launch.ctx).spans k.launch.ctx 40 r.base r.size }] }) s
  s.onKernel k.tag fun k => { k with leasesLeft := all.length }

/-- Step 1 of LAUNCHING (R314): the front end reads the root record, checks it and marks it with the root's logical id. A page that is
ABSENT holds it back. -/
def State.launchRead (s : State) (k : Kernel) : State :=
  let ctx := k.launch.ctx
  let p := k.launch.record.toNat
  match s.frontReach ctx p true with
  | (.wait, _, s) => s
  | (.done, some t, s) =>
    let (v, s) := (s.settleAt t 128).readT t 0 128
    let words := natWords v 16
    let c := (maskCores k.eff.clusters).headD 0
    match s.descsReady c ctx words with
    | (false, s) => s
    | (true, s) =>
    if s.recInvalid c ctx k.tag words then s.launchFail k.tag fcRecordInvalid
    else
      let words := recWithId words k.launch.rootId
      let rel : List Release := [{ agent := .front, scope := 5 }]
      let s := (s.unitStore t 8 (words.getD 0 0).toNat rel).unitStore (t.plus 16) 8 k.launch.rootId.toNat rel
      (s.onKernel k.tag fun k => { k with root := words, det := recDet words }).launchLeases k words
  | (_, _, s) => s.launchFail k.tag fcPermission

/-- The lowest-numbered free kernel entry (R313). -/
def State.freeEntry (s : State) : Option Nat := firstBelow (fun n => s.kernels.all fun (t, _) => t % 4096 != n) 4096

/-- The watchdogs of a kernel's region and of those above it that had no live kernel start with it (R311). -/
def State.watchFrom (s : State) (tag : Nat) : State :=
  { s with regions := (s.eff tag).path.foldl (fun rs r =>
      if s.kernels.any fun (t, k) => t != tag && k.eff.path.contains r then rs
      else Bank.alter rs r {} fun y => { y with restarted := s.real }) s.regions }

/-- KERNEL_ENTRY_TAKEN (R308, R313): the oldest QUEUED kernel takes the lowest free entry, and its effective values are computed. -/
def State.entryTaken (s : State) : State :=
  match s.launches, s.freeEntry with
  | l :: rest, some n =>
    let used := Bank.lookD s.reuse n 0
    let tag := n + 4096 * (used % 16)
    let s := { s with launches := rest, reuse := Bank.put s.reuse n (used + 1) }
    let k : Kernel := { tag := tag, launch := l, eff := {}, state := .launching }
    (match s.effective l.ctx l.region with
      | none => (s.setKernel k).launchFail tag fcRecordInvalid
      | some e =>
        let k := { k with eff := e }
        ((s.setKernel k).watchFrom tag).launchRead k)
  | _, _ => s

/-- KERNEL_ENTRY_TAKEN. -/
def execKernelEntryTaken (s : State) : Host.Outcome State Fault Refusal := .next s.entryTaken

/-- A core's droop events in the last microsecond (R408). -/
def State.droopCount (s : State) (c : Nat) : Nat := (s.droops.filter fun (k, t) => k == c && decide (s.time < t + 2000)).length

/-- The weight of a core for a placement (R316). -/
def State.placeWeight (s : State) (c : Nat) : Nat :=
  let hot := min 15 (s.fld (.coreSens c) 7 0 - s.fld .sparPlace 7 0)
  let droop := min 15 (s.droopCount c)
  let busy := ((List.range 32).filter fun k => (s.slot c k).state != .free).length / 4
  4 * hot + 2 * droop + busy

/-- The candidate cores of a placement, from the cursor on (R316). -/
def candidatesAt (cores : List Nat) (n : Nat) : List Nat :=
  (List.range (min 5 cores.length)).map fun i => nth cores ((n + i) % cores.length)

/-- The earliest candidate of least weight. -/
def leastWeight (w : Nat → Nat) : List Nat → Nat → Nat
  | [], best => best
  | c :: t, best => leastWeight w t (if w c < w best then c else best)

/-- Spar places the root record on a core (R314 step 3, R316): its operands are staged there before it enters the inbound queue. -/
def State.placeRoot (s : State) (k : Kernel) (c : Nat) : State :=
  let (id, s) := s.fresh
  let held := (leaseRange (recLease k.root)).isSome
  let r : Rec :=
    { id := id, addr := k.launch.record, words := k.root, ctx := k.launch.ctx, ktag := k.tag, det := k.det, state := .leasing
      leased := held, root := true, toStage := recOperands k.root }
  let x := s.core c
  let s := s.setCore c { x with binding := x.binding ++ [.record r []] }
  let s := { s with
    leases := s.leases.map fun (e : Lease) => if e.holder == Holder.record 1536 k.tag then { e with holder := .record c id } else e
    regions := Bank.alter s.regions k.launch.region {} fun y => { y with cursor := y.cursor + 1 } }
  s.setKernel { k with placed := some c }

/-- ROOT_PLACEMENT (R314, R316): a LAUNCHING kernel whose ranges are all leased is placed; one whose record is still to be read reads it.
New placements wait while a hand-over is QUIESCING (R406). -/
def State.rootPlacement (s : State) (tag : Nat) : State :=
  match s.kernel tag with
  | none => s
  | some k =>
    if s.fld .fwStat 4 2 == 2 || k.state != .launching || k.placed.isSome then s
    else if k.root.isEmpty then s.launchRead k
    else if k.leasesLeft ≠ 0 then s
    else
      let cores := maskCores (s.kernelClusters tag)
      match candidatesAt cores (Bank.lookD s.regions k.launch.region {}).cursor with
      | [] => s.launchFail tag fcPermission
      | c :: t => s.placeRoot k (leastWeight s.placeWeight t c)

/-- ROOT_PLACEMENT. -/
def execRootPlacement (s : State) : Host.Outcome State Fault Refusal := .next (s.rootPlacement s.arg.id)

/-! ## The end of a kernel (R313) -/

/-- The mode that a context's order log register asks for comes into force, if no deterministic kernel of the context is live: with a
new mode the log starts at its head again (R262; log entry 29). -/
def State.applyMode (s : State) (ctx : Nat) : State :=
  let mode := s.fld (.ordCtl ctx) 1 0
  let live := s.kernels.any fun (_, k) => k.launch.ctx == ctx && k.det
  if live ∨ Bank.lookD s.ordMode ctx 0 = mode then s
  else { s with ordMode := Bank.put s.ordMode ctx mode
                logSeq := s.logSeq.filter fun (line, _) => line % 64 != ctx }.setFld (.ordHead ctx) 31 0 0

/-- KERNEL_DONE (R227, R313): a DRAINING kernel whose tasks have all ended: its pending sets settle, its leases end, its entry is free, and
its launch is over. -/
def State.kernelDone (s : State) (tag : Nat) : State :=
  match s.kernel tag with
  | none => s
  | some k =>
    if k.state = .draining ∧ k.live = 0 then
      let s := s.settleWhere fun p => p.ktag == tag
      let s := { s with kernels := Bank.drop s.kernels tag
                        code := s.code.filter fun (k, _) => k / 2 ^ 62 != tag
                        leases := s.leases.filter fun (e : Lease) => e.holder != Holder.kernel tag
                        leaseReqs := s.leaseReqs.filter fun (q : LeaseReq) => q.holder != Holder.kernel tag }
      let s := s.applyMode k.launch.ctx
      if k.cancelled then s.launchCancelled k.launch tag else s.launchOver k.launch tag none
    else s

/-- KERNEL_DONE. -/
def execKernelDone (s : State) : Host.Outcome State Fault Refusal := .next (s.kernelDone s.arg.id)

/-! ## Cancellation (R315, R318) -/

/-- CANCEL_KERNEL (R315): KRN_CANCEL of kind 0 names a tag. -/
def execCancelKernel (s : State) : Host.Outcome State Fault Refusal := .next (s.cancelKernel s.arg.id)

/-- CANCEL_REGION (R315): KRN_CANCEL of kind 1 names a region; its kernels and those of its descendants are cancelled. -/
def State.cancelRegion (s : State) (region : Nat) : State :=
  (List.range 64).foldl (fun s n => s.cancelWhere n fun path => path.contains region) s

/-- CANCEL_REGION. -/
def execCancelRegion (s : State) : Host.Outcome State Fault Refusal := .next (s.cancelRegion s.arg.id)

/-! ## Watchdogs (R98, R311, R327) -/

/-- The oldest RUNNING kernel of a region and its descendants (R327). -/
def State.oldestKernel (s : State) (r : Nat) : Option Kernel :=
  let ks := (s.kernels.map (·.2)).filter fun k => k.state == .running && k.eff.path.contains r
  (sortBy (fun a b => decide (a.runOrder ≤ b.runOrder)) ks).head?

/-- The handler of a region fault (R327), named by the region's own effective values, for a record of a sequence number: it goes to the lowest
core of the oldest kernel; without a RUNNING kernel there is none. -/
def State.regionHandler (s : State) (r : Nat) (h : DWord) (f : FaultRec) (seq : Nat) : State :=
  match s.oldestKernel r with
  | none => s
  | some k =>
    let ctx := k.launch.ctx
    let c := (maskCores (s.kernelClusters k.tag)).headD 0
    s.handle ctx { core := c, ktag := k.tag, ptr := h, fault := f, seq := seq, id := BitVec.ofNat 64 r }

/-- REGION_WATCHDOG (R311): the effective period of a region with a live kernel passes without progress. -/
def State.regionWatchdog (s : State) (r : Nat) : State :=
  match s.kernels.find? fun (_, k) => k.launch.region == r with
  | none => s
  | some (_, k) =>
    let since := (Bank.lookD s.regions r {}).restarted
    if k.eff.watchdog = 0xFFFFFFFF ∨ s.regionFrozen r ∨ s.real < since + realMicro * k.eff.watchdog then s
    else
      let f : FaultRec := { code := fcNoProgress, kind := 3, region := r }
      let seq := s.nextSeq k.launch.ctx
      let s := s.writeRecord k.launch.ctx f
      let s := { s with regions := Bank.alter s.regions r {} fun y => { y with restarted := s.real } }
      match k.eff.policy with
      | 1 => s.endDomain k.tag
      | 3 => s.regionHandler r k.eff.handler f seq
      | _ => s

/-- REGION_WATCHDOG. -/
def execRegionWatchdog (s : State) : Host.Outcome State Fault Refusal := .next (s.regionWatchdog s.arg.id)

end Sys2Proof.Machine
end

