-- ==== Sys2Proof/Machine/ContextEvents.lean ====
section
/-! DEFINITION. Contexts (R319 to R322): opening, closing, releasing clusters, scrubbing; the semaphore of the two host ports (R323); the
scratchpad split (R169); and the read of a fault queue's head (R325). -/
namespace Sys2Proof.Machine

/-! ## Opening (R319, R320) -/

/-- Whether a context's clusters, allocation or chip-scratchpad window overlap those of another that is not FREE (R320). -/
def State.ctxOverlaps (s : State) (n : Nat) : Bool :=
  (List.range 64).any fun m =>
    m != n && (s.ctx m).state != .free &&
      (s.ctxClusters n &&& s.ctxClusters m != 0
        || rangesMeet (s.reg (.ctxIa n)).toNat (s.fld (.ctxIaSize n) 31 0 * 2 ^ 30) (s.reg (.ctxIa m)).toNat (s.fld (.ctxIaSize m) 31 0 * 2 ^ 30)
        || rangesMeet (s.fld (.ctxCsp n) 9 0) (s.fld (.ctxCsp n) 26 16) (s.fld (.ctxCsp m) 9 0) (s.fld (.ctxCsp m) 26 16))

/-- Whether the sizes that a split gives the shared share and the private pool fit the scratchpad (R169, R320). -/
def splitFits (v : DWord) : Bool := decide (4096 * bits v.toNat 7 0 + 16384 * bits v.toNat 13 8 ≤ 2 ^ 20)

/-- Whether CMD 1 opens a context (R320). -/
def State.mayOpen (s : State) (n : Nat) : Bool :=
  !s.ctxOverlaps n && s.fld (.ctxIaSize n) 31 0 != 0 && bits (s.reg (.ctxFq n)).toNat 55 12 != 0
    && decide (s.fld (.ctxCsp n) 9 0 + s.fld (.ctxCsp n) 26 16 ≤ 1024) && splitFits (s.reg (.ctxSpad n))

/-- CONTEXT_OPEN (R169, R320, R330, R404): CMD 1 opens a FREE context, or sets OVERLAP, once the part is READY. -/
def State.contextOpen (s : State) (n : Nat) : State :=
  if 64 ≤ n || (s.ctx n).state != .free || s.boot != .ready then s
  else if s.mayOpen n then
    let s := (maskCores (s.ctxClusters n)).foldl (fun s c => s.setReg (.spadSplit c) (s.reg (.ctxSpad n))) s
    let s := (s.setReg (.ctxFqHead n) 0).setReg (.ctxFqTail n) 0
    s.setCtx n { state := .opened, spans := s.spanTable n }
  else s.setFld (.ctxCtl n) 8 8 1

/-! ## Closing and releasing (R320) -/

/-- CONTEXT_CLOSE (R315, R320): CMD 2; every kernel in QUEUED, LAUNCHING or RUNNING is cancelled. -/
def State.contextClose (s : State) (n : Nat) : State :=
  if s.ctxOpen n then (s.setCtx n { s.ctx n with state := .closing }).cancelWhere n fun _ => true else s

/-- CLUSTER_RELEASE (R308, R320): CMD 3; the named clusters of the context take no new work. -/
def State.clusterRelease (s : State) (n : Nat) : State :=
  let sel := s.fld (.ctxRel n) 33 32
  if (s.ctx n).state != .opened || sel == 3 then s
  else
    let named := BitVec.ofNat 96 (s.fld (.ctxRel n) 31 0 <<< (32 * sel)) &&& s.ctxClusters n
    s.setCtx n { s.ctx n with state := .releasing, releasing := named }

/-- What a CTX_CTL command does (R320). -/
def State.ctxRun (s : State) (n cmd : Nat) : State :=
  match cmd with
  | 1 => s.contextOpen n
  | 2 => s.contextClose n
  | 3 => s.clusterRelease n
  | _ => s

/-- A turn behind the first of those still to come in this cycle that a test accepts. -/
def Turn.behind (t : Turn) (p : Turn → Bool) : List Turn → Option (List Turn)
  | [] => none
  | x :: r => if x.delay ≠ 0 then none else if p x then some (x :: t :: r) else (t.behind p r).map (x :: ·)

/-- A host access of port 1 of some instruction i comes after those of port 0 of the same cycle that a test accepts (R320, R323). -/
def State.afterPort0 (s : State) (i : Instr) (p : Instr → StepArgs → Bool) (act : State → State) : State :=
  let zero (t : Turn) : Bool := match t.what with
    | .unit j a => a.port % 2 == 0 && p j a
    | _ => false
  match (if s.arg.port % 2 = 1 then Turn.behind { delay := 0, what := .unit i s.arg } zero s.agenda else none) with
  | some l => { s with agenda := l }
  | none => act s

/-- Whether a port takes an access: one with IDE configured refuses traffic without IDE (R361; log entry 100). -/
def portTakes (port : Nat) (ide : Bool) : Bool := ide || !Config.ideOn port

/-- The register that a host's step writes, or that it takes by reading (R323, R401). -/
def hostWrites (i : Instr) (a : StepArgs) : Option Reg :=
  if i == .registerWrite then Reg.ofAddr a.addr
  else if [Instr.contextOpen, .contextClose, .clusterRelease].contains i then some (.ctxCtl a.ctx)
  else if [Instr.semAcquire, .semRelease].contains i then some .semOwner
  else if [Instr.partReset, .handoverStart].contains i then some .fwCtl
  else if i == .fwImageWrite then some .fwImg
  else if [Instr.dbgHalt, .dbgRelease, .dbgStep, .dbgCancelStep, .dbgDump, .dbgLoad].contains i then some .dbgCmd
  else if i == .dbgDetach then some .dbgAttach
  else none

/-- A host's access to a register (R361, R401): the port takes it, and one of port 1 comes after those of port 0 to the same register in the same
cycle. The turn's flag says whether it comes with IDE. -/
def State.hostTurn (s : State) (i : Instr) (act : State → State) : Host.Outcome State Fault Refusal :=
  let r := hostWrites i s.arg
  .next (if portTakes (s.arg.port % 2) s.arg.flag then s.afterPort0 i (fun j a => r.isSome && hostWrites j a == r) act else s)

/-- A CTX_CTL command: from phase 2 of a hand-over on it waits (R406). -/
def State.ctxCommand (s : State) (n cmd : Nat) : State :=
  if 2 ≤ s.fld .fwStat 4 2 then { s with ctxCmds := s.ctxCmds ++ [(n, cmd)] } else s.ctxRun n cmd

/-- A CTX_CTL command as it reaches die 0: one of port 0 to the same context first where both arrive in one cycle (R320). -/
def State.ctxArrives (s : State) (i : Instr) (cmd : Nat) : Host.Outcome State Fault Refusal :=
  s.hostTurn i fun s => s.ctxCommand s.arg.ctx cmd

/-- CONTEXT_OPEN. -/
def execContextOpen (s : State) : Host.Outcome State Fault Refusal := s.ctxArrives .contextOpen 1
/-- CONTEXT_CLOSE. -/
def execContextClose (s : State) : Host.Outcome State Fault Refusal := s.ctxArrives .contextClose 2
/-- CLUSTER_RELEASE. -/
def execClusterRelease (s : State) : Host.Outcome State Fault Refusal := s.ctxArrives .clusterRelease 3

/-- Whether a core holds anything of a context: records, groups, saved groups with their frames and lane-private blocks (R320). -/
def State.coreHolds (s : State) (c n : Nat) : Bool :=
  let x := s.core c
  let recs := x.deque ++ x.inbound ++ x.relaunch ++ x.steal.reply.toList ++ x.ends.map (·.record)
  recs.any (fun r => r.ctx == n)
    || x.binding.any (fun b => match b with | .record r _ => r.ctx == n | .saved g _ _ _ => g.task.ctx == n)
    || x.slots.any (fun (_, y) => y.state != .free && y.group.task.ctx == n)
    || x.saved.any fun v => v.group.task.ctx == n

/-- Memory with a range of cells zero. -/
def Memory.clear (m : Memory) (base size : Nat) : Memory := m.filter fun (a, _) => !(decide (base ≤ a) && decide (a < base + size))

/-- A core's descriptor cache holds nothing of a context. -/
def CoreState.dropDescs (x : CoreState) (n : Nat) : CoreState := { x with desc := x.desc.filter fun e => e.ctx != n }
/-- A queue without the packets that it started under a context. -/
def Queue.forget (x : Queue) (n : Nat) : Queue := { x with started := x.started.filter fun y => y.ctx != n }

/-- Cores' scratchpads are zero, with no deterministic add pending there, their splits at the reset value, and their descriptor-cache entries of a
context dropped (R169, R174, R227, R322). -/
def State.scrubCores (s : State) (cores : List Nat) (n : Nat) : State :=
  cores.foldl (fun s c =>
    let s := { s with
      mem := Memory.clear s.mem (spadCell c 0) (2 ^ 20)
      pending := s.pending.filter fun p => match p.target with
        | .spad d _ => d != c
        | _ => true }
    (s.setReg (.spadSplit c) (Reg.spadSplit c).resetVal).setCore c ((s.core c).dropDescs n)) s

/-- The context's window of every die's chip scratchpad is zero (R322). -/
def State.scrubCsp (s : State) (n : Nat) : State :=
  { s with mem := (List.range 8).foldl (fun m d =>
      Memory.clear m (cspCell d (65536 * s.fld (.ctxCsp n) 9 0)) (65536 * s.fld (.ctxCsp n) 26 16)) s.mem }

/-- The context's order-log and spill registers are at their reset values (R322). -/
def State.scrubRegs (s : State) (n : Nat) : State :=
  let rs : List Reg := [.ordBase n, .ordSize n, .ordCtl n, .ordHead n]
    ++ (List.range 8).flatMap fun d => [Reg.spillBase d n, Reg.spillSize d n]
  rs.foldl (fun s r => s.setReg r r.resetVal) s

/-- The L2 lines of a context's allocation are invalid, without write-back (R322). -/
def State.scrubL2 (s : State) (n : Nat) : State := { s with l2 := s.l2.filter fun x => x.2.1 / 2 ^ 56 != n }

/-- The scrub of clusters that leave a context (R322): their scratchpads, the context's chip-scratchpad windows, its L2 lines, and its order-log
and spill registers (log entry 58). -/
def State.scrub (s : State) (cores : List Nat) (n : Nat) : State := (((s.scrubCores cores n).scrubCsp n).scrubL2 n).scrubRegs n

/-- RELEASE_COMPLETE (R320, R322): the released clusters hold nothing of the context; they are scrubbed and leave it. -/
def State.releaseComplete (s : State) (n : Nat) : State :=
  let x := s.ctx n
  let cores := maskCores x.releasing
  if x.state != .releasing || cores.any (fun c => s.coreHolds c n) then s
  else
    let left := s.ctxClusters n &&& ~~~ x.releasing
    let s := s.scrub cores n
    let s := (s.setReg (.ctxCluLo n) (left.truncate 64)).setReg (.ctxCluHi n) (BitVec.ofNat 64 (left.toNat / 2 ^ 64))
    s.setCtx n { x with state := .opened, releasing := 0, lag := x.lag.filter fun (c, _) => !cores.contains c }

/-- RELEASE_COMPLETE. -/
def execReleaseComplete (s : State) : Host.Outcome State Fault Refusal := .next (s.releaseComplete s.arg.ctx)

/-- Whether nothing of a closing context is under way: kernels, launches, groups, accesses, records on their way, copy lists (R320). -/
def State.ctxDrained (s : State) (n : Nat) : Bool :=
  s.kernels.all (fun (_, k) => k.launch.ctx != n) && s.launches.all (fun l => l.ctx != n)
    && s.ops.all (fun o => o.ctx != n) && s.spawns.all (fun m => m.ctx != n)
    && s.cores.all fun (c, x) => !s.coreHolds c n && x.lists.all (fun l => l.ctx != n) && x.cmds.all fun d => d.ctx != n

/-- CONTEXT_DRAINED (R212, R320): waiter entries are deleted, registered lines are ordinary memory again, leases end, descriptor-cache
entries are dropped; what its queues had started is over. -/
def State.contextDrained (s : State) (n : Nat) : State :=
  if (s.ctx n).state == .closing && s.ctxDrained n then
    let s := { s with
      waits := s.waits.filter fun w => w.ctx != n
      lines := s.lines.filter fun l => l.ctx != n
      leases := s.leases.filter fun e => e.ctx != n
      leaseReqs := s.leaseReqs.filter fun q => q.ctx != n
      graphs := s.graphs.filter fun g => g.ctx != n
      queues := s.queues.map fun (q, x) => (q, Queue.forget x n)
      cores := s.cores.map fun (c, x) => (c, CoreState.dropDescs x n) }
    s.setCtx n { s.ctx n with state := .scrubbing }
  else s

/-- CONTEXT_DRAINED. -/
def execContextDrained (s : State) : Host.Outcome State Fault Refusal := .next (s.contextDrained s.arg.ctx)

/-- SCRUB_COMPLETE (R322): the context becomes FREE, scrubbed; what its frames hold belongs to no context from now on. -/
def State.scrubComplete (s : State) (n : Nat) : State :=
  if (s.ctx n).state == .scrubbing then
    let s := s.scrub (maskCores (s.ctxClusters n)) n
    { s with
      pages := s.pages.filter fun (k, _) => k / 2 ^ 56 != n
      ptCache := s.ptCache.filter fun (k, _) => k / 2 ^ 60 != n
      logSeq := s.logSeq.filter fun (k, _) => k % 64 != n
      owners := s.owners.map fun (a, k, m) => (a, k, if m = n then 64 else m)
      ordMode := Bank.drop s.ordMode n
      pending := s.pending.filter fun p => p.ctx != n
      saves := s.saves.filter fun b => b.ctx != n
      contexts := Bank.drop s.contexts n }
  else s

/-- SCRUB_COMPLETE. -/
def execScrubComplete (s : State) : Host.Outcome State Fault Refusal := .next (s.scrubComplete s.arg.ctx)

/-! ## The semaphore of the host ports (R323) -/

/-- Ten seconds of real time (R6, R323). -/
def tenSeconds : Nat := 10000000 * realMicro

/-- The port that holds SEM_OWNER; none when it is free, or once its ownership has lapsed. -/
def State.semHolder (s : State) : Option Nat :=
  if s.fld .semOwner 0 0 = 1 ∧ s.real < s.semBeat + tenSeconds then some (s.fld .semOwner 1 1) else none

/-- A host read through a port returns a value. -/
def State.hostReads (s : State) (port : Nat) (v : DWord) : State := { s with hostData := Bank.put s.hostData port v }

/-- SEM_ACQUIRE (R323): a read of SEM_OWNER takes or renews the semaphore, or finds it BUSY. -/
def State.semAcquire (s : State) (port : Nat) : State :=
  let rest := s.reg .semOwner &&& 4
  match s.semHolder with
  | some p =>
    if p = port then ({ s with semBeat := s.real }).hostReads port (rest ||| BitVec.ofNat 64 (2 * port))
    else s.hostReads port (rest ||| 1 ||| BitVec.ofNat 64 (2 * p))
  | none =>
    ({ s with semBeat := s.real }.setReg .semOwner (rest ||| 1 ||| BitVec.ofNat 64 (2 * port))).hostReads port
      (rest ||| BitVec.ofNat 64 (2 * port))

/-- SEM_ACQUIRE: a read of port 0 first where both ports read in one cycle. -/
def execSemAcquire (s : State) : Host.Outcome State Fault Refusal :=
  s.hostTurn .semAcquire fun s => s.semAcquire (s.arg.port % 2)

/-- SEM_RELEASE (R323, R411): the owner writes 0; from the other port the write releases nothing. A one in DENIED clears it. -/
def State.semRelease (s : State) (port : Nat) (v : DWord) : State :=
  let s := if v.getLsbD 2 then s.setFld .semOwner 2 2 0 else s
  if s.semHolder = some port ∧ v.getLsbD 0 = false then s.setFld .semOwner 0 0 0 else s

/-- SEM_RELEASE. -/
def execSemRelease (s : State) : Host.Outcome State Fault Refusal :=
  s.hostTurn .semRelease fun s => s.semRelease (s.arg.port % 2) s.arg.v

/-- SEM_LAPSE (R323): ten seconds have passed since the last heartbeat. -/
def execSemLapse (s : State) : Host.Outcome State Fault Refusal :=
  .next (if s.fld .semOwner 0 0 = 1 ∧ s.semBeat + tenSeconds ≤ s.real then s.setFld .semOwner 0 0 0 else s)

/-! ## SPAD_SPLIT and CTX_FQ_HEAD (R169, R325) -/

/-- SPAD_SPLIT_WRITE (R169): accepted only while every slot of the core is FREE and the sizes fit. -/
def State.spadSplitWrite (s : State) (c : Nat) (v : DWord) : State :=
  if (s.core c).slots.all (fun (_, x) => x.state == .free) && splitFits v then
    s.setReg (.spadSplit c) (v &&& (Reg.spadSplit c).rwMask)
  else s

/-- SPAD_SPLIT_WRITE. -/
def execSpadSplitWrite (s : State) : Host.Outcome State Fault Refusal := .next (s.spadSplitWrite s.arg.core s.arg.v)

/-- CTX_FQ_HEAD_READ (R325): the read returns HEAD and LOST and clears LOST. -/
def execCtxFqHeadRead (s : State) : Host.Outcome State Fault Refusal :=
  s.hostTurn .ctxFqHeadRead fun s =>
    let r : Reg := .ctxFqHead s.arg.ctx
    (s.hostReads (s.arg.port % 2) (s.reg r)).setFld r 63 32 0

end Sys2Proof.Machine
end

