-- ==== Sys2Proof/Machine/PageEvents.lean ====
section
/-! DEFINITION. Page commands and the pages' own steps (R337 to R339, R343 to R345). -/
namespace Sys2Proof.Machine

/-! ## Commands (R343, R344) -/

/-- A command ends with a result: its completion is posted to the page ring (R344, R345). -/
def State.endCmd (s : State) (q : PageCmd) (ia result : Nat) (freed : DWord) : State :=
  { s with pageCmds := s.pageCmds.filter fun x => x.id != q.id }.postRing
    { ia := ia, tag := q.tag, freed := freed, ctx := q.ctx, kind := 4, result := result }

/-- Marks a command started. -/
def State.startCmd (s : State) (id : Nat) : State :=
  { s with pageCmds := s.pageCmds.map fun x => if x.id = id then { x with started := true } else x }

/-- The step of a command of a type (R343, R344): commands start in queue order, and one of a context that is not OPEN or RELEASING completes
with result 4, unless its page is MIGRATING already, which it then still completes. -/
def State.cmdStep (s : State) (id op : Nat) (eff : State → PageCmd → State) : State :=
  match s.pageCmds.find? fun q => q.id == id && q.op == op with
  | none => s
  | some q =>
    if !q.started && (s.pageCmds.takeWhile fun x => x.id != id).any (fun x => !x.started) then s
    else if !s.ctxOpen q.ctx then
      (if s.pages.any fun (x : Nat × Page) => x.2.cmd == some id && x.2.state == some .migrating then s
       else { s with pages := s.pages.map fun (x : Nat × Page) => (x.1, if x.2.cmd = some id then { x.2 with cmd := none } else x.2) }.endCmd q q.a.toNat 4 0)
    else eff (s.startCmd id) q

/-! ## What a command finds of a page -/

/-- Whether a copy, staging or MDLD command that has passed its checks still reads or writes a page (R339). -/
def State.referenced (s : State) (n : Nat) (l : Leaf) : Bool :=
  s.cores.any fun (c, x) => x.cmds.any fun d =>
    (s.piecesIn (State.cmdFind c (s.cmdSlot c d) d) (cmdRanges d.kind (d.segs.filter fun g => !g.landed))).any fun (m, ia) =>
      m == n && decide (l.base ≤ ia) && decide (ia < l.base + l.size)

/-- Whether a page holds a registered barrier line (R210, R339). -/
def State.holdsLine (s : State) (n : Nat) (l : Leaf) : Bool :=
  s.lines.any fun x => match x.target with
    | .global m ia _ => m == n && decide (l.base ≤ ia) && decide (ia < l.base + l.size)
    | _ => false

/-- Whether a page is RESIDENT or REPLICATED (R337). -/
def State.movable (s : State) (n : Nat) (l : Leaf) : Bool :=
  l.tier != 3 && ((s.page n l).state == none || (s.page n l).state == some .replicated)

/-- A page begins to migrate for a command (R337, R339). -/
def State.beginMigrate (s : State) (n : Nat) (l : Leaf) (id : Nat) : State :=
  s.setPage n l { s.page n l with state := some .migrating, cmd := some id }

/-- The new leaf that a migration writes: tier, port and frame of the command's second operand (R335, R344); an eviction's is of the second
tier. -/
def PageCmd.leaf (q : PageCmd) (e : DWord) : DWord :=
  let keep := e &&& ~~~ (regMask 6 4 ||| regMask 55 16)
  let b := if q.op = 2 then (q.b &&& regMask 55 16) ||| 16 else q.b &&& (regMask 6 4 ||| regMask 55 16)
  keep ||| b

/-- Whether a command's new frame can hold a page: a tier below 3, aligned, and within its tier (R335, R344; log entry 14). -/
def PageCmd.frameOk (q : PageCmd) (l : Leaf) : Bool :=
  let e := q.leaf l.entry
  bits e.toNat 5 4 != 3 && pteLeaf l.level (e ||| 3)

/-- PAGE_MIGRATE (R339, R344): result 4 for its operands, 1 for the page's state, 3 for a barrier line; it waits while the page is
referenced, or while an earlier command waits for it. -/
def State.pageMigrate (s : State) (id : Nat) : State :=
  s.cmdStep id 1 fun s q =>
    let ia := q.a.toNat
    match s.walk q.ctx ia with
    | (none, s) => s.endCmd q ia (if ia % 65536 = 0 ∧ q.frameOk { level := 0, base := ia, size := 65536, entry := 0, entryAddr := 0 } then 1 else 4) 0
    | (some l, s) =>
      let p := s.page q.ctx l
      let unmark (s : State) : State := if p.cmd = some id then s.setPage q.ctx l { p with cmd := none } else s
      if p.state = some .migrating ∧ p.cmd = some id then s
      else if ia % l.size ≠ 0 ∨ q.frameOk l = false then (unmark s).endCmd q ia 4 0
      else if s.movable q.ctx l = false then (unmark s).endCmd q ia 1 0
      else if s.holdsLine q.ctx l then (unmark s).endCmd q ia 3 0
      else if p.cmd.isSome ∧ p.cmd ≠ some id then s
      else if s.referenced q.ctx l then s.setPage q.ctx l { p with cmd := some id }
      else s.beginMigrate q.ctx l id

/-- PAGE_MIGRATE. -/
def execPageMigrate (s : State) : Host.Outcome State Fault Refusal := .next (s.pageMigrate s.arg.id)

/-- The page that an eviction on a die takes (R344): the least recently used of the context in the die's HBM. -/
def State.victim (s : State) (n die : Nat) : Option Leaf :=
  s.pageUse.findSome? fun (d, key) =>
    if d = die ∧ key / 2 ^ 56 = n then
      (match (s.walk n (key % 2 ^ 56)).1 with
        | some l =>
          let fits := l.base == key % 2 ^ 56 && l.tier == 0 && frameDie 0 l.frame == die
          if fits && s.movable n l && (s.page n l).cmd.isNone && !s.referenced n l && !s.holdsLine n l then some l else none
        | none => none)
    else none

/-- PAGE_EVICT (R344). -/
def State.pageEvict (s : State) (id : Nat) : State :=
  s.cmdStep id 2 fun s q =>
    if q.started then s
    else match s.victim q.ctx (bits q.a.toNat 2 0) with
      | none => s.endCmd q 0 (if bits q.b.toNat 15 0 = 0 then 2 else 4) 0
      | some l => if q.frameOk l && bits q.b.toNat 15 0 == 0 then s.beginMigrate q.ctx l id else s.endCmd q l.base 4 0

/-- PAGE_EVICT. -/
def execPageEvict (s : State) : Host.Outcome State Fault Refusal := .next (s.pageEvict s.arg.id)

/-! ## Draining (R337, R341) -/

/-- The mapped pages of a range of intermediate addresses. -/
def State.iaLeaves (s : State) (n : Nat) : Nat → Nat → Nat → List Leaf
  | 0, _, _ => []
  | fuel + 1, ia, stop =>
    if stop ≤ ia then []
    else match (s.walk n ia).1 with
      | none => s.iaLeaves n fuel (ia / 65536 * 65536 + 65536) stop
      | some l => l :: s.iaLeaves n fuel (l.base + l.size) stop

/-- The mapped pages that a command's range touches. -/
def State.cmdLeaves (s : State) (q : PageCmd) : List Leaf :=
  s.iaLeaves q.ctx (q.b.toNat / 65536 + 2) q.a.toNat (q.a.toNat + q.b.toNat)

/-- A page enters DRAINING (R337): from now on no lease on it is renewed, and each lapses a period after its last renewal (R340, R341). -/
def State.beginDrain (s : State) (n : Nat) (l : Leaf) (p : Page) : State :=
  s.setPage n l { p with
    state := some .draining, drainNext := false
    lapses := (s.leases.filter fun e => e.covers n l).map fun e => (e.id, s.renewedBefore e + s.leasePeriod e.ctx) }

/-- A page whose migration or collapse is over (R337): RESIDENT, or DRAINING where an unmap has covered it; what waited for it goes on (R325,
R412). -/
def State.endMove (s : State) (n : Nat) (l : Leaf) (p : Page) : State :=
  (if p.drainNext then s.beginDrain n l { p with replicas := [] } else s.setPage n l { p with state := none, replicas := [] }).flushHeld n

/-- A page that an unmap covers (R337): it drains, or drains once it has migrated or collapsed. -/
def State.drain (s : State) (n : Nat) (l : Leaf) : State :=
  let p := s.page n l
  match p.state with
  | some .draining => s
  | some .migrating => s.setPage n l { p with drainNext := true }
  | some .collapsing => s.setPage n l { p with drainNext := true }
  | _ => s.beginDrain n l p

/-- PAGE_UNMAP (R344): the covered pages drain; the command ends once each is UNMAPPED. -/
def State.pageUnmap (s : State) (id : Nat) : State :=
  s.cmdStep id 3 fun s q =>
    let ls := s.cmdLeaves q
    let cut (l : Leaf) : Bool := decide (l.base < q.a.toNat) || decide (q.a.toNat + q.b.toNat < l.base + l.size)
    if q.a.toNat % 65536 ≠ 0 ∨ q.b.toNat % 65536 ≠ 0 ∨ (!q.started && ls.any cut) then s.endCmd q q.a.toNat 4 0
    else if ls.isEmpty then s.endCmd q q.a.toNat 0 0
    else if q.started then s
    else (ls.foldl (fun s l => s.drain q.ctx l) s).flushHeld q.ctx

/-- PAGE_UNMAP. -/
def execPageUnmap (s : State) : Host.Outcome State Fault Refusal := .next (s.pageUnmap s.arg.id)

/-- The bytes of a page that stand in the L2 are written to its frame, and its lines are invalid. -/
def State.writeBackPage (s : State) (n : Nat) (l : Leaf) : State :=
  s.writeBack n fun ia => decide (l.base ≤ ia) && decide (ia < l.base + l.size)

/-- DRAIN_DONE (R337): every lease on a DRAINING page has lapsed and nothing refers to it; it is UNMAPPED, and an unmap that covers no mapped
page any more ends. -/
def State.drainDone (s : State) (n ia : Nat) : State :=
  match s.walk n ia with
  | (none, s) => s
  | (some l, s) =>
    if (s.page n l).state == some .draining && s.allLapsed n l && !s.referenced n l then
      let s := ((s.writeBackPage n l).pteWrite n l (l.entry &&& ~~~ 1)).setPage n l { size := l.size }
      let s := { s with pageUse := s.pageUse.filter fun (_, k) => k != pageKey n l.base }
      s.pageCmds.foldl (fun s q =>
        if q.op = 3 ∧ q.started ∧ q.ctx = n ∧ (s.cmdLeaves q).isEmpty then s.endCmd q q.a.toNat 0 0 else s) s
    else s

/-- DRAIN_DONE. -/
def execDrainDone (s : State) : Host.Outcome State Fault Refusal := .next (s.drainDone s.arg.ctx s.arg.ia)

/-! ## Sync and spans (R336, R344) -/

/-- PAGE_SYNC (R336, R337, R344): every cached entry of the range is read again, and requested pages that have come are RESIDENT. -/
def State.pageSync (s : State) (id : Nat) : State :=
  s.cmdStep id 4 fun s q =>
    let lo := q.a.toNat
    let hi := lo + q.b.toNat
    let touches (k : Nat) : Bool :=
      let level := k / 2 ^ 57 % 8
      let size := 2 ^ levelShift level
      let base := k % 2 ^ 57 * size
      decide (lo < hi) && k / 2 ^ 60 == q.ctx && decide (base < hi) && decide (lo < base + size)
    let s := { s with ptCache := s.ptCache.filter fun (k, _) => !touches k }
    let asked := s.pages.filter fun (k, p) => decide (lo < hi) && k / 2 ^ 56 == q.ctx && p.state == some .requested
      && decide (k % 2 ^ 56 < hi) && decide (lo < k % 2 ^ 56 + p.size)
    let came (k : Nat) : Bool := match (s.walk q.ctx (k % 2 ^ 56)).1 with
      | some l => l.tier != 3
      | none => true
    let s := { s with pages := s.pages.filter fun (k, _) => !(asked.any fun (j, _) => j == k && came k) }
    (s.flushHeld q.ctx).endCmd q lo 0 0

/-- PAGE_SYNC. -/
def execPageSync (s : State) : Host.Outcome State Fault Refusal := .next (s.pageSync s.arg.id)

/-- SPANS_COMMAND (R330, R344): the context's table is the registers' from now on; each of its cores keeps the one it held until the table has
come to it, in a step that names it, and the command ends once every core has. -/
def State.spansCommand (s : State) (id core : Nat) : State :=
  s.cmdStep id 5 fun s q =>
    let x := s.ctx q.ctx
    if q.started then
      let s := s.setCtx q.ctx { x with lag := Bank.drop x.lag core }
      if (s.ctx q.ctx).lag.isEmpty then s.endCmd q 0 0 0 else s
    else
      let lag := (maskCores (s.ctxClusters q.ctx)).map fun c => (c, s.coreSpans c q.ctx)
      let s := s.setCtx q.ctx { x with spans := s.spanTable q.ctx, lag := lag }
      if lag.isEmpty then s.endCmd q 0 0 0 else s

/-- SPANS_COMMAND. -/
def execSpansCommand (s : State) : Host.Outcome State Fault Refusal := .next (s.spansCommand s.arg.id s.arg.core)

/-! ## Collapse and migration (R337 to R339) -/

/-- The entry of a page that has collapsed (R337): CNT rises, and RM ends when it reaches 4. -/
def Leaf.collapsed (l : Leaf) : DWord :=
  let cnt := min 15 (l.cnt + 1)
  let e := (l.entry &&& ~~~ regMask 59 56) ||| BitVec.ofNat 64 (cnt * 2 ^ 56)
  if 4 ≤ cnt then e &&& ~~~ 4 else e

/-- COLLAPSE_COMPLETE (R337, R338): every replica is invalid. A page that drains goes on draining (log entry 113). -/
def State.collapseComplete (s : State) (n ia : Nat) : State :=
  match s.walk n ia with
  | (none, s) => s
  | (some l, s) =>
    let p := s.page n l
    if p.state == some .collapsing then (s.pteWrite n l l.collapsed).endMove n l p
    else if p.state == some .draining && p.collapse then (s.pteWrite n l l.collapsed).setPage n l { p with replicas := [], collapse := false }
    else s

/-- COLLAPSE_COMPLETE. -/
def execCollapseComplete (s : State) : Host.Outcome State Fault Refusal := .next (s.collapseComplete s.arg.ctx s.arg.ia)

/-- The cells of memory at one place also at another, in place of what stood there. -/
def Memory.copyTo (m : Memory) (src dst size : Nat) : Memory :=
  let part := m.filter fun (a, _) => decide (src ≤ a) && decide (a < src + size)
  part.foldl (fun m (a, v) => Memory.setByte m (dst + (a - src)) v) (Memory.clear m dst size)

/-- What is kept by location moves with the bytes of a page (R192): releases, bytes not seen yet, places in the order log's sequences. -/
def State.rekey (s : State) (src dst size : Nat) : State :=
  let at' (a : Nat) : Nat := if src ≤ a ∧ a < src + size then a - src + dst else a
  { s with
    releases := Bank.rekey at' s.releases
    logSeq := Bank.rekey (fun a => a % 64 + 64 * (at' (a / 64 * 128) / 128)) s.logSeq
    cores := s.cores.map fun (c, x) => (c, { x with
      slots := x.slots.map fun (k, y) => (k, { y with group := { y.group with unseen := Bank.rekey at' y.group.unseen } })
      saved := x.saved.map fun v => { v with group := { v.group with unseen := Bank.rekey at' v.group.unseen } } }) }

/-- MIGRATION_DONE (R337, R339, R344): dirty lines are written back, the frame is copied, and the entry names the new one. -/
def State.migrationDone (s : State) (n ia : Nat) : State :=
  match s.walk n ia with
  | (none, s) => s
  | (some l, s) =>
    let p := s.page n l
    match s.pageCmds.find? fun q => p.cmd == some q.id with
    | none => s
    | some q =>
      if p.state == some .migrating then
        let e := q.leaf l.entry
        let l' := { l with entry := e }
        let s := (s.writeBackPage n l).claimPage n l'
        let s := { s with mem := Memory.copyTo s.mem (l.cell l.base) (l'.cell l.base) l.size }
        let s := ((s.rekey (l.cell l.base) (l'.cell l.base) l.size).pteWrite n l e).endMove n l { p with cmd := none }
        s.endCmd q l.base 0 (if q.op = 2 then BitVec.ofNat 64 l.frame else 0)
      else s

/-- MIGRATION_DONE. -/
def execMigrationDone (s : State) : Host.Outcome State Fault Refusal := .next (s.migrationDone s.arg.ctx s.arg.ia)

end Sys2Proof.Machine
end

