-- ==== Sys2Proof/Machine/LinkEvents.lean ====
section
/-! DEFINITION. Links and routers (R347 to R360), accesses of peer parts (R359, R360), host accesses through the apertures (R206, R362), and
uncorrectable errors (R366). Links are numbered (log entry 34): 0 to 47 the scale-up ports; 48 and 49 CXL ports 0 and 1; 50 + 5·r + e the link of router r = x + 24·(y +
8·z) in direction e, where e is 0 for +X, 1 for +Y, 2 for the vertical one, 3 and 4 for Halyard's +X and +Y. -/
namespace Sys2Proof.Machine

/-! ## Links (R348, R360) -/

/-- A link, DOWN until it has trained (R348). -/
def State.link (s : State) (n : Nat) : Link := Bank.lookD s.links n {}
/-- Whether the part has a link of a number (R347): a scale-up or CXL port, or a router's link to a neighbour it has. -/
def linkReal (n : Nat) : Bool :=
  let r := (n - 50) / 5
  let x := r % 24
  let y := r / 24 % 8
  decide (n < 50) || (decide (50 ≤ n) && decide (r < 384) && (match (n - 50) % 5 with
    | 0 => x != 23
    | 1 => y != 7
    | 2 => decide (r < 192)
    | 3 => decide (r < 192) && x != 23
    | _ => decide (r < 192) && y != 7))
/-- Gives a link a value. -/
def State.setLink (s : State) (n : Nat) (x : Link) : State := { s with links := Bank.put s.links n x }
/-- The die of a link's registers: the port's die, or that of the link's router. -/
def linkDie (n : Nat) : Nat :=
  if n < 48 then n / 6
  else if n < 50 then 7 * (n - 48)
  else
    let r := (n - 50) / 5
    r % 24 / 6 + 4 * (r / 24 % 8 / 4)

/-- Ends what is outstanding to a rank that no port reaches any more (R360): accesses, SPAWNRs and waits; copies still to be served. Where EN
ended the port, packets already started finish (R348): an access whose answer has come completes. -/
def State.rankDown (finish : Bool) (s : State) (r : Nat) : State :=
  let toRank (t : Target) : Bool := match t with | .peer q _ _ => q == r | _ => false
  let accs : List (MemOp × Nat × Access) := s.ops.flatMap fun o =>
    o.accs.zipIdx.filterMap fun (a, n) => if toRank a.target && !a.completed && !(finish && a.performed) then some (o, n, a) else none
  let s := accs.foldl (fun s (o, n, a) => s.homeFault o n a fcLinkDown) s
  let s := (s.spawns.filter fun m => m.rank == some r).foldl (fun s m => s.spawnFault m fcLinkDown) s
  let s := (s.waits.filter fun w => toRank w.target && (w.stage == .sent || w.stage == .refused)).foldl
    (fun s w => s.waitFault w fcLinkDown) s
  let cmds : List (Nat × CopyCmd) := s.cores.flatMap fun (c, x) => x.cmds.map fun d => (c, d)
  cmds.foldl (fun s (c, d) =>
    let mine (p : DWord) : Bool := ((State.cmdFind c (s.cmdSlot c d) d s p.toNat).map toRank).getD false
    match d.segs.find? fun g => !g.landed && (mine g.src || mine g.dst) with
    | some g => s.cmdFault c d (mine g.src) fcLinkDown (if mine g.src then g.src else g.dst)
    | none => s) s

/-- A scale-up port reaches DOWN (R358, R360): it is counted, and the ranks that no port reaches any more are lost. -/
def State.portDown (s : State) (p : Nat) (finish : Bool) : State :=
  let before := (List.range 256).filter fun r => (s.reg (.lnkRoute r)).getLsbD p
  let s := (s.setLink p { state := .down }).bump (.portStat (p / 6) (p % 6)) 47 32 1
  (before.filter fun r => (s.rankPorts r).isEmpty && r != s.fld .lnkDom 7 0).foldl (State.rankDown finish) s

/-- A link of the package reaches DOWN (R348): an UNCORRECTABLE record of kind region, naming the link, to every open context. -/
def State.meshDown (s : State) (n : Nat) : State :=
  let s := s.setLink n { state := .down }
  ((List.range 64).filter fun c => s.ctxOpen c).foldl (fun s c =>
    s.regionFault c { code := fcUncorrectable, kind := 3, addr := BitVec.ofNat 64 n }) s

/-- A link fails (R348, R360): a scale-up port, a CXL link, or one of the package. -/
def State.linkLost (s : State) (n : Nat) : State :=
  if n < 48 then s.portDown n false else if n < 50 then s.setLink n { state := .down } else s.meshDown n

/-- LINK_TRAIN_START (R348, R358): reset ends, or EN is written 1; a one in TRAIN clears it. A link of the package that has failed trains no
more before the part is reset. -/
def State.trainStart (s : State) (n : Nat) (v : DWord) : State :=
  let s := if n < 48 then
      let s := s.setFld (.portCtl (n / 6) (n % 6)) 0 0 1
      if v.getLsbD 4 then s.setFld (.portCtl (n / 6) (n % 6)) 4 4 0 else s
    else s
  if linkReal n && (s.link n).state == .down && s.boot != .reset && (decide (n < 50) || (Bank.look s.links n).isNone) then s.setLink n { state := .training, since := s.time } else s

/-- LINK_TRAIN_START. -/
def execLinkTrainStart (s : State) : Host.Outcome State Fault Refusal := .next (s.trainStart s.arg.id s.arg.v)

/-- Ten milliseconds in router cycles (R6, R348). -/
def trainTime : Nat := 20000000

/-- LINK_TRAINED (R348). -/
def State.trained (s : State) (n : Nat) : State :=
  if (s.link n).state == .training && decide (s.time < (s.link n).since + trainTime) then s.setLink n { state := .up } else s

/-- LINK_TRAINED. -/
def execLinkTrained (s : State) : Host.Outcome State Fault Refusal := .next (s.trained s.arg.id)

/-- LINK_TRAIN_TIMEOUT (R348, R358). -/
def State.trainTimeout (s : State) (n : Nat) : State :=
  if (s.link n).state == .training && decide ((s.link n).since + trainTime ≤ s.time) then
    (if n < 48 then s.setFld (.portCtl (n / 6) (n % 6)) 4 4 1 else s).linkLost n
  else s

/-- LINK_TRAIN_TIMEOUT. -/
def execLinkTrainTimeout (s : State) : Host.Outcome State Fault Refusal := .next (s.trainTimeout s.arg.id)

/-- LINK_DISABLE (R348, R358): EN is written 0. -/
def State.linkDisable (s : State) (n : Nat) (v : DWord) : State :=
  if n < 48 then
    let s := s.setFld (.portCtl (n / 6) (n % 6)) 0 0 0
    let s := if v.getLsbD 4 then s.setFld (.portCtl (n / 6) (n % 6)) 4 4 0 else s
    if (s.link n).state == .up then s.portDown n true else s
  else s

/-- LINK_DISABLE. -/
def execLinkDisable (s : State) : Host.Outcome State Fault Refusal := .next (s.linkDisable s.arg.id s.arg.v)

/-- Counts the flits or beats that a link sends again: the bad one and those after it that its transmitter keeps, at most the 512 that a port
holds (R357), at most those that the 12-bit sequence numbers tell apart elsewhere (R348, R355, R358). No register counts those of CXL. -/
def State.countResend (s : State) (n k : Nat) : State :=
  if n < 48 then s.bump (.portStat (n / 6) (n % 6)) 15 0 (max 1 (min 512 k))
  else if n < 50 then s
  else s.bump (.nocStat (linkDie n)) 31 16 (max 1 (min 4096 k))

/-- The resends of one flit after which a link fails (R355); 0 reads as 1. -/
def State.retryMax (s : State) (n : Nat) : Nat := max 1 (s.fld (.nocCfg (linkDie n)) 47 40)

/-- BAD_FLIT (R348): the receiver of a link that is UP asks for a resend of k flits from the sequence number seq; in RETRY the resent flit is bad
again, and the link fails once RETRY_MAX resends of it have, or a later one is bad. With the flag a scale-up port's FEC corrects the codeword, which
is counted (R357, R358). -/
def State.badFlit (s : State) (n k seq : Nat) (corrected : Bool) : State :=
  let x := s.link n
  if corrected && decide (n < 48) then (if x.state == .up || x.state == .retry then s.bump (.portStat (n / 6) (n % 6)) 31 16 1 else s)
  else match x.state with
    | .up => (s.setLink n { x with state := .retry, bad := seq % 4096, resends := 1 }).countResend n k
    | .retry =>
      if x.bad ≠ seq % 4096 then (s.setLink n { x with bad := seq % 4096, resends := 1 }).countResend n k
      else if s.retryMax n ≤ x.resends then s.linkLost n
      else (s.setLink n { x with resends := x.resends + 1 }).countResend n k
    | _ => s

/-- BAD_FLIT. -/
def execBadFlit (s : State) : Host.Outcome State Fault Refusal := .next (s.badFlit s.arg.id s.arg.size s.arg.acc s.arg.flag)

/-- RETRY_DONE (R348): the resent flits arrive whole. -/
def execRetryDone (s : State) : Host.Outcome State Fault Refusal :=
  .next (if (s.link s.arg.id).state == .retry then s.setLink s.arg.id { state := .up } else s)

/-- RETRY_EXHAUSTED (R348, R355): RETRY_MAX resends of one flit have failed; 0 reads as 1. -/
def State.retryExhausted (s : State) (n : Nat) : State :=
  let x := s.link n
  if x.state == .retry && decide (s.retryMax n ≤ x.resends) then s.linkLost n else s

/-- RETRY_EXHAUSTED. -/
def execRetryExhausted (s : State) : Host.Outcome State Fault Refusal := .next (s.retryExhausted s.arg.id)

/-! ## Routers (R350 to R356) -/

/-- A router's place from its number. -/
def routerOf (n : Nat) : Router := { x := n % 24, y := n / 24 % 8, z := n / 192 % 2 }
/-- The number of a router. -/
def Router.num (r : Router) : Nat := r.x + 24 * (r.y + 8 * r.z)
/-- The die of a router (R12). -/
def Router.die (r : Router) : Nat := r.x / 6 + 4 * (r.y / 4)
/-- A router's power and outputs. -/
def State.router (s : State) (r : Router) : RouterRt := Bank.lookD s.routers r.num {}
/-- Gives a router's power and outputs a value. -/
def State.setRouter (s : State) (r : Router) (x : RouterRt) : State := { s with routers := Bank.put s.routers r.num x }

/-- One step from a coordinate towards another. -/
def towards (a b : Nat) : Nat := if a < b then a + 1 else a - 1

/-- The next router of a packet in dimension order (R352): X, then Y, then the vertical link; with the output (0 −X, 1 +X, 2 −Y, 3 +Y, 4
vertical) and the link crossed. -/
def nextHop (r g : Router) : Option (Router × Nat × Nat) :=
  if r.x ≠ g.x then
    let n : Router := { r with x := towards r.x g.x }
    some (n, if r.x < g.x then 1 else 0, 50 + 5 * (if r.x < g.x then r else n).num)
  else if r.y ≠ g.y then
    let n : Router := { r with y := towards r.y g.y }
    some (n, if r.y < g.y then 3 else 2, 50 + 5 * (if r.y < g.y then r else n).num + 1)
  else if r.z ≠ g.z then some ({ r with z := g.z }, 4, 50 + 5 * ({ r with z := 0 } : Router).num + 2)
  else none

/-- The access whose packet a step moves, with its next hop: a packet that has been merged into another does not move by itself. -/
def State.hopAt (s : State) (id n : Nat) : Option (MemOp × Access × Router × Nat × Nat) :=
  match s.opAt id n with
  | some (o, a) => if a.performed || a.carrier.isSome then none else (nextHop a.place a.goal).map fun h => (o, a, h)
  | none => none

/-- The data bytes of an access's request packet (R349): those of a store, and the operands of an atomic. -/
def MemOp.payload (o : MemOp) (a : Access) : Nat :=
  match o.kind with
  | .store | .atom _ | .amon _ | .det | .xch => a.size
  | .cas => 2 * a.size
  | _ => 0

/-- The VC that sends next at an output of a plane, among those that wait, and how many packets it has then sent in its turn (R354): a promoted
one, the lowest number first; else by weighted turns; one of weight 0 only where no other waits. -/
def nextVc (w : Nat → Nat) (waiting promoted : List Nat) (cur sent : Nat) : Nat × Nat :=
  let after := [cur + 1, cur + 2, cur + 3, cur + 4].map (· % 4)
  let can (v : Nat) : Bool := waiting.contains v && w v != 0
  match (List.range 4).find? fun v => waiting.contains v && promoted.contains v with
  | some v => (v, if v = cur then sent + 1 else 1)
  | none =>
    if can cur && decide (sent < w cur) then (cur, sent + 1)
    else match after.find? can with
      | some v => (v, 1)
      | none => ((after.find? waiting.contains).getD cur, 1)

/-- The weight of a VC at the routers of a die (R355). -/
def State.vcWeight (s : State) (die v : Nat) : Nat := s.fld (.nocCfg die) (11 + 4 * v) (8 + 4 * v)

/-- An output of a plane has carried a packet of a VC for a number of cycles (R354): the VC's age returns to 0, its promotion ends, and the
others that wait age. key is 16·output + 4·plane. -/
def RouterRt.carried (x : RouterRt) (key v flits sent : Nat) (waiting : List Nat) : RouterRt :=
  { x with
    ages := (waiting.filter (· ≠ v)).foldl (fun b u => Bank.alter b (key + u) 0 (· + flits)) (Bank.drop x.ages (key + v))
    promoted := x.promoted.filter (· ≠ key + v)
    turns := Bank.put x.turns (key / 4) (v, sent) }

/-- Whether a packet comes first among those of its source to its destination on its plane that stand at its router, in the order in which
they were sent (R352). -/
def State.firstSent (s : State) (o : MemOp) (a : Access) : Bool :=
  a.sent == 0 || s.ops.all fun p => p.core != o.core || p.accs.all fun b =>
    b.performed || b.carrier.isSome || b.place != a.place || b.goal != a.goal || planeOf b.target b.goal != planeOf a.target a.goal
      || b.sent == 0 || decide (a.sent ≤ b.sent)

/-- A flit reaches a router that is ON (R356): one that comes in the cycle of the power-down decision wins, and the hold is 256 cycles. -/
def State.flitMeets (s : State) (r : Router) : State :=
  let x := s.router r
  let idle := s.fld (.nocCfg r.die) 39 24
  s.setRouter r { x with hold := if idle ≠ 0 ∧ x.idleFrom + idle ≤ s.time ∧ x.hold ≤ s.time then s.time + 256 else x.hold, idleFrom := s.time }

/-- An output of a router at key 16·output + 4·plane arbitrates among the VCs that wait there (R354): the VC that sends, how many packets it has
then sent in its turn; none while a VC whose age has reached AGE_MAX is still to be promoted. -/
def State.arbitrate (s : State) (r : Router) (key : Nat) (waiting : List Nat) : Option (Nat × Nat) :=
  let x := s.router r
  let due (v : Nat) : Bool := decide (s.fld (.nocCfg r.die) 7 0 ≤ Bank.lookD x.ages (key + v) 0) && !x.promoted.contains (key + v)
  let promoted := [0, 1, 2, 3].filter fun v => x.promoted.contains (key + v)
  let (cur, sent) := Bank.lookD x.turns (key / 4) (3, 0)
  if waiting.isEmpty || waiting.any due then none else some (nextVc (s.vcWeight r.die) waiting promoted cur sent)

/-- The router that an output leads to (R347, R352: 0 −X, 1 +X, 2 −Y, 3 +Y, 4 vertical), with the link. -/
def outputTo (r : Router) (out : Nat) : Option (Router × Nat) :=
  let goal : Option Router := match out with
    | 0 => if r.x = 0 then none else some { r with x := r.x - 1 }
    | 1 => if 23 ≤ r.x then none else some { r with x := r.x + 1 }
    | 2 => if r.y = 0 then none else some { r with y := r.y - 1 }
    | 3 => if 7 ≤ r.y then none else some { r with y := r.y + 1 }
    | 4 => some { r with z := 1 - r.z }
    | _ => none
  (goal.bind (nextHop r)).map fun h => (h.1, h.2.2)

/-- An output at which no request packet of VC0 waits carries a packet of VC1 to VC3 (R354, R356): others says which of them wait there, and theirs
has flits flits (log entry 62). -/
def State.outputTurn (s : State) (r : Router) (key others flits : Nat) : State :=
  match outputTo r (key / 16) with
  | none => s
  | some (next, l) =>
    let waiting := [1, 2, 3].filter fun v => bit others v
    let x := s.router r
    if x.power ≠ 0 ∨ (s.router next).power ≠ 0 ∨ (s.link l).state ≠ .up then s
    else match s.arbitrate r key waiting with
      | none => s
      | some (v, k) =>
        (s.setRouter r { x.carried key v (max 1 (min 5 flits)) k waiting with idleFrom := s.time }).flitMeets next

/-- ROUTER_FORWARD (R18, R200, R349 to R354, R356): an output of a plane, where a request packet waits, carries the packet of the VC that the
arbitration picks. others says which of VC1 to VC3 wait there as well (bit v), and theirs has flits flits; their packets are not followed (log
entry 62). The request packet crosses the link once both routers are ON and the link is UP. A VC whose age has reached AGE_MAX is promoted
first. A packet that its agent still holds, or that is behind another, does not wait at the output (R200, R352). -/
def State.routerForward (s : State) (id n others flits : Nat) : State :=
  match s.hopAt id n with
  | none => s
  | some (o, a, r, out, l) =>
    let x := s.router a.place
    let key := 16 * out + 4 * planeOf a.target a.goal
    let goes := s.mayLeave o a && s.firstSent o a
    let waiting := (if goes then [0] else []) ++ [1, 2, 3].filter fun v => bit others v
    if x.power ≠ 0 ∨ (s.router r).power ≠ 0 ∨ (s.link l).state ≠ .up then s
    else match s.arbitrate a.place key waiting with
      | none => s
      | some (0, k) =>
        let (stamp, s) := if a.sent = 0 then s.fresh else (a.sent, s)
        let s := s.setRouter a.place { x.carried key 0 (meshFlits (o.payload a)) k waiting with idleFrom := s.time }
        (s.flitMeets r).onAccess id n fun y => { y with place := r, sent := stamp }
      | some (v, k) => (s.setRouter a.place { x.carried key v (max 1 (min 5 flits)) k waiting with idleFrom := s.time }).flitMeets r

/-- ROUTER_FORWARD: of a request packet, or, where the turn names none, of output and plane slot of router id. -/
def execRouterForward (s : State) : Host.Outcome State Fault Refusal :=
  .next (if (s.hopAt s.arg.op s.arg.acc).isSome then s.routerForward s.arg.op s.arg.acc s.arg.code s.arg.size
         else s.outputTurn (routerOf (s.arg.id % 384)) (4 * (s.arg.slot % 20)) s.arg.code s.arg.size)

/-- VC_PROMOTE (R354, R355): a VC's age at an output of a router has reached AGE_MAX; code is 16·output + 4·plane + VC. -/
def State.vcPromote (s : State) (n key : Nat) : State :=
  let r := routerOf n
  let x := s.router r
  if s.fld (.nocCfg r.die) 7 0 ≤ Bank.lookD x.ages key 0 ∧ x.promoted.contains key = false then
    (s.setRouter r { x with promoted := x.promoted ++ [key] }).bump (.nocStat r.die) 15 0 1
  else s

/-- VC_PROMOTE. -/
def execVcPromote (s : State) : Host.Outcome State Fault Refusal := .next (s.vcPromote s.arg.id s.arg.code)

/-- Whether a packet waits at a router or is about to enter it (R356). -/
def State.routerWanted (s : State) (r : Router) : Bool :=
  s.ops.any fun o => o.accs.any fun a => !a.performed && a.place != a.goal
    && (a.place == r || ((nextHop a.place a.goal).map fun h => h.1 == r).getD false)

/-- ROUTER_POWER_DOWN (R355, R356): IDLE router cycles without a flit or wake, and the hold is over. -/
def State.routerPowerDown (s : State) (n : Nat) : State :=
  let r := routerOf n
  let x := s.router r
  let idle := s.fld (.nocCfg r.die) 39 24
  if x.power = 0 ∧ idle ≠ 0 ∧ x.idleFrom + idle ≤ s.time ∧ x.hold ≤ s.time ∧ s.routerWanted r = false then
    (s.setRouter r { x with power := 1 }).bump (.nocStat r.die) 47 32 1
  else s

/-- ROUTER_POWER_DOWN. -/
def execRouterPowerDown (s : State) : Host.Outcome State Fault Refusal := .next (s.routerPowerDown s.arg.id)

/-- ROUTER_WAKE (R356): the wake of a packet on its way there reaches a router; one that is ON stays so, and holds where it was to power down
in this very cycle. other says that the packet is one that the model does not follow (log entry 62). -/
def State.routerWake (s : State) (n : Nat) (other : Bool) : State :=
  let r := routerOf n
  let x := s.router r
  if (s.routerWanted r || other) = false then s
  else match x.power with
    | 1 => s.setRouter r { x with power := 2, hold := s.time + 32 }
    | 0 => s.flitMeets r
    | _ => s

/-- ROUTER_WAKE. -/
def execRouterWake (s : State) : Host.Outcome State Fault Refusal := .next (s.routerWake s.arg.id s.arg.flag)

/-- ROUTER_WAKE_DONE (R356): 32 router cycles have passed. -/
def State.routerWakeDone (s : State) (n : Nat) : State :=
  let r := routerOf n
  let x := s.router r
  if x.power = 2 ∧ x.hold ≤ s.time then s.setRouter r { x with power := 0, hold := s.time + 256, idleFrom := s.time } else s

/-- ROUTER_WAKE_DONE. -/
def execRouterWakeDone (s : State) : Host.Outcome State Fault Refusal := .next (s.routerWakeDone s.arg.id)

/-! ## Accesses of peer parts (R210, R359, R360) -/

/-- The atomic that a peer's access asks for: from 16 on the operations of R219 that return, from 24 on those that do not, 32 an exchange, 33 a
compare and swap; else a load (0) or a store (1). -/
def peerKind (code : Nat) : OpKind :=
  if code = 1 then .store else if code = 32 then .xch else if code = 33 then .cas
  else if 16 ≤ code ∧ code < 24 then .atom (code - 16) else if 24 ≤ code ∧ code < 32 then .amon (code - 24) else .load

/-- The words of a value after its first at their places in what a host or a peer reads. -/
def State.furtherWords (s : State) (at' v n : Nat) : State :=
  let b := (List.range ((n + 7) / 8 - 1)).foldl
    (fun b k => Bank.put b (at' + 1024 * (k + 1)) (BitVec.ofNat 64 (v / 2 ^ (64 * (k + 1))))) s.hostData
  { s with hostData := b }

/-- Whether a registered line keeps a plain write of a range from being performed (R213). -/
def State.protectsRange (s : State) (t : Target) (n : Nat) : Bool :=
  !s.lines.isEmpty && (List.range n).any fun j => s.protects (t.plus j) false

/-- A range as an agent's access meets it: both its ends' pages decide (R337, R341). -/
def State.rangeGate (s : State) (t : Target) (n : Nat) (task write : Bool) : Gate × State :=
  match s.gate t task write none with
  | (.go p, s) =>
    (match s.gate (t.plus (n - 1)) task write none with
      | (.go _, s) => (.go p, s)
      | r => r)
  | r => r

/-- The release of a peer's packet (R200, R359). -/
def StepArgs.peerRelease (a : StepArgs) : List Release := if a.flag then [{ agent := .peer a.id, scope := a.slot }] else []

/-- A peer's load, store or atomic at its home (R204, R213, R214, R359): the operand is v, that of a long store data; data is a compare's other
value. -/
def State.peerPerform (s : State) (a : StepArgs) (t : Target) (k : OpKind) : State :=
  let n := a.size
  let x := if 8 < n then a.data % 2 ^ (8 * n) else a.v.toNat % 2 ^ (8 * n)
  let rel := a.peerRelease
  let s := s.settleAt t n
  let (old, s) := s.readT t 0 n
  match k with
  | .load =>
    let s := if a.op2 = 1 then s.overtakes t n 1536 64 else s
    (s.furtherWords (256 + a.id) old n).peerReply a.id (BitVec.ofNat 64 old) 0
  | .store =>
    if s.protectsRange t n then (s.countProtect t).peerReply a.id 0 fcBarrierProtect
    else (s.storeAt t n x rel).peerReply a.id 0 0
  | _ =>
    let s := if a.op2 = 1 then s.overtakes t n 1536 64 else s
    if s.protects t (atomPermitted k n (s.loc t 0 % 128)) then (s.countProtect t).peerReply a.id 0 fcBarrierProtect
    else if (k = .atom 0 ∨ k = .amon 0) ∧ n = 8 then
      (s.addWord t x rel.head? { ctx := a.ctx }).2.peerReply a.id (BitVec.ofNat 64 old) 0
    else if k = .cas ∧ old ≠ a.data % 2 ^ (8 * n) then s.peerReply a.id (BitVec.ofNat 64 old) 0
    else
      let s := (s.writeT t 0 n (combine k n old x (a.data % 2 ^ (8 * n)))).joinChain t n rel.head?
      (s.wakeAt t n).2.peerReply a.id (BitVec.ofNat 64 old) 0

/-- A peer's deterministic add joins its location's pending set (R227, R359), under the key that its packet carries; a page of the spill area
that is not resident holds it. -/
def State.peerPending (s : State) (a : StepArgs) (t : Target) : State :=
  let home := s.homeOf t
  let here := s.sliceRoom a.ctx home
  if s.protects t false then ((s.tagged a.id a.op).countProtect t).peerReply a.id 0 fcBarrierProtect
  else match (if here then (.present, s) else s.spillReach home.1 a.ctx) with
  | (.absent, s) => s
  | (r, s) =>
    let p : Pending :=
      { target := t, size := a.size, task := a.task, lane := a.strand % 64, ordinal := a.data, ktag := 65536, ctx := a.ctx, operand := a.v.toNat
        die := home.1, slice := home.2, spilled := !here && r == .present }
    let s := { s.tagged a.id a.op with pending := s.pending ++ [p] }
    let s := s.joinChain t a.size a.peerRelease.head?
    let s := if !here && r != .present then (s.settleAt t a.size).bump (.barStat home.1) 47 32 1 else s
    s.peerReply a.id 0 0

/-- A peer's packet at its home on this part, once its page is there: 2 a wait for a word, 3 BINIT, 4 BDROP, 5 a deterministic add, the others
by peerKind. A peer's lines count against no region of this part (log entry 99). -/
def State.peerServe (s : State) (a : StepArgs) (t : Target) : State :=
  let done := s.tagged a.id a.op
  let answer (x : Nat × State) : State := x.2.peerReply a.id (BitVec.ofNat 64 x.1) 0
  match a.code with
  | 2 =>
    let (id, s) := done.fresh
    { s with waits := s.waits ++ [{ id := id, who := .peer a.id a.op, ctx := a.ctx, target := t, value := a.v.toNat, scope := a.slot, since := s.time }] }
  | 3 => answer (done.binitAt t a.v { agent := .peer a.id, scope := a.slot } { ctx := a.ctx } {})
  | 4 => answer (done.bdropAt t { ctx := a.ctx })
  | 5 => s.peerPending a t
  | k => done.peerPerform a t (peerKind k)

/-- Whether a peer's packet has a form that a part sends: whole words for atomics and waits, whole lines for BINIT and BDROP, at most the
largest packet otherwise (R349, R210). -/
def peerForm (a : StepArgs) : Bool :=
  match a.code with
  | 0 | 1 => decide (0 < a.size) && decide (a.size ≤ 256)
  | 2 => a.size == 8 && a.ia % 8 == 0
  | 3 | 4 => a.size == 128 && a.ia % 128 == 0
  | _ => (a.size == 4 || a.size == 8) && a.ia % a.size == 0

/-- PEER_ACCESS (R357, R359, R360): a packet from another rank, applied once for each end-to-end tag. One for a further rank goes on by this
part's route table, but for a fifth hop, which drops it. A context that is not OPEN answers PERMISSION, and a page that is not resident holds
the packet. -/
def State.peerAccess (s : State) (a : StepArgs) : State :=
  if s.tagKnown a.id a.op || !peerForm a then s
  else if a.rank ≠ s.fld .lnkDom 7 0 then
    (if 4 ≤ a.hops ∨ (s.rankPort a.rank (homeHash a.ia)).isNone = true then (s.tagged a.id a.op).peerReply a.id 0 fcLinkDown
     else s.tagged a.id a.op)
  else if (s.ctx a.ctx).state != .opened then (s.tagged a.id a.op).peerReply a.id 0 fcPermission
  else
    let t : Target := .global a.ctx (a.ia % 2 ^ 56) false
    match s.rangeGate t a.size true (a.code != 0 && a.code != 2) with
    | (.wait, s) => s
    | (.gone, s) => (s.tagged a.id a.op).peerReply a.id 0 fcLeaseExpired
    | (.go _, s) => s.peerServe a t

/-- PEER_ACCESS. -/
def execPeerAccess (s : State) : Host.Outcome State Fault Refusal := .next (s.peerAccess s.arg)

/-! ## Host accesses through the apertures (R206, R361, R362) -/

/-- The context and intermediate address that a BAR offset of a port names, if the access is not refused by the aperture or the
context's allocation (R362). -/
def State.aperture (s : State) (port off size : Nat) (write : Bool) : Option (Nat × Nat) :=
  let i := off / 2 ^ 36
  let o := off % 2 ^ 36
  let ctl : Reg := .aptCtl port i
  let n := s.fld ctl 37 32
  let ia := (s.reg (.aptIa port i)).toNat + o
  if i < 16 ∧ s.fld ctl 38 38 = 1 ∧ (write = false ∨ s.fld ctl 39 39 = 1) ∧ o + size ≤ 65536 * s.fld ctl 31 0
      ∧ s.ctxOpen n = true ∧ s.allocated n ia size = true then some (n, ia)
  else none

/-- A refused host access is counted (R362). -/
def State.hostRefused (s : State) (port : Nat) : State := s.bump (.lnyStat port) 31 0 1

/-- A host write at its home (R206, R213, R362), as a release of its port's Lanyard; a write to a registered line writes a BARRIER_PROTECT
record to the aperture's context. Answers false while its page is not resident. -/
def State.hostApply (s : State) (port off size v : Nat) : Bool × State :=
  match s.aperture port off size true with
  | none => (true, s.hostRefused port)
  | some (n, ia) =>
    let t : Target := .global n ia false
    match s.rangeGate t size false true with
    | (.wait, s) => (false, s)
    | (.gone, s) => (true, s.hostRefused port)
    | (.go _, s) =>
      match (List.range size).find? fun j => s.protects (t.plus j) false with
      | some j =>
        (true, (s.countProtect t).regionFault n
          { code := fcBarrierProtect, kind := 3, addr := BitVec.ofNat 64 ((ia + j) / 128 * 128) })
      | none => (true, (s.settleAt t size).storeAt t size (v % 2 ^ (8 * size)) [{ agent := .lanyard port, scope := 5 }])

/-- A port's accepted writes are applied in their order, up to the first that waits for its page (R206, R362). -/
def State.hostDrain (s : State) (port : Nat) : List (Nat × Nat × Nat) → State
  | [] => { s with hostQ := Bank.drop s.hostQ port }
  | (off, size, v) :: rest =>
    match s.hostApply port off size v with
    | (true, s) => s.hostDrain port rest
    | (false, s) => { s with hostQ := Bank.put s.hostQ port ((off, size, v) :: rest) }

/-- HOST_APERTURE_WRITE (R206, R362): the port accepts a write of up to a line, of size bytes; with size 0 it only goes on with those that
wait. -/
def State.hostWrite (s : State) (port off size v : Nat) (ide : Bool) : State :=
  if 128 < size ∨ portTakes port ide = false then s
  else
    let q := Bank.lookD s.hostQ port []
    s.hostDrain port (if size = 0 then q else q ++ [(off, size, v)])

/-- The value that a host's write carries: of up to eight bytes in v. -/
def StepArgs.hostValue (a : StepArgs) : Nat := if 8 < a.size then a.data else a.v.toNat

/-- HOST_APERTURE_WRITE. -/
def execHostApertureWrite (s : State) : Host.Outcome State Fault Refusal :=
  .next (s.hostWrite (s.arg.port % 2) s.arg.addr s.arg.size s.arg.hostValue s.arg.flag)

/-- Whether a read of a range waits for a write of its port that is accepted and not applied (R197). -/
def State.hostBehind (s : State) (port n ia size : Nat) : Bool :=
  (Bank.lookD s.hostQ port []).any fun (off, k, _) => match s.aperture port off k true with
    | some (m, ja) => m == n && rangesMeet ja k ia size
    | none => false

/-- HOST_APERTURE_READ (R362): a read of up to a line, an acquire at system scope, behind the port's own writes to the same bytes (R197); a
refused read returns all ones. -/
def State.hostRead (s : State) (port off size : Nat) (ide : Bool) : State :=
  let refuse (s : State) : State := ((s.hostRefused port).furtherWords port (2 ^ (8 * size) - 1) size).hostReads port (BitVec.allOnes 64)
  if size = 0 ∨ 128 < size ∨ portTakes port ide = false then s
  else match s.aperture port off size false with
    | none => refuse s
    | some (n, ia) =>
      let t : Target := .global n ia false
      if s.hostBehind port n ia size then s
      else match s.rangeGate t size false false with
      | (.wait, s) => s
      | (.gone, s) => refuse s
      | (.go _, s) =>
        let (v, s) := ((s.settleAt t size).overtakes t size 1536 64).readT t 0 size
        (s.furtherWords port v size).hostReads port (BitVec.ofNat 64 v)

/-- HOST_APERTURE_READ. -/
def execHostApertureRead (s : State) : Host.Outcome State Fault Refusal :=
  .next (s.hostRead (s.arg.port % 2) s.arg.addr s.arg.size s.arg.flag)

/-! ## Errors (R366) -/

/-- UNCORRECTABLE (R310, R366): code 0, an error that a group meets in its registers, or at the access that op and acc
name, whose instruction and lanes the record names; 1, one without a task, in a
context's memory; 2, one in a deque's record of kernel id. -/
def State.uncorrectable (s : State) (a : StepArgs) : State :=
  match a.code with
  | 0 =>
    let x := s.slot a.core a.slot
    if x.state = .active ∨ x.state = .frozen ∨ x.state = .saving ∨ x.state = .draining then
      let g := x.group
      let (n, pc, mask) := match s.opAt a.op a.acc with
        | some (o, y) => if o.core == a.core && o.uid == g.uid then (o.strand, o.pc, o.lanesOf y) else (a.strand, (g.strand a.strand).pc, 0)
        | none => (a.strand, (g.strand a.strand).pc, 0)
      let r := { s.groupRecord a.core a.slot n pc { code := fcUncorrectable, kind := 2, mask := mask, addr := a.v } with suppressed := g.faulted }
      let s := s.writeRecord g.task.ctx r
      let s := s.setGroup a.core a.slot { s.group a.core a.slot with faulted := true }
      (s.endTask a.core a.slot (.failed fcUncorrectable)).endDomain g.task.ktag
    else s
  | 1 => if s.ctxOpen a.ctx then s.regionFault a.ctx { code := fcUncorrectable, kind := 3, addr := BitVec.ofNat 64 a.ia } else s
  | _ =>
    match s.kernel a.id with
    | some k =>
      (s.regionFault k.launch.ctx { code := fcUncorrectable, kind := 3, core := a.core, region := k.launch.region, ktag := a.id }).endDomain a.id
    | none => s

/-- UNCORRECTABLE. -/
def execUncorrectable (s : State) : Host.Outcome State Fault Refusal := .next (s.uncorrectable s.arg)

end Sys2Proof.Machine
end

