-- ==== Sys2Proof/Machine/PartEvents.lean ====
section
/-! DEFINITION. The part (R402 to R409): boot, BIST, hand-over, attestation, command messages, Reef. -/
namespace Sys2Proof.Machine

/-! ## Control writes (R323) -/

/-- A control write takes effect only from the port that holds SEM_OWNER; another one sets DENIED (R323). -/
def State.control (s : State) (port : Nat) (eff : State → State) : State :=
  if s.semHolder = some port then eff s else s.setFld .semOwner 2 2 1

/-! ## Images (R403) -/

/-- The n bytes of the flash from cell a. -/
def flashBytes (m : Memory) (a n : Nat) : List Byte := (List.range n).map fun i => Memory.byte m (a + i)
/-- The bytes of a list from place a, n of them. -/
def part (l : List Byte) (a n : Nat) : List Byte := (l.drop a).take n
/-- Where Forestay lies in the flash, beyond the longest main image, which lies at 0 (R403, log entry 35). -/
def forestayBase : Nat := 2 ^ 45
/-- The bytes of an image whose header is given: its length in bytes (R403). -/
def imageSize (header : List Byte) : Nat :=
  8192 + 4096 * ((part header 12 4).foldr (fun b n => b.toNat + 256 * n) 0)
/-- Whether an image verifies (R403): the fused key digest, the signature over bytes 0 to 79, the body's digest. -/
def imageVerifies (b : List Byte) : Bool :=
  Config.shake256 (part b 80 1952) == Config.keyDigest () && Config.mldsaValid (part b 80 1952) (part b 2032 3309) (part b 0 80)
    && Config.shake256 (b.drop 8192) == part b 16 64
/-- The image at a place of the flash. -/
def State.flashImage (s : State) (base : Nat) : List Byte := flashBytes s.flash base (imageSize (flashBytes s.flash base 8192))
/-- The digest of an image, header and body (R403, R407). -/
def imageDigest (b : List Byte) : List Byte := Config.shake256 b
/-- Whether an image runs the part (R404): it has been loaded and the part is not HALTED. -/
def State.running (s : State) : Bool := s.boot == .bist || s.boot == .ready

/-! ## Boot (R404, R405) -/

/-- ROM (R404): the main image is loaded, or Forestay where the strap or FST asks for it or the main image fails; HALTED without either. -/
def State.romBoot (s : State) : State :=
  let main := s.flashImage 0
  let fore := s.flashImage forestayBase
  let load (b : List Byte) (n : Nat) : State := { s with boot := .bist, digest := imageDigest b }.setFld .fwStat 1 0 n
  if !s.strap && s.fld .fwCtl 1 1 == 0 && imageVerifies main then load main 1
  else if imageVerifies fore then load fore 2
  else { s with boot := .halted }

/-- POWER_GOOD (R404), with the strap FST_BOOT as it stands. -/
def State.powerGood (s : State) (strap : Bool) : State := if s.boot == .reset then { s with boot := .rom, strap := strap }.romBoot else s

/-- POWER_GOOD. -/
def execPowerGood (s : State) : Host.Outcome State Fault Refusal := .next (s.powerGood s.arg.flag)

/-- The part after a reset (R404, R409): everything at its reset value but what no reset reaches: the flash and the strap, FST, the bytes
of storage and of host memory, whose frames no context maps any more (R322), what hosts and peers have read, and the counts of time and of
choices (log entry 36). -/
def State.resetPart (s : State) : State :=
  { State.reset with time := s.time, real := s.real, agenda := s.agenda, arg := s.arg, draws := s.draws, nextId := s.nextId, mem := s.mem, strap := s.strap
                     flash := s.flash, reports := s.reports, hostData := s.hostData, slow := s.slow
                     owners := s.owners.map fun (o : Nat × Nat × Nat) => (o.1, o.2.1, 64) }.setFld .fwCtl 1 1 (s.fld .fwCtl 1 1)

/-- PART_RESET (R323, R404, R409): FW_CTL.RESET is written; from HALTED the part goes to RESET, else through it to the ROM. -/
def State.partReset (s : State) : State :=
  if s.boot == .halted then s.resetPart else { s.resetPart with boot := .rom }.romBoot

/-- PART_RESET. -/
def execPartReset (s : State) : Host.Outcome State Fault Refusal :=
  s.hostTurn .partReset fun s => s.control (s.arg.port % 2) State.partReset

/-- Whether a number is the path of a unit that BIST tests (R405): a block of a core, or Spar, in one of a die's 12 clusters; a cache-layer or edge
unit under cluster 15; routers, vertical links and Halyard either way (log entry 114). -/
def bistPath (p : Nat) : Bool :=
  let cluster := bits p 6 3
  let block := bits p 15 11
  let core := block ≤ 11 || block == 22
  let both := decide (14 ≤ block) && decide (block ≤ 16)
  decide (p < 2 ^ 16) && decide (block ≤ 22) && (if cluster = 15 then both || !core else decide (cluster < 12) && (both || core))

/-- BIST_COMPLETE (R404, R405): every unit passes, or BIST_RES names the first failure by its path. -/
def State.bistComplete (s : State) (failed : Bool) (path : Nat) : State :=
  if s.boot != .bist || (failed && !bistPath path) then s
  else if failed then (({ s with boot := .halted }.setFld .bistRes 15 0 path).setFld .bistRes 16 16 1)
  else { s with boot := .ready }

/-- BIST_COMPLETE. -/
def execBistComplete (s : State) : Host.Outcome State Fault Refusal := .next (s.bistComplete s.arg.flag s.arg.code)

/-! ## Hand-over (R406, R407) -/

/-- FW_STAT.PHASE. -/
def State.phase (s : State) : Nat := s.fld .fwStat 4 2

/-- HANDOVER_START (R406): FW_CTL.HAND is written while an image runs the part and no hand-over is under way. -/
def State.handoverStart (s : State) : State :=
  if s.phase = 0 ∧ s.running = true then { s with incoming := [], inDigest := [] }.setFld .fwStat 4 2 1 else s

/-- HANDOVER_START. -/
def execHandoverStart (s : State) : Host.Outcome State Fault Refusal :=
  s.hostTurn .handoverStart fun s => s.control (s.arg.port % 2) State.handoverStart

/-- The bytes of the words that FW_IMG has taken. -/
def imageBytes (ws : List DWord) : List Byte := ws.flatMap fun w => (List.range 8).map fun k => byteOf w.toNat k

/-- Writes bytes into the flash. -/
def flashWrite (m : Memory) : Nat → List Byte → Memory
  | _, [] => m
  | a, b :: t => flashWrite (Memory.setByte m a b) (a + 1) t

/-- A whole image has been written through FW_IMG (R404, R406): in LOADING it is verified for the hand-over; Forestay writes it into the
flash, if it verifies. -/
def State.imageWhole (s : State) (b : List Byte) : State :=
  if s.phase = 1 then
    (if imageVerifies b then { s with inDigest := imageDigest b }.setFld .fwStat 4 2 2
     else (({ s with incoming := [] }.setFld .fwStat 4 2 0).setFld .fwStat 5 5 1))
  else { s with incoming := [], flash := if imageVerifies b then flashWrite s.flash 0 b else s.flash }

/-- FW_IMAGE_WRITE (R404, R406, R409): the next 8 bytes, in LOADING, or while Forestay runs the part. -/
def State.fwImage (s : State) (v : DWord) : State :=
  if s.running = true ∧ (s.phase = 1 ∨ (s.phase = 0 ∧ s.fld .fwStat 1 0 = 2)) then
    let s := { s with incoming := s.incoming ++ [v] }
    let b := imageBytes s.incoming
    if 8192 ≤ b.length ∧ imageSize b ≤ b.length then s.imageWhole b else s
  else s

/-- FW_IMAGE_WRITE. -/
def execFwImageWrite (s : State) : Host.Outcome State Fault Refusal :=
  s.hostTurn .fwImageWrite fun s => s.control (s.arg.port % 2) fun s => s.fwImage s.arg.v

/-- HANDOVER_COMMIT (R406, R407): the messages in progress are finished, and the incoming image takes over. -/
def State.handoverCommit (s : State) : State :=
  if s.phase = 2 ∧ s.permits.all (fun x => x.2.sent.isEmpty) then (s.setFld .fwStat 4 2 4).setFld .fwStat 1 0 1 else s

/-- HANDOVER_COMMIT. -/
def execHandoverCommit (s : State) : Host.Outcome State Fault Refusal := .next s.handoverCommit

/-- The commands that waited for the end of a hand-over run, in their order (R406). -/
def State.flushCtxCmds (s : State) : State :=
  s.ctxCmds.foldl (fun s (n, cmd) => s.ctxRun n cmd) { s with ctxCmds := [] }

/-- FW_STAT with the boot state (R404, R409). -/
def State.fwStatValue (s : State) : DWord :=
  s.reg .fwStat ||| (match s.boot with | .reset | .rom => 0 | .bist => 64 | .ready => 128 | .halted => 192)

/-- FW_STAT_READ (R406, R409): a read in phase 4 ends the hand-over. -/
def State.fwStatRead (s : State) (port : Nat) : State :=
  let s := s.hostReads port s.fwStatValue
  if s.phase = 4 then
    ({ s with digest := s.inDigest, inDigest := [], incoming := [] }.setFld .fwStat 4 2 0).flushCtxCmds
  else s

/-- FW_STAT_READ. -/
def execFwStatRead (s : State) : Host.Outcome State Fault Refusal := s.hostTurn .fwStatRead fun s => s.fwStatRead (s.arg.port % 2)

/-- ATTESTATION_REQUEST (R407): one report, signed once: by the outgoing image before the commit, by the incoming one after it. The
nonce is 32 bytes. -/
def State.attest (s : State) (nonce : Nat) : State :=
  if s.running then
    let incoming := if s.inDigest.isEmpty then List.replicate 64 0 else s.inDigest
    { s with reports := s.reports ++
        [{ phase := s.phase, outgoing := s.digest, incoming := incoming, nonce := nonce % 2 ^ 256, byIncoming := s.phase == 4 }] }
  else s

/-- ATTESTATION_REQUEST. -/
def execAttestationRequest (s : State) : Host.Outcome State Fault Refusal := .next (s.attest s.arg.addr)

/-! ## Command messages (R402, R409) -/

/-- One millisecond in router cycles. -/
def oneMs : Nat := 2000000

/-- The messages that a sender holds go out as far as its 8 permits allow; none while the part is QUIESCING (R402, R406). -/
def CmdLink.fill (x : CmdLink) (quiet : Bool) (now : Nat) : CmdLink :=
  let n := if quiet then 0 else 8 - x.sent.length
  { sent := x.sent ++ x.held.take n, held := x.held.drop n, since := if x.sent.isEmpty then now else x.since }

/-- COMMAND_MESSAGE (R402, R404, R406): the oldest message of a link is consumed and its permit returned; with the flag a message is sent, which
its sender holds where it has no permit. Link 2·c leads from Mainmast to the Spar of cluster c, link 2·c + 1 back; Spar is held before the part
is READY. Messages carry no content in this model (log entry 37). -/
def State.commandMessage (s : State) (l : Nat) (send : Bool) : State :=
  let x := Bank.lookD s.permits l {}
  let quiet := s.phase == 2
  if 192 ≤ l ∨ s.boot ≠ .ready then s
  else if send then
    let (id, s) := s.fresh
    { s with permits := Bank.put s.permits l ({ x with held := x.held ++ [id] }.fill quiet s.real) }
  else { s with permits := Bank.put s.permits l ({ x with sent := x.sent.drop 1, since := s.real }.fill quiet s.real) }

/-- COMMAND_MESSAGE. -/
def execCommandMessage (s : State) : Host.Outcome State Fault Refusal := .next (s.commandMessage s.arg.id s.arg.flag)

/-- FIRMWARE_TIMEOUT (R328, R409): a controller has answered no permit of a link for 1 ms of real time; every open context receives a record. -/
def State.firmwareTimeout (s : State) (l : Nat) : State :=
  let x := Bank.lookD s.permits l {}
  if x.sent ≠ [] ∧ x.since + 1000 * realMicro ≤ s.real then
    ((List.range 64).filter fun c => s.ctxOpen c).foldl (fun s c => s.regionFault c { code := fcFirmware, kind := 3 })
      { s with permits := Bank.put s.permits l { x with since := s.real } }
  else s

/-- FIRMWARE_TIMEOUT. -/
def execFirmwareTimeout (s : State) : Host.Outcome State Fault Refusal := .next (s.firmwareTimeout s.arg.id)

/-! ## Reef (R408) -/

/-- DROOP_EVENT (R408): a core's supply, size in mV, lies below 480; the event counts, and its cluster's clock is halved for 1 µs more. -/
def State.droopEvent (s : State) (c mv : Nat) : State :=
  let from' := (s.slow.filter fun w => w.1 == coreBit c).foldl (fun t w => max t w.2.2) s.time
  if mv < 480 ∧ c < 1536 then
    { s with droops := s.droops ++ [(c, s.time)], slow := s.slow ++ [(coreBit c, from', s.time + 2000)] }.setFld (.coreSens c) 27 16 mv
  else s

/-- DROOP_EVENT. -/
def execDroopEvent (s : State) : Host.Outcome State Fault Refusal := .next (s.droopEvent s.arg.core s.arg.size)

/-- A core's sensors read a temperature and a supply; a supply below 480 mV is a droop event (R408). -/
def State.sensors (s : State) (c temp mv : Nat) : State :=
  let s := s.setFld (.coreSens c) 7 0 temp
  if mv < 480 then s.droopEvent c mv else s.setFld (.coreSens c) 27 16 mv

/-- REEF_INTERVAL (R408): the average of the last 1 ms; the clock falls by 50 MHz above the limit, to 500 at least, and rises again once
the average lies 5% below it. With the flag a core's sensors are read as well. -/
def State.reefInterval (s : State) (a : StepArgs) : State :=
  if s.reefAt + oneMs ≤ s.time then
    let avg := a.v.toNat % 2 ^ 12
    let limit := s.fld .reefLimit 11 0
    let clk := s.fld .reefStat 27 16
    let clk' := if limit < avg then max 500 (clk - 50) else if 100 * avg ≤ 95 * limit then min 1000 (clk + 50) else clk
    let s := (({ s with reefAt := s.time }.setFld .reefStat 11 0 avg).setFld .reefStat 27 16 clk')
    if a.flag && decide (a.core < 1536) then s.sensors a.core a.size a.addr else s
  else s

/-- REEF_INTERVAL. -/
def execReefInterval (s : State) : Host.Outcome State Fault Refusal := .next (s.reefInterval s.arg)

/-- DROOP_HOLD_END (R408): 1 µs has passed since the last droop event of a cluster. -/
def State.droopEnd (s : State) (cluster : Nat) : State :=
  let mine := s.droops.filter fun (c, _) => coreBit c == cluster
  if mine.all fun (_, t) => decide (t + 2000 ≤ s.time) then { s with droops := s.droops.filter fun (c, _) => coreBit c != cluster } else s

/-- DROOP_HOLD_END. -/
def execDroopHoldEnd (s : State) : Host.Outcome State Fault Refusal := .next (s.droopEnd s.arg.id)

end Sys2Proof.Machine
end

