-- ==== Sys2Proof/Machine/DebugEvents.lean ====
section
/-! DEFINITION. The debugger (R99, R410): its commands, its events, and detaching. A command's word is the turn's value operand, or the
command in progress. -/
namespace Sys2Proof.Machine

/-! ## A command's word (R410) -/

/-- OP. -/
def dbgOp (w : DWord) : Nat := bits w.toNat 3 0
/-- CORE. -/
def dbgCore (w : DWord) : Nat := bits w.toNat 14 4
/-- SLOT. -/
def dbgSlot (w : DWord) : Nat := bits w.toNat 19 15

/-- The last command ends with a result. -/
def State.dbgResult (s : State) (n : Nat) : State := { s with dbgCmd := none }.setFld .dbgStat 3 1 n

/-- Whether the slot that a command names holds a group of an attached context. -/
def State.dbgMine (s : State) (w : DWord) : Bool :=
  decide (dbgCore w < 1536) && (s.slot (dbgCore w) (dbgSlot w)).state != .free
    && s.attached (s.group (dbgCore w) (dbgSlot w)).task.ctx

/-- A command of a type: one in progress goes on; otherwise a write of DBG_CMD begins one, unless another is in progress (R323, R410). -/
def State.dbgCommand (s : State) (port : Nat) (w : DWord) (op : Nat) (eff : State → DWord → State) : State :=
  match s.dbgCmd with
  | some v => if dbgOp v = op then (if s.dbgMine v then eff s v else s.dbgResult 1) else s
  | none =>
    if dbgOp w ≠ op then s
    else s.control port fun s => if s.dbgMine w then eff s w else s.dbgResult 1

/-- The command of a turn. -/
def State.dbgTurn (s : State) (i : Instr) (op : Nat) (eff : State → DWord → State) : Host.Outcome State Fault Refusal :=
  if s.dbgCmd.isSome then .next (s.dbgCommand (s.arg.port % 2) s.arg.v op eff)
  else s.hostTurn i fun s => s.dbgCommand (s.arg.port % 2) s.arg.v op eff

/-! ## Halt and release -/

/-- Command 1, halt: no strand issues on; the command is in progress until the slot is FROZEN. -/
def State.dbgHalt (s : State) (w : DWord) : State :=
  let x := s.slot (dbgCore w) (dbgSlot w)
  if s.dbgCmd.isSome then s
  else if x.state = .active then { s.setSlot (dbgCore w) (dbgSlot w) { x with halting := true } with dbgCmd := some w }
  else s.dbgResult 2

/-- DBG_HALT. -/
def execDbgHalt (s : State) : Host.Outcome State Fault Refusal := s.dbgTurn .dbgHalt 1 State.dbgHalt

/-- An event about a slot's strand. -/
def State.dbgSlotEvent (s : State) (kind c k strand : Nat) : State :=
  s.dbgEvent { kind := kind, core := c, slot := k, strand := strand, code := 0, ctx := (s.group c k).task.ctx }

/-- HALT_COMPLETE (R75, R410): every strand stands at an instruction boundary; the slot is FROZEN, and an event of kind 4 follows. A group
that a fault's policy 2 froze meanwhile is halted with it, and one that has left the slot ends the command without effect (log entry 68). -/
def State.haltComplete (s : State) (c k : Nat) : State :=
  let x := s.slot c k
  let mine := match s.dbgCmd with
    | some w => dbgOp w == 1 && dbgCore w == c && dbgSlot w == k
    | none => false
  if x.halting then
    (match x.state with
      | .active =>
        if x.group.atBoundary then
          let s := (s.freezeSlot c k .halt).dbgSlotEvent 4 c k 0
          if mine then s.dbgResult 0 else s
        else s
      | _ => s)
  else if mine then (if x.debugged then (s.dbgSlotEvent 4 c k 0).dbgResult 0 else s.dbgResult 2)
  else s

/-- HALT_COMPLETE. -/
def execHaltComplete (s : State) : Host.Outcome State Fault Refusal := .next (s.haltComplete s.arg.core s.arg.slot)

/-- Command 2, release; a group whose pre-emption or cancellation waits may stop at once (R75, R97). -/
def State.dbgRelease (s : State) (w : DWord) : State :=
  if (s.slot (dbgCore w) (dbgSlot w)).debugged then
    ((s.resume (dbgCore w) (dbgSlot w)).stopCheck (dbgCore w) (dbgSlot w) false).dbgResult 0
  else s.dbgResult 2

/-- DBG_RELEASE. -/
def execDbgRelease (s : State) : Host.Outcome State Fault Refusal := s.dbgTurn .dbgRelease 2 State.dbgRelease

/-! ## Steps (R99) -/

/-- The strand that a step command names: STRAND, or the lowest-numbered READY one. -/
def dbgStrand (w : DWord) (g : Group) : Option Nat :=
  if bit w.toNat 23 then (if (Bank.look g.strands (bits w.toNat 22 20)).isSome then some (bits w.toNat 22 20) else none)
  else (g.strands.find? fun (_, x) => x.state == .ready).map (·.1)

/-- Command 3, step: it has begun, and the port issues the strand's next instruction alone; one that waits is waited for. -/
def State.dbgStep (s : State) (w : DWord) : State :=
  let x := s.slot (dbgCore w) (dbgSlot w)
  if !x.debugged || x.group.step.isSome then s.dbgResult 2
  else match dbgStrand w x.group with
    | none => s.dbgResult 3
    | some n =>
      let step : DbgStep := { strand := n, waits := (x.group.strand n).state == .waiting, issued := false }
      (s.setGroup (dbgCore w) (dbgSlot w) { x.group with step := some step }).dbgResult 0

/-- DBG_STEP. -/
def execDbgStep (s : State) : Host.Outcome State Fault Refusal := s.dbgTurn .dbgStep 3 State.dbgStep

/-- A step is over: an event of kind 3 (R410). -/
def State.endStep (s : State) (c k : Nat) (d : DbgStep) : State :=
  (s.setGroup c k { s.group c k with step := none }).dbgSlotEvent 3 c k d.strand

/-- STEP_ENDED (R99): the instruction has issued, or the condition of a waiting strand holds. -/
def State.stepEnded (s : State) (c k : Nat) : State :=
  let g := s.group c k
  match g.step with
  | none => s
  | some d =>
    let gone := (Bank.look g.strands d.strand).isNone
    if gone || (if d.waits then (g.strand d.strand).state != .waiting else d.issued) then s.endStep c k d else s

/-- STEP_ENDED. -/
def execStepEnded (s : State) : Host.Outcome State Fault Refusal := .next (s.stepEnded s.arg.core s.arg.slot)

/-- Command 4, cancel step: the step of a strand that still waits ends with the strand unchanged (R99). -/
def State.dbgCancel (s : State) (w : DWord) : State :=
  let c := dbgCore w
  let k := dbgSlot w
  let g := s.group c k
  match g.step with
  | some d => if d.waits && (g.strand d.strand).state == .waiting then (s.endStep c k d).dbgResult 4 else s.dbgResult 2
  | none => s.dbgResult 2

/-- DBG_CANCEL_STEP. -/
def execDbgCancelStep (s : State) : Host.Outcome State Fault Refusal := s.dbgTurn .dbgCancelStep 4 State.dbgCancel

/-! ## Dump and load -/

/-- The debugger's buffer (R410). -/
def State.dbgBase (s : State) : Nat := bits (s.reg .dbgBuf).toNat 55 12 * 4096

/-- Commands 5 and 6: once the group's counters are zero and its pages can be reached; until then the command is in progress. -/
def State.dbgMove (s : State) (w : DWord) (write : Bool) (eff : State → Nat → Nat → State) : State :=
  let c := dbgCore w
  let k := dbgSlot w
  let x := s.slot c k
  let busy (s : State) : State := { s with dbgCmd := some w }
  if !x.debugged then s.dbgResult 2
  else if !s.slotQuiet c k then busy s
  else match s.reach x.group.task.ctx s.dbgBase x.group.saveSize write with
    | (.present, s) => (eff s c k).dbgResult 0
    | (.absent, s) => busy s
    | (.refused, s) => s.dbgResult 5

/-- Command 5, dump: the group's state stands at DBG_BUF in the layout of R86. -/
def State.dbgDump (s : State) (w : DWord) : State :=
  s.dbgMove w true fun s c k => s.writeWords (s.group c k).task.ctx s.dbgBase ((s.group c k).saveWords k)

/-- DBG_DUMP. -/
def execDbgDump (s : State) : Host.Outcome State Fault Refusal := s.dbgTurn .dbgDump 5 State.dbgDump

/-- Command 6, load: registers, PCs and windows come from DBG_BUF. -/
def State.dbgLoad (s : State) (w : DWord) : State :=
  s.dbgMove w false fun s c k =>
    let g := s.group c k
    let (b, s) := s.readWords g.task.ctx s.dbgBase (g.saveSize / 8)
    s.setGroup c k (g.loadDebug b)

/-- DBG_LOAD. -/
def execDbgLoad (s : State) : Host.Outcome State Fault Refusal := s.dbgTurn .dbgLoad 6 State.dbgLoad

/-! ## Events and detaching -/

/-- DBG_EVT for an event. -/
def DbgEvent.word (e : DbgEvent) : DWord :=
  BitVec.ofNat 64 (1 + 2 * e.kind + 2 ^ 4 * e.core + 2 ^ 15 * e.slot + 2 ^ 20 * e.strand + 2 ^ 23 * e.code + 2 ^ 29 * e.ctx)

/-- DBG_EVT_READ (R410): the oldest event is returned and removed. -/
def State.dbgEvtRead (s : State) (port : Nat) : State :=
  match s.dbgEvents with
  | [] => s.hostReads port 0
  | e :: t => { s with dbgEvents := t }.hostReads port e.word

/-- DBG_EVT_READ. -/
def execDbgEvtRead (s : State) : Host.Outcome State Fault Refusal := s.hostTurn .dbgEvtRead fun s => s.dbgEvtRead (s.arg.port % 2)

/-- A group of a context that is no longer attached (R326, R410): halted by command 1 or BKPT it resumes; parked by policy 2 it ends under
policy 0. -/
def State.detachSlot (s : State) (c k : Nat) : State :=
  let x := s.slot c k
  if x.halting then s.setSlot c k { x with halting := false }
  else if x.debugged then
    (if x.cause = .policy then s.endTask c k (.failed x.policyCode) else (s.resume c k).stopCheck c k false)
  else s

/-- DBG_DETACH (R410): a write of DBG_ATTACH; each context whose bit it clears is detached. -/
def State.dbgAttachWrite (s : State) (v : DWord) : State :=
  let gone := s.reg .dbgAttach &&& ~~~ v
  let mine : List (Nat × Nat) := s.cores.flatMap fun (c, x) => x.slots.filterMap fun (k, y) =>
    if y.state != .free && gone.getLsbD y.group.task.ctx then some (c, k) else none
  mine.foldl (fun s (c, k) => s.detachSlot c k) (s.setReg .dbgAttach v)

/-- DBG_DETACH. -/
def execDbgDetach (s : State) : Host.Outcome State Fault Refusal :=
  s.hostTurn .dbgDetach fun s => s.control (s.arg.port % 2) fun s => s.dbgAttachWrite s.arg.v

end Sys2Proof.Machine
end

