-- ==== Sys2Proof/Machine/Special.lean ====
section
/-! DEFINITION. The special functions of row 0x7 (R147 to R149): each exact value is enclosed in fixed point with 512
fractional bits and rounded once. A value that is not exact is irrational or has a further digit, so it stands with a
sticky bit; 512 bits separate every rounding boundary that the formats allow (DEDUCED, log entry 13). -/
namespace Sys2Proof.Machine

/-- Fractional bits of the fixed-point values below. -/
def fixBits : Nat := 512
/-- One in fixed point. -/
def fixOne : Nat := 2 ^ 512
/-- The natural logarithm of 2, cut at 512 fractional bits. -/
def fixLn2 : Nat := 0xb17217f7d1cf79abc9e3b39803f2f6af40f343267298b62d8a0d175b8baafa2be7b876206debac98559552fb4afa1b10ed2eae35c138214427573b291169b825
/-- π, cut at 512 fractional bits. -/
def fixPi : Nat := 0x3243f6a8885a308d313198a2e03707344a4093822299f31d0082efa98ec4e6c89452821e638d01377be5466cf34e90c6cc0ac29b7c97c50dd3f84d5b5b5470917

/-- A product in fixed point. -/
def fixMul (a b : Nat) : Nat := (a * b) >>> 512

/-- The sum of x^k / k! from the term given on: the term, the number of the next one, terms left, and the sum so far. -/
def expSeries (x : Nat) : Nat → Nat → Nat → Nat → Nat
  | 0, _, _, acc => acc
  | n + 1, term, k, acc =>
    let t := fixMul term x / k
    expSeries x n t (k + 1) (acc + t)

/-- e^x for fixed-point x in [0, 1). -/
def fixExp (x : Nat) : Nat := expSeries x 110 fixOne 1 fixOne

/-- The alternating series of sine or cosine: the sign of the next term, its number, terms left. -/
def trigSeries (x2 : Nat) : Nat → Nat → Nat → Bool → Int → Int
  | 0, _, _, _, acc => acc
  | n + 1, term, k, neg, acc =>
    let t := fixMul term x2 / (k * (k + 1))
    trigSeries x2 n t (k + 2) (!neg) (if neg then acc - t else acc + t)

/-- sin x for fixed-point x in [0, 1). -/
def fixSin (x : Nat) : Nat := (trigSeries (fixMul x x) 60 x 2 true x).toNat
/-- cos x for fixed-point x in [0, 1). -/
def fixCos (x : Nat) : Nat := (trigSeries (fixMul x x) 60 fixOne 1 true fixOne).toNat

/-- The fractional digits of log2 y for y in [1, 2) in fixed point, by repeated squaring: n digits, from the value so far. -/
def log2Digits : Nat → Nat → Nat → Nat
  | 0, _, acc => acc
  | n + 1, y, acc =>
    let y2 := fixMul y y
    if 2 * fixOne ≤ y2 then log2Digits n (y2 / 2) (2 * acc + 1) else log2Digits n y2 (2 * acc)

/-- A dyadic magnitude in fixed point, bits below the 512th cut off. -/
def fixOf (man : Nat) (exp : Int) : Nat :=
  if -512 ≤ exp then man <<< (exp + 512).toNat else man >>> (-512 - exp).toNat

/-- An inexact positive result near a fixed-point value: its digits and a sticky bit. -/
def irrational (neg : Bool) (v : Nat) (exp : Int) : Fl := .fin neg (2 * v + 1) (exp - 513)

/-- 2^x for a dyadic x: exact for an integer; far outside every format's range, a value there (R147). -/
def exp2Of (neg : Bool) (man : Nat) (exp : Int) : Fl :=
  if man = 0 then .fin false 1 0
  else if 12 < exp + man.log2 then (if neg then .fin false 3 (-9000) else .fin false 3 9000)
  else
    let z : Int := (if neg then -1 else 1) * (fixOf man exp : Nat)
    let n := z / (fixOne : Nat)
    let f := (z % (fixOne : Nat)).toNat
    if f = 0 then .fin false 1 n
    else irrational false (fixExp (fixMul f fixLn2)) n

/-- log2 of a positive dyadic (R147): exact for a power of two. -/
def log2Of (man : Nat) (exp : Int) : Fl :=
  let e := exp + man.log2
  if man = 2 ^ man.log2 then .fin (decide (e < 0)) e.natAbs 0
  else
    let y := fixOf man (-(man.log2 : Int))
    let z : Int := e * (2 ^ 240 : Nat) + log2Digits 240 y 0
    if 0 ≤ z then .fin false (2 * z.toNat + 1) (-241) else .fin true (2 * (-z).toNat - 1) (-241)

/-- sin(π r) for fixed-point r in [0, 1/2], by whichever series has an argument below π/4. -/
def sinPi (r : Nat) : Nat :=
  if 4 * r ≤ fixOne then fixSin (fixMul r fixPi) else fixCos (fixMul (fixOne / 2 - r) fixPi)

/-- sin(π x) for a dyadic x (R147, R148): zero with the sign of x for integers, ±1 halfway, else irrational. -/
def sinpOf (neg : Bool) (man : Nat) (exp : Int) : Fl :=
  if man = 0 || decide (0 ≤ exp) then .fin neg 0 0
  else
    let t := fixOf man exp % (2 * fixOne)
    let down := decide (fixOne ≤ t)
    let u := t % fixOne
    let r := if 2 * u ≤ fixOne then u else fixOne - u
    if u = 0 then .fin neg 0 0
    else if 2 * r = fixOne then .fin (neg != down) 1 0
    else irrational (neg != down) (sinPi r) 0

/-- cos(π x) for a dyadic x (R147, R148): ±1 for integers, +0 halfway, else irrational. -/
def cospOf (man : Nat) (exp : Int) : Fl :=
  let t := if 1 ≤ exp then 0 else fixOf man exp % (2 * fixOne)
  let u := if t ≤ fixOne then t else 2 * fixOne - t
  if u = 0 then .fin false 1 0
  else if u = fixOne then .fin true 1 0
  else if 2 * u = fixOne then .fin false 0 0
  else if 2 * u < fixOne then irrational false (sinPi (fixOne / 2 - u)) 0
  else irrational true (sinPi (u - fixOne / 2)) 0

/-- e^(-x) in fixed point for a fixed-point x below 2^10. -/
def fixExpNeg (x : Nat) : Nat :=
  let n := x / fixLn2 + 1
  let r := n * fixLn2 - x
  fixExp r >>> n

/-- tanh x for a dyadic x other than zero: irrational; for large x, just below 1. -/
def tanhOf (neg : Bool) (man : Nat) (exp : Int) : Fl :=
  if 6 < exp + man.log2 then irrational neg (fixOne - 1) 0
  else
    let e := fixExpNeg (2 * fixOf man exp)
    irrational neg (((fixOne - e) <<< 512) / (fixOne + e)) 0

/-- 1 / (1 + e^-x) for a dyadic x other than zero: irrational; for large x just below 1, for very negative x near 0. -/
def sigmOf (neg : Bool) (man : Nat) (exp : Int) : Fl :=
  if 7 < exp + man.log2 then (if neg then .fin false 3 (-9000) else irrational false (fixOne - 1) 0)
  else
    let e := fixExpNeg (fixOf man exp)
    irrational false (((if neg then e else fixOne) <<< 512) / (fixOne + e)) 0

/-- 1 / X in a format (R147, R148). -/
def fpRcp (F : Fmt) (m : FpMode) (x : Fl) : Nat × Nat := fpDiv F m (.fin false 1 0) x

/-- 1 / √X (R147, R148): the root of the reciprocal, with a sticky bit. -/
def fpRsq (F : Fmt) (m : FpMode) (x : Fl) : Nat × Nat :=
  match x with
  | .nan _ => fpResult F m x true false x.nv
  | .inf true => fpResult F m x false true 0
  | .inf false => fpResult F m (.fin false 0 0) false false 0
  | .fin neg a e =>
    if a = 0 then fpResult F m (.inf neg) false false flFZ
    else if neg then fpResult F m x false true 0
    else
      let p : Nat := 200 + (if e % 2 = 0 then 0 else 1)
      let n := (1 <<< p) / a
      let r := isqrt n
      fpResult F m (.fin false (2 * r + (if r * r * a = 1 <<< p then 0 else 1)) ((-e - p) / 2 - 1)) false false 0

/-- A function of one finite operand with results for the infinities; a NaN operand by R148. -/
def fpUnary (F : Fmt) (x : Fl) (onInf : Bool → Nat × Nat) (onFin : Bool → Nat → Int → Nat × Nat) : Nat × Nat :=
  match x with
  | .nan _ => (F.nan, x.nv)
  | .inf n => onInf n
  | .fin n a e => onFin n a e

/-- 2^X (R147, R148). -/
def fpExp2 (F : Fmt) (m : FpMode) (x : Fl) : Nat × Nat :=
  fpUnary F x (fun n => if n then (0, 0) else (F.inf false, 0)) fun n a e => fpResult F m (exp2Of n a e) false false 0

/-- log2 X (R147, R148). -/
def fpLog2 (F : Fmt) (m : FpMode) (x : Fl) : Nat × Nat :=
  fpUnary F x (fun n => if n then (F.nan, flNV) else (F.inf false, 0)) fun n a e =>
    if a = 0 then (F.inf true, flFZ)
    else if n then (F.nan, flNV)
    else fpResult F m (log2Of a e) false false 0

/-- sin(π X) (R147, R148). -/
def fpSinp (F : Fmt) (m : FpMode) (x : Fl) : Nat × Nat :=
  fpUnary F x (fun _ => (F.nan, flNV)) fun n a e => fpResult F m (sinpOf n a e) false false 0

/-- cos(π X) (R147, R148). -/
def fpCosp (F : Fmt) (m : FpMode) (x : Fl) : Nat × Nat :=
  fpUnary F x (fun _ => (F.nan, flNV)) fun _ a e => fpResult F m (cospOf a e) false false 0

/-- tanh X (R147, R148). -/
def fpTanh (F : Fmt) (m : FpMode) (x : Fl) : Nat × Nat :=
  fpUnary F x (fun n => fpResult F m (.fin n 1 0) false false 0) fun n a e =>
    if a = 0 then (F.sign n, 0) else fpResult F m (tanhOf n a e) false false 0

/-- 1 / (1 + e^-X) (R147, R148). -/
def fpSigm (F : Fmt) (m : FpMode) (x : Fl) : Nat × Nat :=
  fpUnary F x (fun n => if n then (0, 0) else fpResult F m (.fin false 1 0) false false 0) fun n a e =>
    if a = 0 then fpResult F m (.fin false 1 (-1)) false false 0 else fpResult F m (sigmOf n a e) false false 0

/-- 2^(X - Y) with X - Y exact (R149). -/
def fpSftm (F : Fmt) (m : FpMode) (x y : Fl) : Nat × Nat :=
  let s := (({} : Sum).add x).add y.negate
  let fl := x.nv ||| y.nv
  if s.isNan then (F.nan, fl)
  else if s.bad then (F.nan, fl ||| flNV)
  else let (v, f) := fpExp2 F m (s.total 0); (v, fl ||| f)

end Sys2Proof.Machine
end

