-- ==== Sys2Proof/Machine/FloatOps.lean ====
section
/-! DEFINITION. Rows 0x3, 0x4 and 0x7: floating point, conversion, dot steps and special functions (R132 to R149). -/
namespace Sys2Proof.Machine

/-! ## The frame of an elementwise instruction (R132 to R136) -/

/-- The XMOD bits of the arithmetic instructions (R134). -/
def xmArith : Nat := xmRound ||| xmSat ||| xmFtz

/-- Elements of w bits in a word from a function of the element, with the union of their flags (R136). -/
def packElems (w n : Nat) (fn : Nat → Nat × Nat) : Nat × Nat :=
  (List.range n).foldl (fun acc j => let (v, fl) := fn j; (acc.1 + v * 2 ^ (w * j), acc.2 ||| fl)) (0, 0)

/-- How an instruction of these rows reads and computes: format, its type code, its elements in a word, the XMOD bits it
accepts. -/
structure FpShape where
  F : Fmt
  t : Nat
  n : Nat := 1
  xmod : Nat := xmArith

/-- Single precision. -/
def shF32 : FpShape := { F := f32, t := 14 }
/-- Double precision. -/
def shF64 : FpShape := { F := f64, t := 15 }
/-- Packed f16. -/
def shF16 : FpShape := { F := f16, t := 6, n := 2 }
/-- Packed bf16. -/
def shBf16 : FpShape := { F := bf16, t := 7, n := 2 }

/-- The form of an instruction of these rows. -/
def FpShape.form (p : FpShape) (d : Nat) (srcs : List Src) : Form :=
  { xmod := p.xmod, routed := true, srcs := srcs, wide := p.t == 15, dest := some (d, if p.t = 15 then 2 else 1) }

/-- Runs an elementwise instruction on the encodings of its sources' elements (R136). -/
def execFp (op : BitVec 8) (p : FpShape) (pl : BitVec 24) (d : Nat) (srcs : List Src) (fn : FpMode → List Nat → Nat × Nat)
    (h : List Hint) (s : State) : Host.Outcome State Fault Refusal :=
  let m := fpModeOf h
  simple h s op pl (p.form d srcs) fun i s =>
    let r (l : Nat) : Nat × Nat :=
      let xs := srcs.map fun y => i.src y (.elem p.t) l
      packElems p.F.width p.n fun j => fn m (xs.map fun x => x / 2 ^ (p.F.width * j) % 2 ^ p.F.width)
    s.vec i { d := d, wide := p.t == 15, m := i.em, val := fun l => (r l).1, flags := fun l => (r l).2 }

/-- The value of an operand's element, flushed under .ftz (R38, R132). -/
def FpShape.val (p : FpShape) (m : FpMode) (xs : List Nat) (k : Nat) : Fl := (p.F.value (nth xs k)).flush p.F m.ftz

/-- An instruction with two sources a and b. -/
def execFp2 (op : BitVec 8) (p : FpShape) (fn : Fmt → FpMode → Fl → Fl → Nat × Nat) (h : List Hint) (f : FmtV) (s : State) :
    Host.Outcome State Fault Refusal :=
  execFp op p f.payload f.d.toNat f.two (fun m xs => fn p.F m (p.val m xs 0) (p.val m xs 1)) h s
/-- An instruction with one source a. -/
def execFp1 (op : BitVec 8) (p : FpShape) (fn : Fmt → FpMode → Fl → Nat × Nat) (h : List Hint) (f : FmtV) (s : State) :
    Host.Outcome State Fault Refusal :=
  execFp op p f.payload f.d.toNat f.one (fun m xs => fn p.F m (p.val m xs 0)) h s
/-- An instruction with three sources. -/
def execFp3 (op : BitVec 8) (p : FpShape) (fn : Fmt → FpMode → Fl → Fl → Fl → Nat × Nat) (h : List Hint) (f : FmtT)
    (s : State) : Host.Outcome State Fault Refusal :=
  execFp op p f.payload f.d.toNat f.three (fun m xs => fn p.F m (p.val m xs 0) (p.val m xs 1) (p.val m xs 2)) h s
/-- An instruction on the encodings of a and b themselves (R137). -/
def execFpBits (op : BitVec 8) (p : FpShape) (fn : Fmt → FpMode → Nat → Nat → Nat × Nat) (h : List Hint) (f : FmtV) (s : State) :
    Host.Outcome State Fault Refusal :=
  execFp op p f.payload f.d.toNat f.two (fun m xs => fn p.F m (nth xs 0) (nth xs 1)) h s

/-! ## Row 0x3 (R136, R137) -/

/-- FADD (R135). -/
def execFadd (h : List Hint) (f : FmtV) (s : State) : Host.Outcome State Fault Refusal :=
  execFp2 0x30 shF32 fpAdd h f s
/-- FSUB (R135). -/
def execFsub (h : List Hint) (f : FmtV) (s : State) : Host.Outcome State Fault Refusal :=
  execFp2 0x31 shF32 fpSub h f s
/-- FMUL (R135). -/
def execFmul (h : List Hint) (f : FmtV) (s : State) : Host.Outcome State Fault Refusal :=
  execFp2 0x32 shF32 fpMul h f s
/-- FFMA (R135). -/
def execFfma (h : List Hint) (f : FmtT) (s : State) : Host.Outcome State Fault Refusal :=
  execFp3 0x33 shF32 fpFma h f s
/-- FMIN (R40, R137). -/
def execFmin (h : List Hint) (f : FmtV) (s : State) : Host.Outcome State Fault Refusal :=
  execFpBits 0x34 { shF32 with xmod := xmFtz ||| xmNanp } (fun F m => fpMinMax F m false) h f s
/-- FMAX (R40, R137). -/
def execFmax (h : List Hint) (f : FmtV) (s : State) : Host.Outcome State Fault Refusal :=
  execFpBits 0x35 { shF32 with xmod := xmFtz ||| xmNanp } (fun F m => fpMinMax F m true) h f s
/-- FCPYS (R137). -/
def execFcpys (h : List Hint) (f : FmtV) (s : State) : Host.Outcome State Fault Refusal :=
  execFpBits 0x36 { shF32 with xmod := xmFtz } fpCopySign h f s
/-- FRND (R137). -/
def execFrnd (h : List Hint) (f : FmtV) (s : State) : Host.Outcome State Fault Refusal :=
  execFp1 0x37 { shF32 with xmod := xmRound ||| xmFtz } fpRound h f s
/-- FDIV (R135). -/
def execFdiv (h : List Hint) (f : FmtV) (s : State) : Host.Outcome State Fault Refusal :=
  execFp2 0x38 shF32 fpDiv h f s
/-- FSQRT (R135). -/
def execFsqrt (h : List Hint) (f : FmtV) (s : State) : Host.Outcome State Fault Refusal :=
  execFp1 0x39 shF32 fpSqrt h f s
/-- HXADD (R136). -/
def execHxadd (h : List Hint) (f : FmtV) (s : State) : Host.Outcome State Fault Refusal :=
  execFp2 0x3a shF16 fpAdd h f s
/-- HXMUL (R136). -/
def execHxmul (h : List Hint) (f : FmtV) (s : State) : Host.Outcome State Fault Refusal :=
  execFp2 0x3b shF16 fpMul h f s
/-- HXFMA (R136). -/
def execHxfma (h : List Hint) (f : FmtT) (s : State) : Host.Outcome State Fault Refusal :=
  execFp3 0x3c shF16 fpFma h f s
/-- BXADD (R136). -/
def execBxadd (h : List Hint) (f : FmtV) (s : State) : Host.Outcome State Fault Refusal :=
  execFp2 0x3d shBf16 fpAdd h f s
/-- BXMUL (R136). -/
def execBxmul (h : List Hint) (f : FmtV) (s : State) : Host.Outcome State Fault Refusal :=
  execFp2 0x3e shBf16 fpMul h f s
/-- BXFMA (R136). -/
def execBxfma (h : List Hint) (f : FmtT) (s : State) : Host.Outcome State Fault Refusal :=
  execFp3 0x3f shBf16 fpFma h f s

/-! ## Row 0x4: FP64 (R138, R139) -/

/-- DADD (R135). -/
def execDadd (h : List Hint) (f : FmtV) (s : State) : Host.Outcome State Fault Refusal :=
  execFp2 0x40 shF64 fpAdd h f s
/-- DMUL (R135). -/
def execDmul (h : List Hint) (f : FmtV) (s : State) : Host.Outcome State Fault Refusal :=
  execFp2 0x41 shF64 fpMul h f s
/-- DFMA (R135). -/
def execDfma (h : List Hint) (f : FmtT) (s : State) : Host.Outcome State Fault Refusal :=
  execFp3 0x42 shF64 fpFma h f s
/-- DMIN (R137, R139). -/
def execDmin (h : List Hint) (f : FmtV) (s : State) : Host.Outcome State Fault Refusal :=
  execFpBits 0x43 { shF64 with xmod := xmFtz ||| xmNanp } (fun F m => fpMinMax F m false) h f s
/-- DMAX (R137, R139). -/
def execDmax (h : List Hint) (f : FmtV) (s : State) : Host.Outcome State Fault Refusal :=
  execFpBits 0x44 { shF64 with xmod := xmFtz ||| xmNanp } (fun F m => fpMinMax F m true) h f s
/-- DDIV (R135). -/
def execDdiv (h : List Hint) (f : FmtV) (s : State) : Host.Outcome State Fault Refusal :=
  execFp2 0x45 shF64 fpDiv h f s
/-- DSQRT (R135). -/
def execDsqrt (h : List Hint) (f : FmtV) (s : State) : Host.Outcome State Fault Refusal :=
  execFp1 0x46 shF64 fpSqrt h f s

/-! ## Conversion (R140 to R143) -/

/-- The result type, source type and element index of imm11 (R140). -/
def cvtFields (f : FmtI) : Nat × Nat × Nat := (bits f.imm.toNat 3 0, bits f.imm.toNat 7 4, bits f.imm.toNat 10 8)

/-- Elements of a type in a 32-bit word; one for a type of 32 bits or more (R31). -/
def elemsOf (t : Nat) : Nat := max 1 (32 / (Ty.ofCode t).slot)

/-- Whether CVT's types or element index are refused (R140, R141). -/
def cvtBad (f : FmtI) : Bool :=
  let (t, u, e) := cvtFields f
  t == 13 || u == 13 || decide (elemsOf u ≤ e)

/-- The form of a conversion: whether its source and its destination are 64 bits wide. -/
def cvtForm (f : FmtI) (sr wideSrc wideDst : Bool) : Form :=
  { xmod := xmArith, sr := sr, routed := true, srcs := f.one, wide := wideSrc, dest := some (f.d.toNat, if wideDst then 2 else 1) }

/-- One element converted (R141): flushed under .ftz as a floating source, then by R42. -/
def cvtElem (m : FpMode) (t u bits : Nat) : Nat × Nat := convert (Ty.ofCode t) m ((Ty.ofCode u).source m.ftz bits)

/-- CVT (R141): under SR each active lane's generator takes 16 steps (R37). -/
def execCvt (h : List Hint) (f : FmtI) (s : State) : Host.Outcome State Fault Refusal :=
  let (t, u, e) := cvtFields f
  let m := fpModeOf h
  perform h s (reservedSet 0x47 f.payload) (fun _ => cvtForm f true (u == 15) (t == 15)) (fun _ => false) (fun _ => cvtBad f)
    (fun _ _ => none) fun i s =>
    let g := if m.mode = 4 then
        { i.g with gens := Lanes.of fun l => if i.em.getLsbD l then sgenSteps 16 (i.g.gen l) else i.g.gen l }
      else i.g
    let i := { i with g := g }
    let r (l : Nat) : Nat × Nat :=
      cvtElem { m with r := (g.gen l).toNat % 65536 } t u ((Ty.ofCode u).elem (i.at f.one 0 (.elem u) l) e)
    s.vec i { d := f.d.toNat, wide := t == 15, m := i.em, val := fun l => (r l).1, flags := fun l => (r l).2 }

/-- Whether a type has 16 bits or fewer and may be packed (R142, R143). -/
def narrow (t : Nat) : Bool := decide ((Ty.ofCode t).slot ≤ 16) && t != 13
/-- Whether a type is f32, i32 or n32 (R142, R143). -/
def plain32 (t : Nat) : Bool := t == 4 || t == 5 || t == 14

/-- PACK (R142). -/
def execPack (h : List Hint) (f : FmtI) (s : State) : Host.Outcome State Fault Refusal :=
  let (t, u, e) := cvtFields f
  let m := fpModeOf h
  perform h s (reservedSet 0x48 f.payload) (fun _ => cvtForm f false true false) (fun _ => false)
    (fun _ => !plain32 u || !narrow t || decide (elemsOf t ≤ 2 * e + 1)) (fun _ _ => none) fun i s =>
    let ty := Ty.ofCode t
    let r (l : Nat) : Nat × Nat :=
      let x := i.at f.one 0 (.two u) l
      (List.range 2).foldl (fun acc j =>
        let (v, fl) := cvtElem m t u (x / 2 ^ (32 * j) % 2 ^ 32)
        (ty.setElem acc.1 (2 * e + j) v, acc.2 ||| fl)) (if f.d = 63 then 0 else (i.g.vreg f.d.toNat l).toNat, 0)
    s.vec i { d := f.d.toNat, m := i.em, val := fun l => (r l).1, flags := fun l => (r l).2 }

/-- UNPK (R143). -/
def execUnpk (h : List Hint) (f : FmtI) (s : State) : Host.Outcome State Fault Refusal :=
  let (t, u, e) := cvtFields f
  let m := fpModeOf h
  perform h s (reservedSet 0x49 f.payload) (fun _ => cvtForm f false false true) (fun _ => false)
    (fun _ => !plain32 t || !narrow u || decide (elemsOf u ≤ 2 * e + 1)) (fun _ _ => none) fun i s =>
    let r (l : Nat) : Nat × Nat :=
      let x := i.at f.one 0 (.elem u) l
      packElems 32 2 fun j => cvtElem m t u ((Ty.ofCode u).elem x (2 * e + j))
    s.vec i { d := f.d.toNat, wide := true, m := i.em, val := fun l => (r l).1, flags := fun l => (r l).2 }

/-! ## Scaling and classes (R144, R145) -/

/-- X × 2^k rounded once to f32 (R144). A k beyond 1,000 in magnitude gives the same result and flags as one of 1,000, since
every non-zero f32 then overflows, or lies below half of the smallest subnormal. -/
def fpLdexp (m : FpMode) (x : Fl) (k : Int) : Nat × Nat :=
  match x with
  | .fin n a e => fpResult f32 m (.fin n a (e + clamp (-1000, 1000) k)) false false 0
  | x => fpResult f32 m x x.isNan false x.nv

/-- LDEXP (R144): source b is an i32. -/
def execLdexp (h : List Hint) (f : FmtV) (s : State) : Host.Outcome State Fault Refusal :=
  let m := fpModeOf h
  simple h s 0x4C f.payload (shF32.form f.d.toNat f.two) fun i s =>
    let r (l : Nat) : Nat × Nat :=
      fpLdexp m ((f32.value (i.at f.two 0 (.elem 14) l)).flush f32 m.ftz) (sx 32 (i.at f.two 1 (.int 32) l))
    s.vec i { d := f.d.toNat, m := i.em, val := fun l => (r l).1, flags := fun l => (r l).2 }

/-- The pair m and k of FREXP as one 64-bit value, and its flags (R144). -/
def fpFrexp (x : Fl) : Nat × Nat :=
  match x with
  | .nan _ => (f32.nan, x.nv)
  | .inf n => (f32.inf n, 0)
  | .fin n a e =>
    if a = 0 then (f32.sign n, 0)
    else
      let k : Int := e + a.log2 + 1
      ((f32.fit {} n a (-((a.log2 : Int) + 1))).1 + 2 ^ 32 * low 32 k, 0)

/-- FREXP (R144). -/
def execFrexp (h : List Hint) (f : FmtV) (s : State) : Host.Outcome State Fault Refusal :=
  let m := fpModeOf h
  simple h s 0x4D f.payload { xmod := xmFtz, routed := true, srcs := f.one, dest := some (f.d.toNat, 2) } fun i s =>
    let r (l : Nat) : Nat × Nat := fpFrexp ((f32.value (i.at f.one 0 (.elem 14) l)).flush f32 m.ftz)
    s.vec i { d := f.d.toNat, wide := true, m := i.em, val := fun l => (r l).1, flags := fun l => (r l).2 }

/-- The class bit of an encoding (R145). -/
def fpClass (F : Fmt) (b : Nat) : Nat :=
  match F.value b with
  | .nan true => 8
  | .nan false => 9
  | .inf n => if n then 0 else 7
  | .fin n a e =>
    if a = 0 then (if n then 3 else 4)
    else if Fl.subnormal F (.fin n a e) then (if n then 2 else 5)
    else if n then 1 else 6

/-- The format of an FCLASS type code (R145). -/
def classFmt (t : Nat) : Fmt := if t = 6 then f16 else if t = 7 then bf16 else if t = 14 then f32 else f64

/-- FCLASS (R145): field b holds the type code. -/
def execFclass (h : List Hint) (f : FmtV) (s : State) : Host.Outcome State Fault Refusal :=
  let t := f.b.toNat % 16
  let F := classFmt t
  perform h s (reservedSet 0x4E f.payload) (fun _ => { routed := true, srcs := f.one, wide := t == 15, dest := some (f.d.toNat, 1) })
    (fun _ => false) (fun _ => !(t == 6 || t == 7 || t == 14 || t == 15)) (fun _ _ => none) fun i s =>
    s.vec i { d := f.d.toNat, m := i.em, val := fun l => 2 ^ fpClass F (i.at f.one 0 (.elem t) l % 2 ^ F.width) }

/-! ## Dot steps (R146) -/

/-- The element types of a dot step: those of the one XIMM word, or a default (R146). -/
def dotTypes (h : List Hint) (dflt : Nat) : Nat × Nat :=
  match ximmsOf h with
  | x :: _ => (bits x 3 0, bits x 7 4)
  | [] => (dflt, dflt)

/-- Whether a dot step's XIMM payload has bits above 7, or names a type outside a list (R146). -/
def dotBad (h : List Hint) (dflt : Nat) (ok : Nat → Bool) : Bool :=
  let (ta, tb) := dotTypes h dflt
  bits (nth (ximmsOf h) 0) 23 8 != 0 || !ok ta || !ok tb

/-- FDOT4 (R146): one rounding of the exact sum; .ftz flushes the accumulator and the result. A constant code as source a or b is clamped into the
element type, in all four elements (log entry 116). -/
def execFdot4 (h : List Hint) (f : FmtT) (s : State) : Host.Outcome State Fault Refusal :=
  let m := fpModeOf h
  let (ta, tb) := dotTypes h 8
  perform h s (reservedSet 0x4A f.payload)
    (fun _ => { ximm := 1, xmod := xmArith, routed := true, srcs := f.three, dest := some (f.d.toNat, 1) }) (fun _ => false)
    (fun _ => dotBad h 8 fun t => decide (8 ≤ t) && decide (t ≤ 11)) (fun _ _ => none) fun i s =>
    let fmt (t : Nat) : Fmt := match Ty.ofCode t with | .flt F => F | _ => f32
    let r (l : Nat) : Nat × Nat :=
      let z := (f32.value (i.at f.three 2 (.elem 14) l)).flush f32 m.ftz
      let a := i.at f.three 0 (.elem ta) l
      let b := i.at f.three 1 (.elem tb) l
      let sum := (List.range 4).foldl (fun (s : Sum) j =>
        s.addMul ((fmt ta).value ((Ty.ofCode ta).elem a j)) ((fmt tb).value ((Ty.ofCode tb).elem b j))) (({} : Sum).add z)
      sum.result f32 m z.nv
    s.vec i { d := f.d.toNat, m := i.em, val := fun l => (r l).1, flags := fun l => (r l).2 }

/-- IDOT4 (R146), a constant code as source a or b as FDOT4's (log entry 116). -/
def execIdot4 (h : List Hint) (f : FmtT) (s : State) : Host.Outcome State Fault Refusal :=
  let (ta, tb) := dotTypes h 0
  perform h s (reservedSet 0x4B f.payload) (fun _ => { ximm := 1, routed := true, srcs := f.three, dest := some (f.d.toNat, 1) })
    (fun _ => false) (fun _ => dotBad h 0 fun t => decide (t ≤ 1)) (fun _ _ => none) fun i s =>
    let num (t w j : Nat) : Int := match (Ty.ofCode t).value ((Ty.ofCode t).elem w j) with | .int z => z | _ => 0
    let r (l : Nat) : Nat :=
      let a := i.at f.three 0 (.elem ta) l
      let b := i.at f.three 1 (.elem tb) l
      low 32 ((List.range 4).foldl (fun acc j => acc + num ta a j * num tb b j) (i.at f.three 2 (.int 32) l : Int))
    s.vec i { d := f.d.toNat, m := i.em, val := r }

/-! ## Row 0x7: special functions (R147 to R149) -/

/-- A special function's shape: .sat and .ftz alone (R134). -/
def FpShape.sf (p : FpShape) : FpShape := { p with xmod := xmSat ||| xmFtz }

/-- RCP (R147, R148). -/
def execRcp (h : List Hint) (f : FmtV) (s : State) : Host.Outcome State Fault Refusal :=
  execFp1 0x70 shF32.sf fpRcp h f s
/-- RSQ (R147, R148). -/
def execRsq (h : List Hint) (f : FmtV) (s : State) : Host.Outcome State Fault Refusal :=
  execFp1 0x71 shF32.sf fpRsq h f s
/-- EXP2 (R147, R148). -/
def execExp2 (h : List Hint) (f : FmtV) (s : State) : Host.Outcome State Fault Refusal :=
  execFp1 0x72 shF32.sf fpExp2 h f s
/-- LOG2 (R147, R148). -/
def execLog2 (h : List Hint) (f : FmtV) (s : State) : Host.Outcome State Fault Refusal :=
  execFp1 0x73 shF32.sf fpLog2 h f s
/-- SINP (R147, R148). -/
def execSinp (h : List Hint) (f : FmtV) (s : State) : Host.Outcome State Fault Refusal :=
  execFp1 0x74 shF32.sf fpSinp h f s
/-- COSP (R147, R148). -/
def execCosp (h : List Hint) (f : FmtV) (s : State) : Host.Outcome State Fault Refusal :=
  execFp1 0x75 shF32.sf fpCosp h f s
/-- TANH (R147, R148). -/
def execTanh (h : List Hint) (f : FmtV) (s : State) : Host.Outcome State Fault Refusal :=
  execFp1 0x76 shF32.sf fpTanh h f s
/-- SIGM (R147, R148). -/
def execSigm (h : List Hint) (f : FmtV) (s : State) : Host.Outcome State Fault Refusal :=
  execFp1 0x77 shF32.sf fpSigm h f s
/-- HRCP (R147, R148). -/
def execHrcp (h : List Hint) (f : FmtV) (s : State) : Host.Outcome State Fault Refusal :=
  execFp1 0x78 shF16.sf fpRcp h f s
/-- HEXP2 (R147, R148). -/
def execHexp2 (h : List Hint) (f : FmtV) (s : State) : Host.Outcome State Fault Refusal :=
  execFp1 0x79 shF16.sf fpExp2 h f s
/-- SFTM (R149). -/
def execSftm (h : List Hint) (f : FmtV) (s : State) : Host.Outcome State Fault Refusal :=
  execFp2 0x7a shF32.sf fpSftm h f s

end Sys2Proof.Machine
end

