-- ==== Sys2Proof/Machine/Integer.lean ====
section
/-! DEFINITION. Rows 0x1 and 0x2: integer arithmetic and bits (R114 to R122). -/
namespace Sys2Proof.Machine

/-- The form of an integer vector instruction: .w64, routes, a destination of one register or a pair (R114, R117, R119). -/
def intForm (h : List Hint) (d : Nat) (srcs : List Src) (ximm : Nat := 0) : Form :=
  { ximm := ximm, xmod := xmW64, routed := true, srcs := srcs, wide := isW64 h, dest := some (d, if isW64 h then 2 else 1) }

/-- An integer instruction of format V with two sources: w-bit operands to a w-bit result and flags (R114, R115). -/
def execInt2 (op : BitVec 8) (fn : Nat → Nat → Nat → Nat) (fl : Nat → Nat → Nat → Nat) (h : List Hint) (f : FmtV) (s : State) :
    Host.Outcome State Fault Refusal :=
  let w := widthOf h
  let x (i : Issue) := i.at f.two 0 (.int w)
  let y (i : Issue) := i.at f.two 1 (.int w)
  simple h s op f.payload (intForm h f.d.toNat f.two) fun i s =>
    s.vec i { d := f.d.toNat, wide := isW64 h, m := i.em, val := fun l => fn w (x i l) (y i l) % 2 ^ w,
              flags := fun l => fl w (x i l) (y i l) }

/-- An integer instruction of format V with one source. -/
def execInt1 (op : BitVec 8) (fn : Nat → Nat → Nat) (h : List Hint) (f : FmtV) (s : State) : Host.Outcome State Fault Refusal :=
  let w := widthOf h
  simple h s op f.payload (intForm h f.d.toNat f.one) fun i s =>
    s.vec i { d := f.d.toNat, wide := isW64 h, m := i.em, val := fun l => fn w (i.at f.one 0 (.int w) l) % 2 ^ w }

/-- No flag (R26). -/
def noFlag (_ _ _ : Nat) : Nat := 0

/-- The signed quotient of R118: all ones for a zero divisor, the dividend where it overflows. -/
def sdiv (w x y : Nat) : Nat :=
  if y = 0 then 2 ^ w - 1
  else if sx w x = -(2 ^ (w - 1) : Nat) ∧ sx w y = -1 then x
  else low w ((sx w x).tdiv (sx w y))
/-- The signed remainder of R118. -/
def srem (w x y : Nat) : Nat :=
  if y = 0 then x
  else if sx w x = -(2 ^ (w - 1) : Nat) ∧ sx w y = -1 then 0
  else low w (sx w x - sx w y * (sx w x).tdiv (sx w y))
/-- The flags of a signed division (R27). -/
def sdivFlag (w x y : Nat) : Nat :=
  if y = 0 then flDZ else if sx w x = -(2 ^ (w - 1) : Nat) ∧ sx w y = -1 then flOV else 0
/-- The unsigned quotient of R118. -/
def udiv (w x y : Nat) : Nat := if y = 0 then 2 ^ w - 1 else x / y
/-- The unsigned remainder of R118. -/
def urem (_ x y : Nat) : Nat := if y = 0 then x else x % y
/-- The flag of an unsigned division (R27). -/
def udivFlag (_ _ y : Nat) : Nat := if y = 0 then flDZ else 0

/-- The number of ones of a w-bit number. -/
def popCount (w x : Nat) : Nat := ((List.range w).filter fun i => x.testBit i).length
/-- The number of zeros above the highest one of a w-bit number; w for 0 (R119). -/
def leadZeros (w x : Nat) : Nat := if x = 0 then w else w - 1 - x.log2
/-- A w-bit number with its bits in reverse order (R119). -/
def bitRev (w x : Nat) : Nat := (List.range w).foldl (fun acc i => if x.testBit i then acc ||| 2 ^ (w - 1 - i) else acc) 0

/-- IADD: x + y (R117). -/
def execIadd (h : List Hint) (f : FmtV) (s : State) : Host.Outcome State Fault Refusal :=
  execInt2 0x10 (fun _ x y => x + y) noFlag h f s
/-- ISUB: x - y (R117). -/
def execIsub (h : List Hint) (f : FmtV) (s : State) : Host.Outcome State Fault Refusal :=
  execInt2 0x11 (fun w x y => x + 2 ^ w - y) noFlag h f s
/-- IMUL: x × y (R117). -/
def execImul (h : List Hint) (f : FmtV) (s : State) : Host.Outcome State Fault Refusal :=
  execInt2 0x12 (fun _ x y => x * y) noFlag h f s
/-- IMULH: the high half of the signed product (R117). -/
def execImulh (h : List Hint) (f : FmtV) (s : State) : Host.Outcome State Fault Refusal :=
  execInt2 0x13 (fun w x y => low w (sx w x * sx w y / (2 ^ w : Nat))) noFlag h f s
/-- NMULH: the high half of the unsigned product (R117). -/
def execNmulh (h : List Hint) (f : FmtV) (s : State) : Host.Outcome State Fault Refusal :=
  execInt2 0x14 (fun w x y => x * y / 2 ^ w) noFlag h f s
/-- IDIV: signed quotient (R118) (R117). -/
def execIdiv (h : List Hint) (f : FmtV) (s : State) : Host.Outcome State Fault Refusal :=
  execInt2 0x16 (sdiv) sdivFlag h f s
/-- NDIV: unsigned quotient (R118) (R117). -/
def execNdiv (h : List Hint) (f : FmtV) (s : State) : Host.Outcome State Fault Refusal :=
  execInt2 0x17 (udiv) udivFlag h f s
/-- IREM: signed remainder (R118) (R117). -/
def execIrem (h : List Hint) (f : FmtV) (s : State) : Host.Outcome State Fault Refusal :=
  execInt2 0x18 (srem) sdivFlag h f s
/-- NREM: unsigned remainder (R118) (R117). -/
def execNrem (h : List Hint) (f : FmtV) (s : State) : Host.Outcome State Fault Refusal :=
  execInt2 0x19 (urem) udivFlag h f s
/-- IMIN: the smaller, signed (R117). -/
def execImin (h : List Hint) (f : FmtV) (s : State) : Host.Outcome State Fault Refusal :=
  execInt2 0x1A (fun w x y => if sx w x ≤ sx w y then x else y) noFlag h f s
/-- IMAX: the larger, signed (R117). -/
def execImax (h : List Hint) (f : FmtV) (s : State) : Host.Outcome State Fault Refusal :=
  execInt2 0x1B (fun w x y => if sx w y ≤ sx w x then x else y) noFlag h f s
/-- NMIN: the smaller, unsigned (R117). -/
def execNmin (h : List Hint) (f : FmtV) (s : State) : Host.Outcome State Fault Refusal :=
  execInt2 0x1C (fun _ x y => if x ≤ y then x else y) noFlag h f s
/-- NMAX: the larger, unsigned (R117). -/
def execNmax (h : List Hint) (f : FmtV) (s : State) : Host.Outcome State Fault Refusal :=
  execInt2 0x1D (fun _ x y => if y ≤ x then x else y) noFlag h f s
/-- IMAD: x × y + z (R117). -/
def execImad (h : List Hint) (f : FmtT) (s : State) : Host.Outcome State Fault Refusal :=
  let w := widthOf h
  let v (i : Issue) (n : Nat) := i.at f.three n (.int w)
  simple h s 0x15 f.payload (intForm h f.d.toNat f.three) fun i s =>
    s.vec i { d := f.d.toNat, wide := isW64 h, m := i.em, val := fun l => (v i 0 l * v i 1 l + v i 2 l) % 2 ^ w }
/-- IABS: the magnitude, -2^(w-1) kept (R117). -/
def execIabs (h : List Hint) (f : FmtV) (s : State) : Host.Outcome State Fault Refusal :=
  execInt1 0x1E (fun w x => if sx w x < 0 then 2 ^ w - x else x) h f s
/-- INEG: -x (R117). -/
def execIneg (h : List Hint) (f : FmtV) (s : State) : Host.Outcome State Fault Refusal :=
  execInt1 0x1F (fun w x => 2 ^ w - x) h f s
/-- AND (R119). -/
def execAndL (h : List Hint) (f : FmtV) (s : State) : Host.Outcome State Fault Refusal :=
  execInt2 0x20 (fun _ x y => x &&& y) noFlag h f s
/-- OR (R119). -/
def execOrL (h : List Hint) (f : FmtV) (s : State) : Host.Outcome State Fault Refusal :=
  execInt2 0x21 (fun _ x y => x ||| y) noFlag h f s
/-- XOR (R119). -/
def execXorL (h : List Hint) (f : FmtV) (s : State) : Host.Outcome State Fault Refusal :=
  execInt2 0x22 (fun _ x y => x ^^^ y) noFlag h f s
/-- ANDN: x and not y (R119). -/
def execAndn (h : List Hint) (f : FmtV) (s : State) : Host.Outcome State Fault Refusal :=
  execInt2 0x23 (fun w x y => x &&& (2 ^ w - 1 - y)) noFlag h f s
/-- SHL: x × 2^n, n = y mod w (R119). -/
def execShl (h : List Hint) (f : FmtV) (s : State) : Host.Outcome State Fault Refusal :=
  execInt2 0x24 (fun w x y => x * 2 ^ (y % w)) noFlag h f s
/-- SHRL: x div 2^n (R119). -/
def execShrl (h : List Hint) (f : FmtV) (s : State) : Host.Outcome State Fault Refusal :=
  execInt2 0x25 (fun w x y => x / 2 ^ (y % w)) noFlag h f s
/-- SHRA: the signed x div 2^n, rounded down (R119). -/
def execShra (h : List Hint) (f : FmtV) (s : State) : Host.Outcome State Fault Refusal :=
  execInt2 0x26 (fun w x y => low w (sx w x / (2 ^ (y % w) : Nat))) noFlag h f s
/-- ROTL: x rotated left by n (R119). -/
def execRotl (h : List Hint) (f : FmtV) (s : State) : Host.Outcome State Fault Refusal :=
  execInt2 0x27 (fun w x y => x * 2 ^ (y % w) ||| x / 2 ^ (w - y % w)) noFlag h f s
/-- The form of BFX and BFI: no XMOD, no XIMM (R119). -/
def fieldForm (f : FmtI) : Form := { routed := true, srcs := f.one, dest := some (f.d.toNat, 1) }

/-- BFX: width bits of x from pos, zero-extended (R120). -/
def execBfx (h : List Hint) (f : FmtI) (s : State) : Host.Outcome State Fault Refusal :=
  let pos := bits f.imm.toNat 4 0
  let width := bits f.imm.toNat 10 5
  perform h s false (fun _ => fieldForm f) (fun _ => false) (fun _ => decide (32 < width)) (fun _ _ => none) fun i s =>
    s.vec i { d := f.d.toNat, m := i.em, val := fun l => i.at f.one 0 (.int 32) l / 2 ^ pos % 2 ^ width }

/-- BFI: width bits of x put into the destination's previous value at pos, cut off at bit 31 (R120). -/
def execBfi (h : List Hint) (f : FmtI) (s : State) : Host.Outcome State Fault Refusal :=
  let pos := bits f.imm.toNat 4 0
  let width := bits f.imm.toNat 10 5
  let mask := (2 ^ width - 1) * 2 ^ pos % 2 ^ 32
  perform h s false (fun _ => fieldForm f) (fun _ => false) (fun _ => decide (32 < width)) (fun _ _ => none) fun i s =>
    s.vec i { d := f.d.toNat, m := i.em, val := fun l =>
      let old := (i.g.vreg f.d.toNat l).toNat
      (old &&& (2 ^ 32 - 1 - mask)) ||| (i.at f.one 0 (.int 32) l * 2 ^ pos &&& mask) }
/-- POPC (R119). -/
def execPopc (h : List Hint) (f : FmtV) (s : State) : Host.Outcome State Fault Refusal :=
  execInt1 0x2A (popCount) h f s
/-- CLZ (R119). -/
def execClz (h : List Hint) (f : FmtV) (s : State) : Host.Outcome State Fault Refusal :=
  execInt1 0x2B (leadZeros) h f s
/-- BREV (R119). -/
def execBrev (h : List Hint) (f : FmtV) (s : State) : Host.Outcome State Fault Refusal :=
  execInt1 0x2C (bitRev) h f s
/-- MOV (R119). -/
def execMov (h : List Hint) (f : FmtV) (s : State) : Host.Outcome State Fault Refusal :=
  execInt1 0x2F (fun _ x => x) h f s
/-- The bit of BOOL3's table for bits of a, b and c (R122). -/
def bool3 (t w x y z : Nat) : Nat :=
  (List.range w).foldl (fun acc i =>
    if t.testBit ((if x.testBit i then 1 else 0) + (if y.testBit i then 2 else 0) + (if z.testBit i then 4 else 0))
    then acc ||| 2 ^ i else acc) 0

/-- BOOL3: any function of three bits, its table in the one XIMM word (R122). -/
def execBool3 (h : List Hint) (f : FmtT) (s : State) : Host.Outcome State Fault Refusal :=
  let w := widthOf h
  let t := nth (ximmsOf h) 0
  let v (i : Issue) (n : Nat) := i.at f.three n (.int w)
  perform h s false (fun _ => intForm h f.d.toNat f.three 1) (fun _ => false)
    (fun _ => (ximmsOf h).isEmpty || bits t 23 8 != 0) (fun _ _ => none) fun i s =>
    s.vec i { d := f.d.toNat, wide := isW64 h, m := i.em, val := fun l => bool3 t w (v i 0 l) (v i 1 l) (v i 2 l) }

/-- IADDI: x and the immediate (R119, R62). -/
def execIaddi (h : List Hint) (f : FmtI) (s : State) : Host.Outcome State Fault Refusal :=
  let w := widthOf h
  simple h s 0x2E f.payload (intForm h f.d.toNat f.one 2) fun i s =>
    s.vec i { d := f.d.toNat, wide := isW64 h, m := i.em,
              val := fun l => low w ((i.at f.one 0 (.int w) l : Int) + imm11Of h f.imm.toNat) }

end Sys2Proof.Machine
end

