-- ==== Sys2Proof/Machine/RegEvents.lean ====
section
/-! DEFINITION. Reads and writes of the management registers (R401, R411): what a read returns and clears, and what a write does by each
field's code and the register's own rule. -/
namespace Sys2Proof.Machine

/-! ## Reads -/

/-- The fields of a register that a read of 0 returns as 1, by their low bit (R228, R260, R261, R355). -/
def Reg.oneFields : Reg → List (Nat × Nat)
  | .barCfg _ => [(15, 0)]
  | .tskCfg _ => [(31, 16)]
  | .hlyXcluMin _ => [(9, 0)]
  | .hlyXdieMin _ => [(9, 0)]
  | .nocCfg _ => [(47, 40)]
  | _ => []

/-- The state code of a context (R319). -/
def CtxState.code : CtxState → Nat
  | .free => 0 | .opened => 1 | .releasing => 2 | .closing => 3 | .scrubbing => 4

/-- The state code of a link (R358). -/
def LinkState.code : LinkState → Nat
  | .down => 0 | .training => 1 | .up => 2 | .retry => 3

/-- The fields of a register that show other state (R260, R296, R318, R319, R343, R358, R408 to R410). -/
def State.shown (s : State) (r : Reg) : Nat :=
  match r with
  | .tskStat c => (s.core c).deque.length + 2 ^ 16 * (s.core c).inbound.length
  | .tleStat c => if (s.core c).tileOps.any (·.started) then 2 ^ 48 else 0
  | .coreSens c => 2 ^ 8 * min 255 (s.droopCount c)
  | .krnStat => s.kernels.length
  | .ctxCtl n => 2 ^ 4 * (s.ctx n).state.code
  | .pgeCmdStat => s.pageCmds.length
  | .portCtl d j => 2 * (s.link (6 * d + j)).state.code
  | .fwStat => (s.fwStatValue ^^^ s.reg .fwStat).toNat
  | .dbgStat => if s.dbgCmd.isSome then 1 else 0
  | .dbgEvt => ((s.dbgEvents.head?).map fun e => e.word.toNat).getD 0
  | _ => 0

/-- What a read of a register returns. -/
def State.regValue (s : State) (r : Reg) : DWord :=
  let v := s.reg r
  let v := (r.oneFields).foldl (fun v (hi, lo) => if bits v.toNat hi lo = 0 then v ||| BitVec.ofNat 64 (2 ^ lo) else v) v
  v ||| BitVec.ofNat 64 (s.shown r)

/-- A host reads a register: the value, and its RC fields are cleared (R411). -/
def State.regRead (s : State) (port : Nat) (r : Reg) : State :=
  (s.hostReads port (s.regValue r)).setReg r (s.reg r &&& ~~~ r.rcMask)

/-- BAR_STAT_READ (R228, R411). -/
def execBarStatRead (s : State) : Host.Outcome State Fault Refusal :=
  s.hostTurn .barStatRead fun s => s.regRead (s.arg.port % 2) (.barStat (s.arg.id % 8))
/-- TSK_STAT_READ (R260, R411). -/
def execTskStatRead (s : State) : Host.Outcome State Fault Refusal :=
  s.hostTurn .tskStatRead fun s => s.regRead (s.arg.port % 2) (.tskStat (s.arg.core % 1536))
/-- TLE_STAT_READ (R296, R411). -/
def execTleStatRead (s : State) : Host.Outcome State Fault Refusal :=
  s.hostTurn .tleStatRead fun s => s.regRead (s.arg.port % 2) (.tleStat (s.arg.core % 1536))
/-- NOC_STAT_READ (R355, R411). -/
def execNocStatRead (s : State) : Host.Outcome State Fault Refusal :=
  s.hostTurn .nocStatRead fun s => s.regRead (s.arg.port % 2) (.nocStat (s.arg.id % 8))
/-- KRN_STAT_READ (R318, R411). -/
def execKrnStatRead (s : State) : Host.Outcome State Fault Refusal :=
  s.hostTurn .krnStatRead fun s => s.regRead (s.arg.port % 2) .krnStat
/-- LNK_PORT_STAT_READ (R358, R411). -/
def execLnkPortStatRead (s : State) : Host.Outcome State Fault Refusal :=
  s.hostTurn .lnkPortStatRead fun s => s.regRead (s.arg.port % 2) (.portStat (s.arg.id % 48 / 6) (s.arg.id % 48 % 6))
/-- LNY_STAT_READ (R362, R411): of the port named by the id operand. -/
def execLnyStatRead (s : State) : Host.Outcome State Fault Refusal :=
  s.hostTurn .lnyStatRead fun s => s.regRead (s.arg.port % 2) (.lnyStat (s.arg.id % 2))

/-! ## Writes -/

/-- The value of a register after a write of its RW and WC fields by their codes (R411). -/
def State.written (s : State) (r : Reg) (v : DWord) : DWord :=
  ((s.reg r &&& ~~~ r.rwMask) ||| (v &&& r.rwMask)) &&& ~~~ (v &&& r.wcMask)

/-- A write whose field hi to lo keeps its value where a test refuses the new one. -/
def State.keepField (s : State) (r : Reg) (hi lo : Nat) (ok : Nat → Bool) (v : DWord) : DWord :=
  if ok (bits v.toNat hi lo) then v else (v &&& ~~~ regMask hi lo) ||| (s.reg r &&& regMask hi lo)

/-- A plain write of a register (R411). -/
def State.plainWrite (s : State) (r : Reg) (v : DWord) : State := s.setReg r (s.written r v)

/-- Whether a context's register is written only while the context is FREE (R319, R332). -/
def State.ctxWrite (s : State) (n : Nat) (r : Reg) (v : DWord) : State := if (s.ctx n).state == .free then s.plainWrite r v else s

/-- CTX_CTL: OVERLAP, then the command (R319, R320). -/
def State.ctxCtlWrite (s : State) (n : Nat) (v : DWord) : State :=
  let s := s.plainWrite (.ctxCtl n) v
  let cmd := bits v.toNat 1 0
  if cmd = 0 then s else s.ctxCommand n cmd

/-- QUE_CTL (R297, R298). -/
def State.queCtlWrite (s : State) (q : Nat) (v : DWord) : State :=
  if s.fld (.queCtl q) 11 11 = 1 then (if v.getLsbD 11 then s.queueRun q v else s.queueDisable q v)
  else if v.getLsbD 11 then s.queueEnable q v
  else if 6 ≤ bits v.toNat 4 0 ∧ bits v.toNat 4 0 ≤ 16 then s.plainWrite (.queCtl q) v
  else s

/-- QLINK_CFG (R303): a write clears COUNT, since it writes EN. -/
def State.qlinkWrite (s : State) (n : Nat) (v : DWord) : State := (s.plainWrite (.qlinkCfg n) v).setFld (.qlinkCnt n) 31 0 0

/-- KRN_CANCEL (R315, R318). -/
def State.cancelWrite (s : State) (v : DWord) : State :=
  if v.getLsbD 32 then s.cancelRegion (bits v.toNat 31 0) else s.cancelKernel (bits v.toNat 31 0)

/-- PGE_CMD_GO (R343): the command is queued, or counted as lost behind 16 others. -/
def State.pageGo (s : State) (v : DWord) : State :=
  let op := bits v.toNat 2 0
  if op = 0 ∨ 5 < op then s
  else if 16 ≤ s.pageCmds.length then s.setFld .pgeCmdStat 5 5 1
  else
    let (id, s) := s.fresh
    { s with pageCmds := s.pageCmds ++
        [{ id := id, op := op, ctx := bits v.toNat 9 4, a := s.reg .pgeCmdA, b := s.reg .pgeCmdB, tag := s.reg .pgeCmdTag }] }

/-- LNK_PORT_CTL (R348, R358). -/
def State.portWrite (s : State) (n : Nat) (v : DWord) : State := if v.getLsbD 0 then s.trainStart n v else s.linkDisable n v

/-- FW_CTL (R404, R406, R409): RESET, or FST and HAND. -/
def State.fwCtlWrite (s : State) (v : DWord) : State :=
  let s := s.plainWrite .fwCtl v
  if v.getLsbD 0 then s.partReset else if v.getLsbD 2 then s.handoverStart else s

/-- DBG_CMD (R410). -/
def State.dbgWrite (s : State) (port : Nat) (v : DWord) : State :=
  if s.dbgCmd.isSome then s
  else match dbgOp v with
    | 1 => s.dbgCommand port v 1 State.dbgHalt
    | 2 => s.dbgCommand port v 2 State.dbgRelease
    | 3 => s.dbgCommand port v 3 State.dbgStep
    | 4 => s.dbgCommand port v 4 State.dbgCancel
    | 5 => s.dbgCommand port v 5 State.dbgDump
    | 6 => s.dbgCommand port v 6 State.dbgLoad
    | _ => s

/-- A write to a register by a port: its own rule, or each field by its code (R411). -/
def State.writeReg (s : State) (port : Nat) (r : Reg) (v : DWord) : State :=
  match r with
  | .spadSplit c => s.spadSplitWrite c v
  | .cpeKick c => s.cpeKick c v
  | .stgDepth c => s.plainWrite r (s.keepField (.stgDepth c) 2 0 (fun n => decide (1 ≤ n) && decide (n ≤ 4)) v)
  | .nocCfg _ => s.plainWrite r (s.keepField r 7 0 (fun n => decide (32 ≤ n)) v)
  | .portCtl d j => s.portWrite (6 * d + j) v
  | .nqTail p => (s.plainWrite r v).flushNotices p ((Bank.lookD s.notices p []).length)
  | .ordCtl n => (s.plainWrite r (s.keepField r 1 0 (· != 3) v)).applyMode n
  | .queBase q => if s.fld (.queCtl q) 11 11 = 1 then s else s.plainWrite r v
  | .queCtl q => s.queCtlWrite q v
  | .queDb q =>
    if s.queState q = 1 then (s.startPoll q).readSlot q
    else if s.queState q = 2 then s.readSlot q else s
  | .qlinkCfg n => s.qlinkWrite n v
  | .krnCancel => s.cancelWrite v
  | .semOwner => s.semRelease port v
  | .ctxCtl n => s.ctxCtlWrite n v
  | .ctxCluLo n => s.ctxWrite n r v
  | .ctxCluHi n => s.ctxWrite n r v
  | .ctxIa n => s.ctxWrite n r v
  | .ctxIaSize n => s.ctxWrite n r v
  | .ctxPt n => s.ctxWrite n r v
  | .ctxFq n => s.ctxWrite n r v
  | .ctxCsp n => s.ctxWrite n r v
  | .ctxSpad n => s.ctxWrite n r v
  | .ctxPge n =>
    let v := s.keepField r 7 0 (· != 0) v
    s.ctxWrite n r (s.keepField r 40 24 (fun x => decide (100 ≤ x) && decide (x ≤ 100000)) v)
  | .pgeCmdGo => s.pageGo v
  | .pgeRingTail => (s.plainWrite r v).flushRing s.ringHeld.length
  | .fwCtl => s.fwCtlWrite v
  | .fwImg => s.fwImage v
  | .reefLimit => s.plainWrite r (s.keepField r 11 0 (fun n => decide (500 ≤ n) && decide (n ≤ 3000)) v)
  | .dbgCmd => s.dbgWrite port v
  | .dbgAttach => s.dbgAttachWrite v
  | _ => s.plainWrite r v

/-- REGISTER_WRITE (R323, R401, R411): an aligned 8-byte write that reaches a register; a control register's takes effect from the holder of
SEM_OWNER alone. -/
def State.registerWrite (s : State) (port addr size : Nat) (v : DWord) : State :=
  if size ≠ 8 then s
  else match Reg.ofAddr addr with
    | none => s
    | some r => if r.control then s.control port fun s => s.writeReg port r v else s.writeReg port r v

/-- REGISTER_WRITE. -/
def execRegisterWrite (s : State) : Host.Outcome State Fault Refusal :=
  s.hostTurn .registerWrite fun s => s.registerWrite (s.arg.port % 2) s.arg.addr s.arg.size s.arg.v

/-- A host's read of BAR 0 (R323, R401, R406, R410, R411): of a register, which some reads change; anything but an aligned 8-byte read of one
returns all ones. -/
def State.barRead (s : State) (port addr size : Nat) : State :=
  match (if size = 8 then Reg.ofAddr addr else none) with
  | none => s.hostReads port (BitVec.allOnes 64)
  | some r =>
    match r with
    | .semOwner => s.semAcquire port
    | .fwStat => s.fwStatRead port
    | .dbgEvt => s.dbgEvtRead port
    | r => s.regRead port r

end Sys2Proof.Machine
end

