-- ==== Sys2Proof/Machine/Route.lean ====
section
/-! DEFINITION. Row 0x6: the q registers, lane keys, BALANCE, gather and scatter over registers, scans, reductions and COMPACT
(R150 to R166). -/
namespace Sys2Proof.Machine

/-! ## QSET and QGET (R156) -/

/-- QSET (R156). -/
def execQset (h : List Hint) (f : FmtU) (s : State) : Host.Outcome State Fault Refusal :=
  perform h s (reservedSet 0x60 f.payload) (fun _ => {}) (fun i => qBad ((i.g.sreg f.sa.toNat).toNat % 65536))
    (fun _ => f.sd == 0 || decide (4 ≤ f.sd.toNat)) (fun _ _ => none) fun i s =>
    s.retire i (i.g.setQ f.sd.toNat ((i.g.sreg f.sa.toNat).truncate 16)) i.next false

/-- QGET (R156). -/
def execQget (h : List Hint) (f : FmtU) (s : State) : Host.Outcome State Fault Refusal :=
  perform h s (reservedSet 0x61 f.payload) (fun _ => {}) (fun _ => false) (fun _ => decide (4 ≤ f.sa.toNat))
    (fun _ _ => none) fun i s =>
    s.retire i (i.g.setS f.sd.toNat ((i.g.qreg f.sa.toNat).zeroExtend 64)) i.next false

/-! ## MATCH, RANK, BALANCE (R157 to R159) -/

/-- MATCH (R157): the mask of the active lanes that hold the lane's value, in a pair. -/
def execMatchL (h : List Hint) (f : FmtV) (s : State) : Host.Outcome State Fault Refusal :=
  let k : Kind := .int (widthOf h)
  simple h s 0x62 f.payload
    { xmod := xmW64, routed := true, srcs := f.one, wide := isW64 h, dest := some (f.d.toNat, 2) } fun i s =>
    let x (l : Nat) : Nat := i.at f.one 0 k l
    s.vec i { d := f.d.toNat, wide := true, m := i.em
              val := fun l => (maskOf fun j => i.em.getLsbD j && x j == x l).toNat }

/-- RANK (R158): the number of lower active lanes that hold the lane's value. -/
def execRank (h : List Hint) (f : FmtV) (s : State) : Host.Outcome State Fault Refusal :=
  let k : Kind := .int (widthOf h)
  simple h s 0x63 f.payload
    { xmod := xmW64, routed := true, srcs := f.one, wide := isW64 h, dest := some (f.d.toNat, if isW64 h then 2 else 1) }
    fun i s =>
    let x (l : Nat) : Nat := i.at f.one 0 k l
    s.vec i { d := f.d.toNat, wide := isW64 h, m := i.em
              val := fun l => ((lanesOf i.em).filter fun j => decide (j < l) && x j == x l).length }

/-- The starts of rows laid end to end: lane, start, length, from a total (R159). -/
def rowStarts (x : Nat → Nat) : List Nat → Nat → List (Nat × Nat × Nat)
  | [], _ => []
  | j :: t, n => (j, n, x j) :: rowStarts x t (n + x j)

/-- The row and the offset of item g as a pair's value: all ones where no row holds it (R159). -/
def balanceItem (rows : List (Nat × Nat × Nat)) (g : Nat) : Nat :=
  match rows.find? fun (_, st, n) => decide (st ≤ g) && decide (g < st + n) with
  | some (j, st, _) => j + 2 ^ 32 * (g - st)
  | none => 2 ^ 64 - 1

/-- The cursor of BALANCE: s0 to s31 or an integer constant, as n32 (R159). -/
def Group.cursor (g : Group) (b : Nat) : Nat :=
  if b < 104 then (g.sreg (b - 72)).toNat % 2 ^ 32 else low 32 (constInt b)

/-- BALANCE (R159). A spec for b that is not straight is an ILLEGAL_HINT (log entry 117). -/
def execBalance (h : List Hint) (f : FmtV) (s : State) : Host.Outcome State Fault Refusal :=
  let b := f.b.toNat
  perform h s (reservedSet 0x64 f.payload) (fun _ => { routed := true, srcs := f.one, dest := some (f.d.toNat, 2) })
    (fun _ => false) (fun _ => !((decide (72 ≤ b) && decide (b < 104)) || (decide (112 ≤ b) && decide (b < 120))))
    (fun _ _ => none) fun i s =>
    let rows := rowStarts (fun l => i.at f.one 0 (.int 32) l) (lanesOf i.em) 0
    s.vec i { d := f.d.toNat, wide := true, m := i.em
              val := fun l => balanceItem rows (i.g.cursor b + (lanesOf i.em).idxOf l) }

/-! ## XSEL and XPUT (R160 to R162) -/

/-- The base register of imm11 (R160). -/
def rangeBase (imm : Nat) : Nat := bits imm 5 0
/-- The registers of imm11's range (R160). -/
def rangeSize (imm : Nat) : Nat := 2 ^ bits imm 7 6
/-- Whether a register range is misaligned or outside the allocation (R160). -/
def Group.rangeBad (g : Group) (imm : Nat) : Bool :=
  rangeBase imm % rangeSize imm != 0
    || (List.range (rangeSize imm)).any fun k => rangeBase imm + k != 63 && decide (g.nv ≤ rangeBase imm + k)
/-- The register that an index names (R160). -/
def rangeReg (imm x : Nat) : Nat := rangeBase imm + bits x 8 6 % rangeSize imm
/-- The lane that an index names (R160). -/
def rangeLane (x : Nat) : Nat := bits x 5 0

/-- XSEL (R161). -/
def execXsel (h : List Hint) (f : FmtI) (s : State) : Host.Outcome State Fault Refusal :=
  let imm := f.imm.toNat
  perform h s (reservedSet 0x65 f.payload)
    (fun _ => { routed := true, srcs := f.one, dest := some (f.d.toNat, 1), fillAlways := true }) (fun _ => false)
    (fun i => i.g.rangeBad imm) (fun _ _ => none) fun i s =>
    let fill := match xrtcsOf h with
      | p :: _ => bits p 11 10
      | [] => 0
    let val (l : Nat) : Nat :=
      let x := i.at f.one 0 (.int 32) l
      let r := rangeReg imm x
      if i.em.getLsbD (rangeLane x) then (i.g.vreg r (rangeLane x)).toNat else fillOf fill false (i.g.vreg r l).toNat
    s.vec i { d := f.d.toNat, m := i.em, val := val }

/-- Writes one lane of a register, in lane order so that a later lane overwrites (R162). -/
def Group.putLane (g : Group) (r l : Nat) (v : Word) : Group := g.setV r (1#64 <<< l) fun _ => v

/-- XPUT (R162). -/
def execXput (h : List Hint) (f : FmtI) (s : State) : Host.Outcome State Fault Refusal :=
  let imm := f.imm.toNat
  perform h s (reservedSet 0x66 f.payload) (fun _ => { routed := true, srcs := f.one }) (fun _ => false)
    (fun i => i.g.rangeBad imm || i.g.srcBad f.d.toNat false) (fun _ _ => none) fun i s =>
    let g := (lanesOf i.em).foldl (fun g l =>
      let x := i.at f.one 0 (.int 32) l
      if i.em.getLsbD (rangeLane x) then g.putLane (rangeReg imm x) (rangeLane x) (i.g.vreg f.d.toNat l) else g) i.g
    s.retire i g i.next false

/-! ## Scans and reductions (R45, R46, R163 to R165) -/

/-- How lanes combine: two values with the flags of the combination, and the identity (R45). -/
structure Combiner where
  op : Nat → Nat → Nat × Nat
  unit : Nat

/-- The integer combinations of R163 on 32-bit values. -/
def intCombiner (op : Nat) : Combiner :=
  let plain (fn : Nat → Nat → Nat) (e : Nat) : Combiner := { op := fun x y => (fn x y, 0), unit := e }
  match op with
  | 0 => plain (fun x y => (x + y) % 2 ^ 32) 0
  | 1 => plain (fun x y => x &&& y) (2 ^ 32 - 1)
  | 2 => plain (fun x y => x ||| y) 0
  | 3 => plain (fun x y => x ^^^ y) 0
  | 4 => plain (fun x y => if sx 32 y < sx 32 x then y else x) (2 ^ 31 - 1)
  | 5 => plain (fun x y => if sx 32 x < sx 32 y then y else x) (2 ^ 31)
  | 6 => plain min (2 ^ 32 - 1)
  | _ => plain max 0

/-- The f32 combinations of R163, rounded and flagged in the mode (R164). -/
def floatCombiner (m : FpMode) (op : Nat) : Combiner :=
  match op with
  | 0 => { op := fun x y => fpAdd f32 m ((f32.value x).flush f32 m.ftz) ((f32.value y).flush f32 m.ftz), unit := f32.sign true }
  | 1 => { op := fun x y => fpMinMax f32 m false x y, unit := f32.inf false }
  | _ => { op := fun x y => fpMinMax f32 m true x y, unit := f32.inf true }

/-- A value that no combination formed, as R38 and R40 write it: flushed under .ftz, a NaN canonical. -/
def floatLeaf (m : FpMode) (x : Nat) : Nat :=
  let v := f32.value x
  if v.isNan then f32.nan else if m.ftz && v.subnormal f32 then f32.sign v.neg else x

/-- Combines two nodes: the value, and the flags of every combination beneath it. -/
def Combiner.join (c : Combiner) (x y : Nat × Nat) : Nat × Nat :=
  let (v, fl) := c.op x.1 y.1
  (v, fl ||| x.2 ||| y.2)

/-- The next level of the tree (R45). -/
def Combiner.level (c : Combiner) : List (Nat × Nat) → List (Nat × Nat)
  | x :: y :: t => c.join x y :: c.level t
  | l => l

/-- The levels of the tree above one, up to n of them, the lowest first (R45). -/
def Combiner.levels (c : Combiner) : Nat → List (Nat × Nat) → List (List (Nat × Nat))
  | 0, l => [l]
  | n + 1, l => l :: c.levels n (c.level l)

/-- The tree over the lanes: level 0 the lanes, level 6 the root (R45). -/
def Combiner.tree (c : Combiner) (m : DWord) (x : Nat → Nat) : List (List (Nat × Nat)) :=
  c.levels 6 (allLanes.map fun l => (if m.getLsbD l then x l else c.unit, 0))

/-- The root of a tree. -/
def Combiner.root (c : Combiner) (t : List (List (Nat × Nat))) : Nat × Nat := ((t.getD 6 []).head?).getD (c.unit, 0)

/-- The inclusive result over the first n lanes: the aligned nodes of n's set bits from the top down, combined in that order
(R46). The arguments: the bits left, the first lane not covered, and the value so far. -/
def Combiner.prefixFrom (c : Combiner) (t : List (List (Nat × Nat))) (n : Nat) : Nat → Nat → Option (Nat × Nat) → Option (Nat × Nat)
  | 0, _, acc => acc
  | b + 1, pos, acc =>
    if n.testBit b then
      let node := ((t.getD b []).getD (pos / 2 ^ b) (c.unit, 0))
      let acc := match acc with
        | none => node
        | some a => c.join a node
      c.prefixFrom t n b (pos + 2 ^ b) (some acc)
    else c.prefixFrom t n b pos acc

/-- The result of a scan in a lane (R46, R164): of .ex, the inclusive result of the lane below, the identity in lane 0. -/
def Combiner.scanAt (c : Combiner) (t : List (List (Nat × Nat))) (ex : Bool) (l : Nat) : Nat × Nat :=
  (c.prefixFrom t (if ex then l else l + 1) 7 0 none).getD (c.unit, 0)

/-- op of the function field (R163). -/
def scanOp (f : FmtV) : Nat := f.b.toNat % 8
/-- ex of the function field (R163). -/
def scanEx (f : FmtV) : Bool := f.b.getLsbD 3

/-- SCAN (R164). -/
def execScan (h : List Hint) (f : FmtV) (s : State) : Host.Outcome State Fault Refusal :=
  simple h s 0x67 f.payload { routed := true, srcs := f.one, dest := some (f.d.toNat, 1) } fun i s =>
    let c := intCombiner (scanOp f)
    let t := c.tree i.em fun l => i.at f.one 0 (.int 32) l
    s.vec i { d := f.d.toNat, m := i.em, val := fun l => (c.scanAt t (scanEx f) l).1 }

/-- RED (R165). -/
def execRed (h : List Hint) (f : FmtV) (s : State) : Host.Outcome State Fault Refusal :=
  simple h s 0x68 f.payload { routed := true, srcs := f.one } fun i s =>
    let c := intCombiner (scanOp f)
    let v := (c.root (c.tree i.em fun l => i.at f.one 0 (.int 32) l)).1
    s.retire i (i.g.setS f.d.toNat (BitVec.ofNat 64 v)) i.next false

/-- The XMOD bits of FSCAN and FRED: .nanp goes with .min and .max (R163). -/
def fscanXmod (f : FmtV) : Nat := xmRound ||| xmFtz ||| (if scanOp f = 0 then 0 else xmNanp)

/-- FSCAN (R164). -/
def execFscan (h : List Hint) (f : FmtV) (s : State) : Host.Outcome State Fault Refusal :=
  perform h s (reservedSet 0x69 f.payload)
    (fun _ => { xmod := fscanXmod f, routed := true, srcs := f.one, dest := some (f.d.toNat, 1) }) (fun _ => false)
    (fun _ => decide (3 ≤ scanOp f)) (fun _ _ => none) fun i s =>
    let m := fpModeOf h
    let c := floatCombiner m (scanOp f)
    let t := c.tree i.em fun l => i.at f.one 0 (.elem 14) l
    s.vec i { d := f.d.toNat, m := i.em, val := fun l => floatLeaf m (c.scanAt t (scanEx f) l).1
              flags := fun l => (c.scanAt t (scanEx f) l).2 }

/-- FRED (R165): its trap mask holds every active lane. -/
def execFred (h : List Hint) (f : FmtV) (s : State) : Host.Outcome State Fault Refusal :=
  perform h s (reservedSet 0x6A f.payload) (fun _ => { xmod := fscanXmod f, routed := true, srcs := f.one }) (fun _ => false)
    (fun _ => decide (3 ≤ scanOp f)) (fun _ _ => none) fun i s =>
    let c := floatCombiner (fpModeOf h) (scanOp f)
    let r := c.root (c.tree i.em fun l => i.at f.one 0 (.elem 14) l)
    s.settle i (i.g.setS f.d.toNat (BitVec.ofNat 64 r.1)) i.em fun _ => r.2

/-! ## COMPACT (R166) -/

/-- COMPACT (R166). -/
def execCompact (h : List Hint) (f : FmtV) (s : State) : Host.Outcome State Fault Refusal :=
  let k : Kind := .int (widthOf h)
  simple h s 0x6B f.payload
    { xmod := xmW64, routed := true, srcs := f.one, wide := isW64 h, dest := some (f.d.toNat, if isW64 h then 2 else 1) }
    fun i s =>
    let p := i.g.preg (f.b.toNat % 16)
    let js := lanesOf (i.em &&& (if f.b.getLsbD 4 then ~~~p else p))
    let lanes := lanesOf i.em
    let m := maskOf fun l => i.em.getLsbD l && decide (lanes.idxOf l < js.length)
    s.vec i { d := f.d.toNat, wide := isW64 h, m := m, val := fun l => i.at f.one 0 k (nth js (lanes.idxOf l)) }

end Sys2Proof.Machine
end

