-- ==== Sys2Proof/Machine/System.lean ====
section
/-! DEFINITION. PUBLISH, PROBE and EVENT of row 0xE (R329, R346, R365), and the words that are no instruction (R60, R68). -/
namespace Sys2Proof.Machine

/-! ## PUBLISH (R365), EVENT (R329) -/

/-- An access that stands for an operation done by the part itself: no bytes of its own, at its place already. -/
def State.unitAccess (s : State) (i : Issue) : Access :=
  let a := s.access i 64 0 0 0 0 0 (.spad i.core 0)
  { a with place := a.goal }

/-- PUBLISH (R365). -/
def execPublish (h : List Hint) (f : FmtC) (s : State) : Host.Outcome State Fault Refusal :=
  let n := f.f.toNat % 16
  perform h s (reservedSet 0xE0 f.payload) (fun _ => {}) (fun _ => false) (fun _ => false)
    (fun i s => if s.windowOk i.g.task.ctx n 0 0 then none else some { code := fcPermission, mask := i.em }) fun i s =>
    s.post i { i.op .st .publish [s.unitAccess i] with words := [BitVec.ofNat 64 n] }

/-- EVENT (R329). -/
def execEvent (h : List Hint) (f : FmtC) (s : State) : Host.Outcome State Fault Refusal :=
  perform h s (reservedSet 0xE3 f.payload) (fun _ => {}) (fun _ => false) (fun _ => false) (fun _ _ => none) fun i s =>
    s.post i { i.op .st .event [s.unitAccess i] with
      words := [i.g.sreg f.sa.toNat, i.g.sreg f.sb.toNat, BitVec.ofNat 64 f.f.toNat] }

/-! ## PROBE (R346) -/

/-- What PROBE knows of an address before it asks the page home: the intermediate address and the word's lower part (R346). -/
def State.probeWord (s : State) (i : Issue) (p : Nat) : Nat × Nat :=
  if ptrSpace p != 0 then (0, 0)
  else
    let va := ptrOffset p
    let lease := if inLeases (s.leaseSet i.g.task) va 1 then 256 else 0
    match (if tagBad p true then none else s.spanIn (s.coreSpans i.core i.g.task.ctx) i.g.task.ctx va) with
    | none => (0, lease)
    | some (n, ia, ctl) => (ia, 1 + 2 * bits ctl.toNat 34 32 + 16 * n + lease)

/-- PROBE (R346): one access to the page home, which adds what it knows of the page. -/
def execProbe (h : List Hint) (f : FmtC) (s : State) : Host.Outcome State Fault Refusal :=
  let p (i : Issue) := (i.g.sreg f.sc.toNat).toNat
  perform h s (reservedSet 0xE2 f.payload) (fun _ => {}) (fun _ => false) (fun _ => false) (fun _ _ => none) fun i s =>
    let (ia, w) := s.probeWord i (p i)
    let a := if w % 2 = 1 then s.access i 64 0 (p i) 0 0 0 (.global i.g.task.ctx ia false)
      else { s.unitAccess i with performed := true, value := w }
    s.post i { i.op .ld .probe [a] with
      dest := .uni f.sa.toNat, words := [BitVec.ofNat 64 ia, BitVec.ofNat 64 w, BitVec.ofNat 64 f.sb.toNat] }

/-! ## Words that are no instruction (R60, R68) -/

/-- A word with an unassigned opcode (R68). -/
def execUnassignedOpcode (h : List Hint) (_w : Word) (s : State) : Host.Outcome State Fault Refusal :=
  perform h s true (fun _ => {}) (fun _ => false) (fun _ => false) (fun _ _ => none) fun _ s => s

/-- A sequence of seven hint words (R60): ILLEGAL_HINT, unless a reserved field of one is set (R68). -/
def execSeventhHintWord (h : List Hint) (s : State) : Host.Outcome State Fault Refusal :=
  perform h s (h.any hintReserved) (fun _ => {}) (fun _ => false) (fun _ => false)
    (fun _ _ => some { code := fcIllegalHint }) fun _ s => s

end Sys2Proof.Machine
end

