-- ==== Sys2Proof/Machine/TileMath.lean ====
section
/-! DEFINITION. What the tile engine computes: the elements of lines (R31, R263), the chunked products (R43, R44, R277, R278, R280),
conversions out of and into tiles (R273, R282), and the accumulator and scout operations (R283 to R288). -/
namespace Sys2Proof.Machine

/-! ## Bytes of a tile -/

/-- The first n bytes of a bank as one little-endian number. -/
def bankNat (b : Bank Byte) (n : Nat) : Nat := b.foldl (fun acc (k, v) => if k < n then acc + v.toNat * 2 ^ (8 * k) else acc) 0

/-- The bytes of a number as a bank; zero bytes are not listed. -/
def bankOf (v n : Nat) : Bank Byte :=
  (List.range n).filterMap fun k => let b := byteOf v k; if b = 0 then none else some (k, b)

/-- A line of a tile's data as a number (R263). -/
def Tile.line (t : Tile) (n : Nat) : Nat :=
  t.data.foldl (fun acc (k, v) => if 64 * n ≤ k ∧ k < 64 * n + 64 then acc + v.toNat * 2 ^ (8 * (k - 64 * n)) else acc) 0

/-- A strip's byte (R263). -/
def Tile.scale (t : Tile) (k : Nat) : Nat := (Bank.lookD t.strip k 0).toNat

/-- The element of a type at a position of a line (R31, R263). -/
def lineElem (ty : Nat) (line p : Nat) : Nat := (Ty.ofCode ty).elem line p

/-- The value of an element as a floating-point number; an integer's is exact. -/
def Val.real : Val → Fl
  | .flt x => x
  | .int z => .fin (decide (z < 0)) z.natAbs 0

/-- The products of a chunk along k for a type (R43). -/
def chunkSize (ty : Nat) : Nat := match typeBits ty with | 16 => 2 | 8 => 4 | _ => 8
/-- The elements of a line of a type (R263). -/
def lineCount (ty : Nat) : Nat := 512 / typeBits ty

/-! ## Products (R43, R44) -/

/-- One product's factors, each an element times its scale. -/
abbrev Factor := Option Fl × Option Fl

/-- Adds a product to an exact sum; a factor that is not a number makes it one. -/
def Sum.product (s : Sum) (p : Factor) : Sum :=
  match p with
  | (some a, some b) => s.addMul a b
  | _ => { s with invalid := true }

/-- One chunk in floating point: the exact sum of the accumulator element and the products, rounded once by RNE (R43). -/
def chunkFloat (acc : Word) (ps : List Factor) : Word :=
  let s := ps.foldl Sum.product (({} : Sum).add (f32.value acc.toNat))
  BitVec.ofNat 32 (s.result f32 {} 0).1

/-- A list cut into pieces of n. -/
def pieces {α : Type} (n : Nat) : Nat → List α → List (List α)
  | 0, _ => []
  | fuel + 1, l => if l.isEmpty then [] else l.take n :: pieces n fuel (l.drop n)

/-- An accumulator element after all chunks of its products, in increasing order (R43). -/
def dotFloat (c : Nat) (acc : Word) (ps : List Factor) : Word := (pieces c ps.length ps).foldl chunkFloat acc

/-- An i32 accumulator element after its exact products (R44). -/
def dotInt (acc : Word) (ps : List (Int × Int)) : Word :=
  BitVec.ofInt 32 (ps.foldl (fun z (a, b) => z + a * b) acc.toInt)

/-- A row or column of a multiply as it is read: its elements' bits, and their scales by position. -/
structure Strand64 where
  elem : List Nat
  scale : List Nat
deriving DecidableEq, Repr

/-- A factor of a product: an element, times its scale under MX (R32, R43). -/
def factor (ty : Nat) (mx : Bool) (e s : Nat) : Option Fl :=
  let x := ((Ty.ofCode ty).value e).real
  if mx then Fl.mul x (e8m0 s) else some x

/-- The factors of a row and a column, position by position. -/
def factors (ta tb : Nat) (mx : Bool) (x y : Strand64) : List Factor :=
  ((x.elem.zip x.scale).zip (y.elem.zip y.scale)).map fun ((a, sa), (b, sb)) => (factor ta mx a sa, factor tb mx b sb)

/-- One accumulator element after a multiply (R43, R44). -/
def mulElem (ta tb : Nat) (mx : Bool) (acc : Word) (x y : Strand64) : Word :=
  if ta = 0 then dotInt acc ((x.elem.zip y.elem).map fun (a, b) => (sx 8 a, sx 8 b))
  else dotFloat (chunkSize ta) acc (factors ta tb mx x y)

/-- A line of a tile as a row of A or a column of B (R263): the scale of position k under MX stands at byte 2n + k/32, or 4n + k/32 for
the 4-bit type. -/
def Tile.vector (t : Tile) (ty n : Nat) : Strand64 :=
  let line := t.line n
  let ks := List.range (lineCount ty)
  { elem := ks.map fun k => lineElem ty line k
    scale := ks.map fun k => t.scale ((if typeBits ty = 4 then 4 else 2) * n + k / 32) }

/-- The elements of an accumulator in order. -/
def Accum.list (a : Accum) : List Word :=
  (a.elems.foldl (fun (x : Array Word) (k, v) => x.setIfInBounds k v) (Array.replicate 4096 0)).toList

/-- An accumulator with every element given. -/
def Accum.fill (a : Accum) (l : List Word) : Accum :=
  { a with elems := l.zipIdx.filterMap fun (v, k) => if v = 0 then none else some (k, v) }

/-- Accumulator elements, row by row, from a function of the row's and the column's vectors. -/
def accumMap (l : List Word) (rows cols : List Strand64) (f : Word → Strand64 → Strand64 → Word) : List Word :=
  ((rows.flatMap fun x => cols.map fun y => (x, y)).zip l).map fun ((x, y), w) => f w x y

/-- MMA and MMAQ (R277, R280): aD + A × B with the columns of B given. -/
def multiply (ta tb : Nat) (mx : Bool) (d : Accum) (a : Tile) (cols : List Strand64) : Accum :=
  d.fill (accumMap d.list (allLanes.map (a.vector ta)) cols (mulElem ta tb mx))

/-- The columns of B of one tile (R277). -/
def Tile.columns (t : Tile) (ty : Nat) : List Strand64 := allLanes.map (t.vector ty)
/-- The columns of B of a quad: sixteen from each group's tile (R280). -/
def quadColumns (ts : List Tile) (ty : Nat) : List Strand64 := allLanes.map fun j => ((ts.getD (j / 16) {}).vector ty j)

/-! ## Sparse multiply (R278) -/

/-- The entry of row i, dense group g, of a slot as a number (R278): two positions. -/
def slotEntry (slot k i g : Nat) : Nat × Nat := let e := (slot >>> (8 * (i * (k / 4)) + 4 * g)) % 16; (e % 4, e / 4)

/-- Whether a slot's metadata for a type's count of elements is valid (R278). -/
def slotValid (slot k : Nat) : Bool :=
  allLanes.all fun i => (List.range (k / 2)).all fun g => let (x, y) := slotEntry slot k i g; decide (x < y)

/-- The dense positions of row i's stored elements (R278). -/
def densePlaces (slot k i : Nat) : List Nat :=
  (List.range k).map fun s => let (x, y) := slotEntry slot k i (s / 2); 4 * (s / 2) + (if s % 2 = 0 then x else y)

/-- Column j of the dense B: line j of one tile, then of the next (R278). -/
def sparseColumn (b b1 : Tile) (ty j : Nat) : Strand64 :=
  let x := b.vector ty j
  let y := b1.vector ty j
  { elem := x.elem ++ y.elem, scale := x.scale ++ y.scale }

/-- Row i of the sparse A with the dense positions of its elements; its scales stand by dense block (R278). -/
def sparseRow (a : Tile) (slot ty i : Nat) : Strand64 × List Nat :=
  let places := densePlaces slot (lineCount ty) i
  ({ elem := (a.vector ty i).elem, scale := places.map fun k => a.scale (4 * i + k / 32) }, places)

/-- The elements of a column that a row's positions select. -/
def Strand64.pick (y : Strand64) (places : List Nat) : Strand64 :=
  { elem := places.map fun k => y.elem.getD k 0, scale := places.map fun k => y.scale.getD k 0 }

/-- MMAS (R278), with valid metadata. -/
def multiplySparse (ta tb : Nat) (mx : Bool) (d : Accum) (a b b1 : Tile) (slot : Nat) : Accum :=
  let rows := allLanes.map (sparseRow a slot ta)
  let cols := allLanes.map (sparseColumn b b1 tb)
  d.fill (((rows.flatMap fun x => cols.map fun y => (x, y)).zip d.list).map fun (((x, ps), y), w) => mulElem ta tb mx w x (y.pick ps))

/-! ## Tiles from boxes and back (R272 to R274) -/

/-- The box's elements of a dense value. -/
def denseList (d v : Nat) : List Nat :=
  let ty := Ty.ofCode (descType d)
  (List.range (descCount d)).map (denseElem ty v)

/-- A number from elements of w bits. -/
def packed (w : Nat) (l : List Nat) : Nat := l.foldr (fun x acc => x + 2 ^ w * acc) 0

/-- The tile data of a .t box (R272): element (c0, c1) at byte 64 c0 + size c1. -/
def turned (d v : Nat) : Nat :=
  let w := typeBits (descType d)
  let e := descExt d 0
  (denseList d v).zipIdx.foldl (fun acc (x, j) => acc + x * 2 ^ (8 * (64 * (j % e)) + w * (j / e))) 0

/-- The dense value of a .t box from a tile's data (R274). -/
def unturned (d data : Nat) : Nat :=
  let w := typeBits (descType d)
  let e := descExt d 0
  packed w ((List.range (descCount d)).map fun j => (data >>> (8 * (64 * (j % e)) + w * (j / e))) % 2 ^ w)

/-- The largest magnitude of the values that are no NaN, zero without one (R273). -/
def largestMag (l : List Fl) : Fl :=
  l.foldl (fun m x =>
    match x with
    | .nan _ => m
    | .inf _ => .inf false
    | .fin _ a e => let y : Fl := .fin false a e; if Fl.cmp m y = .lt then y else m) (.fin false 0 0)

/-- The scale of a line (R273): m / 7 rounded up; an infinite m, like a quotient that overflows, gives the largest (log entry 12). -/
def lineScale (m : Fl) : Nat :=
  match m with
  | .fin _ 0 _ => 0
  | .fin _ a e =>
    let s := (fpDiv f16 { mode := 2 } (.fin false a e) (.fin false 7 0)).1
    if s = f16.inf false then f16.largest false else s
  | _ => f16.largest false

/-- TLD.s4 (R273): the tile of a box's dense value. -/
def s4Tile (d v : Nat) : Tile :=
  let ty := Ty.ofCode (descType d)
  let xs := (denseList d v).map fun b => (ty.value b).real
  let rows := allLanes.map fun n => (List.range 128).map fun p => xs.getD (128 * n + p) (.fin false 0 0)
  let scales := rows.map fun l => lineScale (largestMag l)
  let data := (rows.zip scales).flatMap fun (l, s) => l.map fun x => low 4 (s4Of x (f16.value s))
  { data := bankOf (packed 4 data) 4096, strip := bankOf (packed 16 scales) 256 }

/-! ## Conversions and reductions (R282 to R286) -/

/-- A row of M, an accumulator or its transpose (R282). -/
def accumRow (l : List Word) (tr : Bool) (n : Nat) : List Word :=
  allLanes.map fun p => l.getD (if tr then 64 * p + n else 64 * n + p) 0

/-- TCVT (R282): the tile's data after the conversion. -/
def tcvt (t : Tile) (l : List Word) (ty hi : Nat) (tr : Bool) (mode : Nat) (sat : Bool) : Tile :=
  let el (w : Word) : Nat := (convert (Ty.ofCode ty) { mode := mode, sat := sat } (.flt (f32.value w.toNat))).1
  let w := typeBits ty
  let line (n : Nat) : Nat :=
    let row := accumRow l tr n
    if w = 16 then packed 16 (((row.drop (32 * hi)).take 32).map el)
    else if w = 8 then packed 8 (row.map el)
    else
      let old := t.line n
      let new := packed 4 (row.map el)
      if hi = 0 then new + old / 2 ^ 256 * 2 ^ 256 else old % 2 ^ 256 + new * 2 ^ 256
  { t with data := bankOf (packed 512 (allLanes.map line)) 4096 }

/-- AROW (R284): the reduction of a row. -/
def rowReduce (op : Nat) (row : List Word) : Nat :=
  let c := floatCombiner {} (if op = 0 then 2 else 0)
  (c.root (c.tree (BitVec.allOnes 64) fun l => (row.getD l 0).toNat)).1

/-- AEXP at one element (R286): 2^(x κ - m). -/
def aexpElem (x k m : Word) : Word :=
  let s := (({} : Sum).addMul (f32.value x.toNat) (f32.value k.toNat)).add (f32.value m.toNat).negate
  if s.isNan || s.bad then BitVec.ofNat 32 f32.nan else BitVec.ofNat 32 (fpExp2 f32 {} (s.total 0)).1

/-- ASCALE at one element (R285). -/
def ascaleElem (x v : Word) : Word := BitVec.ofNat 32 (fpMul f32 {} (f32.value x.toNat) (f32.value v.toNat)).1

/-- Changes an accumulator's elements in the rows of a mask. -/
def accumRows (l : List Word) (em : DWord) (f : Nat → Word → Word) : List Word :=
  l.zipIdx.map fun (w, k) => if em.getLsbD (k / 64) then f (k / 64) w else w

/-! ## SCOUT (R288) -/

/-- The s4 elements of a line. -/
def s4Line (t : Tile) (n : Nat) : List Int := let line := t.line n; (List.range 128).map fun p => sx 4 (line >>> (4 * p))

/-- The f16 scale of a line. -/
def s4Scale (t : Tile) (n : Nat) : Fl := f16.value (t.scale (2 * n) + 256 * t.scale (2 * n + 1))

/-- One term of SCOUT: c σ σ dot; none for a NaN or 0 × ∞. -/
def scoutTerm (c sq sk : Fl) (dot : Int) : Option Fl :=
  let mul (x : Option Fl) (y : Fl) : Option Fl := x.bind fun x => if x.isNan || y.isNan then none else Fl.mul x y
  mul (mul (mul (some c) sq) sk) (.fin (decide (dot < 0)) dot.natAbs 0)

/-- The larger of two terms. -/
def flMax (x y : Fl) : Fl := if Fl.cmp x y = .lt then y else x

/-- SCOUT's result for one query line, before its rounding (R288): none for a NaN. -/
def scoutBest (c : Fl) (q : List Int) (sq : Fl) (keys : List (List Int × Fl)) : Option Fl :=
  keys.foldl (fun best (k, sk) =>
    match best, scoutTerm c sq sk ((q.zip k).foldl (fun z (a, b) => z + a * b) 0) with
    | some b, some t => some (flMax b t)
    | _, _ => none) (some (.inf true))

/-- SCOUT's result in a lane. A zero is +0: it is an exact real rounded as R35 rounds an exact sum under RNE, and R397 gives it so (log
entry 32). -/
def scoutBits (best : Option Fl) : Word :=
  match best with
  | none => BitVec.ofNat 32 f32.nan
  | some (.fin _ 0 _) => 0
  | some x => BitVec.ofNat 32 ((({} : Sum).add x).result f32 {} 0).1

end Sys2Proof.Machine
end

