-- ==== Sys2Proof/Machine/TileEvents.lean ====
section
/-! DEFINITION. The tile engine's own steps (R266 to R268, R272 to R288): the start and the end of an operation, the watchdog and the
engine reset (R294, R295), SCRUB, operand-fetch faults and relaunches (R292, R293). -/
namespace Sys2Proof.Machine

/-! ## What operations touch (R267) -/

/-- The unit of an operation: 0 the array, 1 the scout array, 2 the memory path (R267). -/
def TileKind.unit : TileKind → Nat
  | .tld _ _ _ _ _ _ => 2
  | .tst _ _ _ _ _ => 2
  | .scout _ _ _ _ => 1
  | _ => 0

/-- A tile's data and strip as numbers of what operations read and write. -/
def tileParts (t : Nat) : List (Nat × Nat) := [(0, t), (1, t)]

/-- What an operation reads: tile data (0), strips (1), accumulators (2), slots (3). -/
def TileKind.reads : TileKind → List (Nat × Nat)
  | .tld _ _ _ _ _ _ => []
  | .tst t _ _ _ strip => [if strip then (1, t) else (0, t)]
  | .tzero _ => []
  | .tcvt t a _ _ _ _ _ => [(0, t), (2, a)]
  | .mma a ta tb _ _ mx => [(2, a), (0, ta), (0, tb)] ++ (if mx then [(1, ta), (1, tb)] else [])
  | .mmaq a ta tb _ _ mx _ => [(2, a), (0, ta), (0, tb)] ++ (if mx then [(1, ta), (1, tb)] else [])
  | .mmas a ta tb _ _ mx => [(2, a), (3, a), (0, ta), (0, tb), (0, tb + 1)] ++ (if mx then [(1, ta), (1, tb), (1, tb + 1)] else [])
  | .scout q k _ _ => tileParts q ++ tileParts k
  | .ard a _ _ => [(2, a)]
  | .arow a _ _ => [(2, a)]
  | .ascale a _ => [(2, a)]
  | .aexp a _ _ => [(2, a)]
  | .azero _ => []

/-- What an operation writes. -/
def TileKind.writes : TileKind → List (Nat × Nat)
  | .tld t _ _ _ s4 strip => if s4 then tileParts t else [if strip then (1, t) else (0, t)]
  | .tst _ _ _ _ _ => []
  | .tzero t => tileParts t
  | .tcvt t _ _ _ _ _ _ => [(0, t)]
  | .mma a _ _ _ _ _ => [(2, a)]
  | .mmaq a _ _ _ _ _ _ => [(2, a)]
  | .mmas a _ _ _ _ _ => [(2, a)]
  | .scout _ _ _ _ => []
  | .ard _ _ _ => []
  | .arow _ _ _ => []
  | .ascale a _ => [(2, a)]
  | .aexp a _ _ => [(2, a)]
  | .azero a => [(2, a)]

/-- Whether an operation depends on an earlier one (R267). -/
def TileKind.dependsOn (o p : TileKind) : Bool :=
  p.writes.any (fun w => o.reads.contains w || o.writes.contains w) || p.reads.any fun r => o.writes.contains r

/-- The core cycles that an operation occupies its unit; TLD and TST take one for each 256 bytes, after a latency that is open (R267). -/
def TileKind.cycles : TileKind → Nat
  | .tld _ d _ _ _ _ => (descBytes (wordsNat d) + 255) / 256
  | .tst _ d _ _ _ => (descBytes (wordsNat d) + 255) / 256
  | .tzero _ => 2
  | .tcvt _ _ _ _ _ _ _ => 16
  | .mma _ _ _ _ _ _ => 32
  | .mmaq _ _ _ _ _ _ _ => 32
  | .mmas _ _ _ _ _ _ => 32
  | .scout _ _ _ _ => 16
  | .ard _ _ _ => 2
  | .arow _ _ _ => 8
  | .ascale _ _ => 8
  | .aexp _ _ _ => 16
  | .azero _ => 4

/-! ## Starting (R267, R280) -/

/-- Whether an operation waits for no earlier one of its group. -/
def CoreState.clear (x : CoreState) (o : TileOp) : Bool :=
  ((x.tileOps.takeWhile fun p => p.id != o.id).filter fun p => p.slot == o.slot).all fun p => !o.kind.dependsOn p.kind

/-- The MMAQs of an operation's quad and number, in group order (R280). -/
def CoreState.collective (x : CoreState) (o : TileOp) : List TileOp :=
  match o.kind.mmaqNo with
  | none => []
  | some n => (List.range 4).filterMap fun q => x.tileOps.find? fun p => p.slot == o.slot / 4 * 4 + q && p.kind.mmaqNo == some n

/-- Whether an operation may start when its unit is free: nothing it depends on is open, and all four groups have issued an MMAQ whose
members all are clear; once one member has started, its partners follow. -/
def CoreState.startable (x : CoreState) (o : TileOp) : Bool :=
  !o.started &&
    (if o.kind.mmaqNo.isNone then x.clear o
     else
       let cs := x.collective o
       (!o.held.isEmpty || (cs.length == 4 && cs.all x.clear))
         && (cs.filter fun p => decide (p.slot < o.slot)).all fun p => p.started)

/-- Whether an operation belongs to a collective that has begun and not ended. -/
def TileOp.begun (o : TileOp) : Bool := !o.started && !o.held.isEmpty

/-- Whether an operation is the one that starts next on its unit: no scrub of a reset is under way (R295), the unit is free, a begun collective goes first, and then the operation
issued earliest. -/
def CoreState.startsNext (x : CoreState) (o : TileOp) : Bool :=
  x.startable o && !x.resetting && !(x.tileOps.any fun p => p.started && p.kind.unit == o.kind.unit) &&
    (if x.tileOps.any TileOp.begun && o.kind.unit == 0 then o.begun
     else x.tileOps.all fun p => !(x.startable p && p.kind.unit == o.kind.unit && decide (p.id < o.id)))

/-- What an operation reads at its start besides its own registers: the quad's B tiles, or its slot. -/
def State.snapshot (s : State) (c : Nat) (o : TileOp) : TileOp :=
  match o.kind with
  | .mmas a _ _ _ _ _ => { o with slotBytes := ((s.group c o.slot).accum a).slot }
  | .mmaq _ _ _ _ _ _ _ =>
    if o.held.isEmpty then
      { o with held := ((s.core c).collective o).map fun p => match p.kind with
          | .mmaq _ _ tb _ _ _ _ => (s.group c p.slot).tile tb
          | _ => {} }
    else o
  | _ => o

/-- The granule of a slot's tile or accumulator block that a written register lies in, two tiles or one accumulator to each (R83): class and
number from the block's first. -/
def granuleOf (w : Nat × Nat) : Nat × Nat := if w.1 ≤ 1 then (2, w.2 / 2) else (3, w.2)

/-- The granules of a slot's blocks that started operations write are BUSY (R266). -/
def State.markBusy (s : State) (c k : Nat) : State :=
  let x := s.core c
  let ws := (x.tileOps.filter fun o => o.slot == k && o.started).flatMap fun o => o.kind.writes.map granuleOf
  s.setCore c { x with blocks := x.blocks.map fun b =>
    if b.slot = k ∧ (b.cls = 2 ∨ b.cls = 3) then { b with busy := (List.range b.size).filter fun n => ws.contains (b.cls, n) } else b }

/-- TILE_OP_START (R266, R267). The members of a collective take their B operand together, as its first starts. -/
def State.tileStart (s : State) (c id : Nat) : State :=
  let x := s.core c
  match x.tileOps.find? fun o => o.id == id with
  | none => s
  | some o =>
    if x.startsNext o then
      let held := (s.snapshot c o).held
      let mates := (x.collective o).map (·.id)
      let ops := x.tileOps.map fun p =>
        if p.id = id then { s.snapshot c p with started := true, startedAt := s.time }
        else if mates.contains p.id then { p with held := held }
        else p
      let last := if x.tileOps.any fun p => p.started then x.lastTile else s.time
      (s.setCore c { x with tileOps := ops, lastTile := last }).markBusy c o.slot
    else s

/-- TILE_OP_START. -/
def execTileOpStart (s : State) : Host.Outcome State Fault Refusal := .next (s.tileStart s.arg.core s.arg.op)

/-! ## Completion (R267, R272 to R288) -/

/-- An operation leaves the engine: its counter may retire it, and its blocks are no longer busy (R92, R266). -/
def State.tileDone (s : State) (c : Nat) (o : TileOp) : State :=
  let x := s.core c
  ((s.setCore c { x with tileOps := x.tileOps.filter fun p => p.id != o.id, lastTile := s.time }).engineDone c o.slot o.id).markBusy c o.slot

/-- Gives a slot's group a tile. -/
def State.putTile (s : State) (c k t : Nat) (v : Tile) : State := s.setGroup c k ((s.group c k).setTile t v)
/-- Gives a slot's group an accumulator. -/
def State.putAccum (s : State) (c k a : Nat) (v : Accum) : State := s.setGroup c k ((s.group c k).setAccum a v)

/-- The tile that a TLD leaves, from its box's dense value (R272, R273). -/
def loaded (t : Tile) (d v : Nat) (tr s4 strip : Bool) : Tile :=
  if s4 then s4Tile d v
  else if strip then { t with strip := bankOf v 256 }
  else if tr then { t with data := bankOf (turned d v) 4096 }
  else { t with data := bankOf v 4096 }

/-- The dense value that a TST writes (R274). -/
def stored (t : Tile) (d : Nat) (tr strip : Bool) : Nat :=
  if strip then bankNat t.strip 256
  else if tr then unturned d (bankNat t.data 4096)
  else bankNat t.data 4096

/-- Whether a box lies on a peer part. -/
def State.boxPeer (s : State) (find : State → Nat → Option Target) (d : Nat) : Bool :=
  match find s (descBase d) with
  | some (.peer _ _ _) => true
  | _ => false

/-- What a pointer reaches for an operation, through the spans held at its issue (R330). -/
def State.opFind (c : Nat) (o : TileOp) (s : State) (p : Nat) : Option Target :=
  s.heldTarget o.spans c o.slot (s.group c o.slot).task p

/-- The address that an operation's memory-side fault names (R324): that of its tensor (log entry 126). -/
def TileKind.addr : TileKind → DWord
  | .tld _ d _ _ _ _ => BitVec.ofNat 64 (descBase (wordsNat d))
  | .tst _ d _ _ _ => BitVec.ofNat 64 (descBase (wordsNat d))
  | _ => 0

/-- What an operation that meets a fault at the memory side says of it (R95, R324). -/
def TileOp.flt (o : TileOp) (code : Nat) : Flt := { code := code, kind := 2, mask := o.em, addr := o.kind.addr }

/-- Whether the unit's time for an operation has passed (R267). -/
def State.tileTime (s : State) (c : Nat) (o : TileOp) : Bool := decide (2 * o.kind.cycles ≤ s.coreSince c o.startedAt)

/-- How many of the elements that an operation has still to move the turn moves: as many as it says, or all. -/
def State.boxTurn (s : State) (o : TileOp) (d : Nat) : Nat :=
  if s.arg.size = 0 then descCount d - o.moved else min s.arg.size (descCount d - o.moved)

/-- The memory path has received a response for an operation, which is not complete yet (R294). -/
def State.tileMoved (s : State) (c : Nat) (o : TileOp) : State :=
  let x := s.core c
  s.setCore c { x with lastTile := s.time, tileOps := x.tileOps.map fun p => if p.id = o.id then o else p }

/-- The next of a TLD's reads have come: with the last of them the tile is filled, once the unit's time has passed; they wait for a page, or meet
a fault (R272, R292). -/
def State.finishTld (s : State) (c : Nat) (o : TileOp) (t d : Nat) (origin : List Int) (tr s4 strip : Bool) : State :=
  let find := State.opFind c o
  let m := s.boxTurn o d
  if s.arg.flag && s.boxPeer find d then s.operandFault c o.slot o.strand o.pc (o.flt s.peerRefusal)
  else match s.boxRead find c d origin m o.moved with
    | (.wait, _, s) => s
    | (.bad code, _, s) =>
      if operandCode code then s.operandFault c o.slot o.strand o.pc (o.flt code)
      else (s.tileDone c o).takeFault c o.slot o.strand o.pc (o.flt code)
    | (.done, v, s) =>
      let o' := { o with moved := o.moved + m, value := o.value + v }
      if o'.moved = descCount d ∧ s.tileTime c o = true then
        (s.putTile c o.slot t (loaded ((s.group c o.slot).tile t) d o'.value tr s4 strip)).tileDone c o
      else if m = 0 then s
      else s.tileMoved c o'

/-- Whether the L2 and the hold have room for elements of a box (R16, R364). -/
def State.boxRoom (s : State) (find : State → Nat → Option Target) (d : Nat) (origin : List Int) (js : List Nat) : Bool :=
  s.roomFor (js.filterMap fun j => ((boxElem d origin j).map (elemAddr d)).bind fun (p, _) => (find s p).map fun t => (t, elemBytes (descType d)))

/-- The next of a TST's writes (R274): its faults follow R95. -/
def State.finishTst (s : State) (c : Nat) (o : TileOp) (t d : Nat) (origin : List Int) (tr strip : Bool) : State :=
  let find := State.opFind c o
  let m := s.boxTurn o d
  let js := (List.range m).map (o.moved + ·)
  if s.arg.flag && s.boxPeer find d then (s.tileDone c o).takeFault c o.slot o.strand o.pc (o.flt s.peerRefusal)
  else match s.boxReady find c d origin js with
    | (.wait, s) => s
    | (.bad code, s) => (s.tileDone c o).takeFault c o.slot o.strand o.pc (o.flt code)
    | (.done, s) =>
      if !s.boxRoom find d origin js then s
      else
      let rs := js.filterMap fun j => (boxElem d origin j).map fun e => ((elemAddr d e).1, elemBytes (descType d))
      let s := (s.boxWrite find d origin (stored ((s.group c o.slot).tile t) d tr strip) js).hides s c o.slot o.id find rs
      let o' := { o with moved := o.moved + m }
      if o'.moved = descCount d ∧ s.tileTime c o = true then s.tileDone c o
      else if m = 0 then s
      else s.tileMoved c o'

/-- MMAS at its end (R278): with invalid metadata it writes nothing, is counted, and ends its task. -/
def State.finishMmas (s : State) (c : Nat) (o : TileOp) (a ta tb tyA tyB : Nat) (mx : Bool) : State :=
  let g := s.group c o.slot
  let slot := bankNat o.slotBytes 2048
  if slotValid slot (lineCount tyA) then
    (s.putAccum c o.slot a (multiplySparse tyA tyB mx (g.accum a) (g.tile ta) (g.tile tb) (g.tile (tb + 1)) slot)).tileDone c o
  else
    ((s.tileDone c o).bump (.tleStat c) 47 32 1).takeFault c o.slot o.strand o.pc (o.flt fcMetadata)

/-- SCOUT's value in each lane (R288). -/
def scoutLanes (t k : Tile) (c : Fl) : List Word :=
  let keys := allLanes.map fun j => (s4Line k j, s4Scale k j)
  allLanes.map fun l => scoutBits (scoutBest c (s4Line t l) (s4Scale t l) keys)

/-- Writes a vector result of the engine in the lanes of its mask (R267, R268). -/
def State.putVec (s : State) (c : Nat) (o : TileOp) (d : Nat) (f : Nat → Word) : State :=
  s.setGroup c o.slot ((s.group c o.slot).setV d o.em f)

/-- Whether the watchdog's count has passed TLE_CFG.WDOG core cycles, so that the core's engine has to be reset (R294). -/
def State.engineHung (s : State) (c : Nat) : Bool :=
  let w := s.fld (.tleCfg c) 31 0
  w != 0 && (s.core c).tileOps.any (fun o => o.started) && decide (2 * w + 2 ≤ s.coreSince c (s.core c).lastTile)

/-- TILE_OP_COMPLETE (R267): the unit's time has passed and the results stand in place; a TLD or TST comes a step nearer to its end. -/
def State.tileComplete (s : State) (c id : Nat) : State :=
  match (s.core c).tileOps.find? fun o => o.id == id with
  | none => s
  | some o =>
    let k := o.slot
    let g := s.group c k
    let box := match o.kind with
      | .tld _ _ _ _ _ _ => true
      | .tst _ _ _ _ _ => true
      | _ => false
    if !(o.started && (box || s.tileTime c o)) || s.engineHung c then s
    else match o.kind with
      | .tld t d origin tr s4 strip => s.finishTld c o t (wordsNat d) origin tr s4 strip
      | .tst t d origin tr strip => s.finishTst c o t (wordsNat d) origin tr strip
      | .tzero t => (s.putTile c k t {}).tileDone c o
      | .tcvt t a ty h tr mode sat => (s.putTile c k t (tcvt (g.tile t) (g.accum a).list ty h tr mode sat)).tileDone c o
      | .mma a ta tb tyA tyB mx => (s.putAccum c k a (multiply tyA tyB mx (g.accum a) (g.tile ta) ((g.tile tb).columns tyB))).tileDone c o
      | .mmaq a ta _ tyA tyB mx _ =>
        (s.putAccum c k a (multiply tyA tyB mx (g.accum a) (g.tile ta) (quadColumns o.held tyB))).tileDone c o
      | .mmas a ta tb tyA tyB mx => s.finishMmas c o a ta tb tyA tyB mx
      | .scout q key x d =>
        let vs := scoutLanes (g.tile q) (g.tile key) (f32.value x.toNat)
        (s.putVec c o d fun l => vs.getD l 0).tileDone c o
      | .ard a col d => let l := (g.accum a).list; (s.putVec c o d fun i => l.getD (64 * i + col) 0).tileDone c o
      | .arow a op d => let l := (g.accum a).list; (s.putVec c o d fun i => BitVec.ofNat 32 (rowReduce op (accumRow l false i))).tileDone c o
      | .ascale a v =>
        let y := g.accum a
        (s.putAccum c k a (y.fill (accumRows y.list o.em fun i x => ascaleElem x (v.at i)))).tileDone c o
      | .aexp a v kap =>
        let y := g.accum a
        (s.putAccum c k a (y.fill (accumRows y.list o.em fun i x => aexpElem x kap (v.at i)))).tileDone c o
      | .azero a => (s.putAccum c k a { g.accum a with elems := [] }).tileDone c o

/-- TILE_OP_COMPLETE. -/
def execTileOpComplete (s : State) : Host.Outcome State Fault Refusal := .next (s.tileComplete s.arg.core s.arg.op)

/-! ## The watchdog (R294, R295) -/

/-- Whether a slot's task loses its tile state in an engine reset: it holds tile or accumulator blocks (R295). -/
def State.losesTiles (s : State) (c k : Nat) : Bool :=
  let x := s.slot c k
  (x.state == .active || x.state == .frozen || x.state == .saving || x.state == .draining)
    && (s.core c).blocks.any fun b => b.slot == k && (b.cls == 2 || b.cls == 3)

/-- The copy engine abandons what has not landed of a slot's MDLDs (R295). -/
def State.dropMdld (s : State) (c k : Nat) : State :=
  let x := s.core c
  let mine (d : CopyCmd) : Option Nat := match d.owner, d.kind with
    | .group j _ _ op, .slot _ => if j = k then some op else none
    | _, _ => none
  let ids := x.cmds.filterMap mine
  let s := s.setCore c { x with cmds := x.cmds.filter fun d => (mine d).isNone }
  ids.foldl (fun s op => s.engineDone c k op) s

/-- An engine reset (R295): every operation of the core is dropped, each task with tile state ends, every tile and accumulator block passes to
SCRUB, and until that ends the engine starts nothing. A slot that is binding or restoring asks for its blocks again (TASK_ENTRY,
RESTORE_COMPLETE). -/
def State.engineReset (s : State) (c : Nat) : State :=
  let ops := (s.core c).tileOps
  let ks := (List.range 32).filter (s.losesTiles c)
  let s := s.setCore c { s.core c with tileOps := [], lastTile := s.time }
  let s := ops.foldl (fun s o => s.engineDone c o.slot o.id) s
  let own (k : Nat) : List Nat := (taskSlots (s.group c k) k).filter fun j => (s.group c j).frames.isEmpty
  let heads := ks.filter fun k => (own k).headD k == k || !(s.group c k).frames.isEmpty
  let s := ks.foldl (fun s k => s.dropMdld c k) s
  let x := (s.core c).scrubBlocks fun _ => true
  let s := s.setCore c { x with resetting := x.blocks.any fun b => b.state == .scrub }
  let s := heads.foldl (fun s k => s.loseTask c k 0xFF 0 { code := fcEngineHang, kind := 2 }) s
  s.bump (.tleStat c) 15 0 1

/-- ENGINE_WATCHDOG (R294): TLE_CFG.WDOG core cycles have passed with an operation started and none completed. -/
def execEngineWatchdog (s : State) : Host.Outcome State Fault Refusal :=
  let c := s.arg.core
  let w := s.fld (.tleCfg c) 31 0
  .next (if w ≠ 0 ∧ ((s.core c).tileOps.any fun o => o.started) = true ∧ 2 * w ≤ s.coreSince c (s.core c).lastTile then s.engineReset c else s)

/-- BLOCK_SCRUB_DONE (R266): a scrubbed block is FREE; the scrub of a reset ends with the last one (R295). -/
def execBlockScrubDone (s : State) : Host.Outcome State Fault Refusal :=
  let x := s.core s.arg.core
  let bs := x.blocks.filter fun b => !(b.cls == s.arg.code && b.base == s.arg.addr && b.state == .scrub)
  .next (s.setCore s.arg.core { x with blocks := bs, resetting := x.resetting && bs.any fun b => b.state == .scrub })

/-! ## Operand fetches that fault, and relaunches (R292, R293) -/

/-- What serving an operation's reads meets now: whose it is, the fault with its code or 0, and whether they come from a peer part. -/
def State.fetchCode (s : State) (c id : Nat) : Option (Nat × Nat × DWord × Flt × Bool) :=
  let x := s.core c
  match x.tileOps.find? fun o => o.id == id && o.started with
  | some o =>
    match o.kind with
    | .tld _ d origin _ _ _ =>
      let n := wordsNat d
      some (o.slot, o.strand, o.pc,
        o.flt (match (s.boxRead (State.opFind c o) c n origin (descCount n - o.moved) o.moved).1 with | .bad code => code | _ => 0),
        s.boxPeer (State.opFind c o) n)
    | _ => none
  | none =>
    match x.cmds.find? fun d => d.id == id with
    | some d =>
      match d.owner, d.kind, d.segs.find? fun g => !g.landed with
      | .group _ _ _ _, .range, _ => none
      | .group k n pc _, _, some g =>
        some (k, n, pc,
          { code := match (s.segRead c d g g.got (g.size - g.got)).1 with | .bad code => code | _ => 0
            kind := 2, mask := d.em, addr := match d.kind with | .box e _ => BitVec.ofNat 64 (descBase (wordsNat e)) | _ => g.src },
          s.segPeer c d g)
      | _, _, _ => none
    | none => none

/-- TILE_FETCH_FAULT (R292): the memory side faults in the reads of a TLD, COPYT or MDLD: an uncorrectable error, a refusal by a peer, or
a page that is gone. -/
def execTileFetchFault (s : State) : Host.Outcome State Fault Refusal :=
  let c := s.arg.core
  .next (match s.fetchCode c s.arg.op with
    | some (k, n, pc, f, peer) =>
      if s.arg.code = fcUncorrectable ∨ (s.arg.code = fcPermission ∧ peer = true) ∨ (s.arg.code = f.code ∧ operandCode f.code = true) then
        s.operandFault c k n pc { f with code := s.arg.code }
      else s
    | none => s)

/-- RELAUNCH_PUSH (R293): the record's copy goes to the cold end of the deque, once an entry is free. -/
def execRelaunchPush (s : State) : Host.Outcome State Fault Refusal :=
  let x := s.core s.arg.core
  .next (match x.relaunch with
    | r :: rest => if x.deque.length < 512 then s.setCore s.arg.core { x with deque := r :: x.deque, relaunch := rest } else s
    | [] => s)

end Sys2Proof.Machine
end

