-- ==== Sys2Proof/Machine/Uniform.lean ====
section
/-! DEFINITION. Row 0x8: uniform instructions on s registers (R128 to R131). -/
namespace Sys2Proof.Machine

/-- A uniform instruction: s[sd] from u = s[sa] and w = s[sb] (R128). -/
def execUni (op : BitVec 8) (fn : DWord → DWord → DWord) (h : List Hint) (f : FmtU) (s : State) :
    Host.Outcome State Fault Refusal :=
  simple h s op f.payload {} fun i s =>
    s.retire i (i.g.setS f.sd.toNat (fn (i.g.sreg f.sa.toNat) (i.g.sreg f.sb.toNat))) i.next false

/-- The amount of a uniform shift (R128). -/
def shiftBy (f : FmtU) (w : DWord) : Nat := (w.toNat + f.f.toNat) % 64

/-- SADD (R128). -/
def execSadd (h : List Hint) (f : FmtU) (s : State) : Host.Outcome State Fault Refusal :=
  execUni 0x80 (fun u w => u + w + f.f.signExtend 64) h f s
/-- SSUB (R128). -/
def execSsub (h : List Hint) (f : FmtU) (s : State) : Host.Outcome State Fault Refusal :=
  execUni 0x81 (fun u w => u - w) h f s
/-- SMUL (R128). -/
def execSmul (h : List Hint) (f : FmtU) (s : State) : Host.Outcome State Fault Refusal :=
  execUni 0x82 (fun u w => u * w) h f s
/-- SAND (R128). -/
def execSand (h : List Hint) (f : FmtU) (s : State) : Host.Outcome State Fault Refusal :=
  execUni 0x83 (fun u w => u &&& w) h f s
/-- SOR (R128). -/
def execSor (h : List Hint) (f : FmtU) (s : State) : Host.Outcome State Fault Refusal :=
  execUni 0x84 (fun u w => u ||| w) h f s
/-- SXOR (R128). -/
def execSxor (h : List Hint) (f : FmtU) (s : State) : Host.Outcome State Fault Refusal :=
  execUni 0x85 (fun u w => u ^^^ w) h f s
/-- SSHL (R128). -/
def execSshl (h : List Hint) (f : FmtU) (s : State) : Host.Outcome State Fault Refusal :=
  execUni 0x86 (fun u w => u <<< shiftBy f w) h f s
/-- SSHRL (R128). -/
def execSshrl (h : List Hint) (f : FmtU) (s : State) : Host.Outcome State Fault Refusal :=
  execUni 0x87 (fun u w => u >>> shiftBy f w) h f s
/-- SSHRA (R128). -/
def execSshra (h : List Hint) (f : FmtU) (s : State) : Host.Outcome State Fault Refusal :=
  execUni 0x88 (fun u w => u.sshiftRight (shiftBy f w)) h f s
/-- Whether u is below w, unsigned where asked (R128). -/
def below (unsigned : Bool) (u w : DWord) : Bool := if unsigned then u.ult w else u.slt w
/-- SMIN (R128). -/
def execSmin (h : List Hint) (f : FmtU) (s : State) : Host.Outcome State Fault Refusal :=
  execUni 0x89 (fun u w => if below (f.f.getLsbD 0) w u then w else u) h f s
/-- SMAX (R128). -/
def execSmax (h : List Hint) (f : FmtU) (s : State) : Host.Outcome State Fault Refusal :=
  execUni 0x8A (fun u w => if below (f.f.getLsbD 0) u w then w else u) h f s

/-- SCMP (R123, R128): cc 8 to 15 raise ILLEGAL_OPERAND. -/
def execScmp (h : List Hint) (f : FmtU) (s : State) : Host.Outcome State Fault Refusal :=
  let cc := f.f.toNat % 16
  perform h s (reservedSet 0x8B f.payload) (fun _ => {}) (fun _ => false) (fun _ => decide (8 ≤ cc)) (fun _ _ => none) fun i s =>
    let u := i.g.sreg f.sa.toNat
    let w := i.g.sreg f.sb.toNat
    let rel := if u = w then 0 else if below (f.f.getLsbD 4) u w then 1 else 2
    s.retire i (i.g.setS f.sd.toNat (if bit cc rel then 1 else 0)) i.next false

/-- SSEL (R128). -/
def execSsel (h : List Hint) (f : FmtU) (s : State) : Host.Outcome State Fault Refusal :=
  simple h s 0x8C f.payload {} fun i s =>
    let v := if i.g.sreg f.f.toNat != 0 then i.g.sreg f.sa.toNat else i.g.sreg f.sb.toNat
    s.retire i (i.g.setS f.sd.toNat v) i.next false

/-- SMOVI (R62, R128). -/
def execSmovi (h : List Hint) (f : FmtS) (s : State) : Host.Outcome State Fault Refusal :=
  simple h s 0x8D f.payload { ximm := 2 } fun i s =>
    s.retire i (i.g.setS f.sd.toNat (BitVec.ofNat 64 (low 64 (imm18Of h f.imm.toNat)))) i.next false

/-- The class word of a group (R86, R129). -/
def Group.classWord (g : Group) (k : Nat) : Nat :=
  g.vc + g.tc * 4 + g.ac * 32 + g.lc * 256 + (if g.task.quad.isSome then 1024 else 0) + k * 2048

/-- A special register of a group but CYCLE and DEPTH (R129). -/
def Issue.special64 (i : Issue) (n : Nat) : DWord :=
  match n with
  | 0 => i.g.flags
  | 2 => i.g.task.id
  | 3 => BitVec.ofNat 64 i.n
  | 5 => i.g.task.addr
  | 6 => BitVec.ofNat 64 (i.g.classWord i.slot)
  | _ => i.g.exited

/-- SGET (R129): CYCLE and DEPTH of a deterministic task are decisions (R256). -/
def execSget (h : List Hint) (f : FmtU) (s : State) : Host.Outcome State Fault Refusal :=
  let n := f.f.toNat
  perform h s (reservedSet 0x8E f.payload) (fun _ => {}) (fun _ => false) (fun _ => decide (8 ≤ n)) (fun _ _ => none) fun i s =>
    if n = 1 ∨ n = 4 then
      let now := if n = 1 then BitVec.ofNat 64 (s.cycle i.core) else BitVec.ofNat 64 (s.core i.core).deque.length
      let (v, s) := s.decideFor i.core i.slot 3 now 0
      let g := { i.g with task := (s.group i.core i.slot).task }
      s.retire i (g.setS f.sd.toNat v) i.next false
    else s.retire i (i.g.setS f.sd.toNat (i.special64 n)) i.next false

/-- SSET (R129, R130): FLAGS alone; its reserved bits are ignored. -/
def execSset (h : List Hint) (f : FmtU) (s : State) : Host.Outcome State Fault Refusal :=
  perform h s (reservedSet 0x8F f.payload) (fun _ => {}) (fun _ => false) (fun _ => f.f != 0) (fun _ _ => none) fun i s =>
    s.retire i { i.g with flags := i.g.sreg f.sa.toNat &&& 0x7F7F } i.next false

end Sys2Proof.Machine
end

