-- ==== Sys2Proof/Machine/Dispatch.lean ====
section
/-! DEFINITION. Dispatch: one arm per constructor of Instr, each one call of a meaning. -/
namespace Sys2Proof.Machine

def exec (i : Instr) (s : State) : Host.Outcome State Fault Refusal :=
  match i with
  | .nop h f => Sys2Proof.Machine.execNop h f s
  | .bra h f => Sys2Proof.Machine.execBra h f s
  | .brx h f => Sys2Proof.Machine.execBrx h f s
  | .call h f => Sys2Proof.Machine.execCall h f s
  | .callx h f => Sys2Proof.Machine.execCallx h f s
  | .ret h f => Sys2Proof.Machine.execRet h f s
  | .rcv h f => Sys2Proof.Machine.execRcv h f s
  | .fuse h f => Sys2Proof.Machine.execFuse h f s
  | .brk h f => Sys2Proof.Machine.execBrk h f s
  | .exit h f => Sys2Proof.Machine.execExit h f s
  | .wait h f => Sys2Proof.Machine.execWait h f s
  | .park h f => Sys2Proof.Machine.execPark h f s
  | .yield h f => Sys2Proof.Machine.execYield h f s
  | .trap h f => Sys2Proof.Machine.execTrap h f s
  | .emset h f => Sys2Proof.Machine.execEmset h f s
  | .emget h f => Sys2Proof.Machine.execEmget h f s
  | .bkpt h f => Sys2Proof.Machine.execBkpt h f s
  | .iadd h f => Sys2Proof.Machine.execIadd h f s
  | .isub h f => Sys2Proof.Machine.execIsub h f s
  | .imul h f => Sys2Proof.Machine.execImul h f s
  | .imulh h f => Sys2Proof.Machine.execImulh h f s
  | .nmulh h f => Sys2Proof.Machine.execNmulh h f s
  | .imad h f => Sys2Proof.Machine.execImad h f s
  | .idiv h f => Sys2Proof.Machine.execIdiv h f s
  | .ndiv h f => Sys2Proof.Machine.execNdiv h f s
  | .irem h f => Sys2Proof.Machine.execIrem h f s
  | .nrem h f => Sys2Proof.Machine.execNrem h f s
  | .imin h f => Sys2Proof.Machine.execImin h f s
  | .imax h f => Sys2Proof.Machine.execImax h f s
  | .nmin h f => Sys2Proof.Machine.execNmin h f s
  | .nmax h f => Sys2Proof.Machine.execNmax h f s
  | .iabs h f => Sys2Proof.Machine.execIabs h f s
  | .ineg h f => Sys2Proof.Machine.execIneg h f s
  | .andL h f => Sys2Proof.Machine.execAndL h f s
  | .orL h f => Sys2Proof.Machine.execOrL h f s
  | .xorL h f => Sys2Proof.Machine.execXorL h f s
  | .andn h f => Sys2Proof.Machine.execAndn h f s
  | .shl h f => Sys2Proof.Machine.execShl h f s
  | .shrl h f => Sys2Proof.Machine.execShrl h f s
  | .shra h f => Sys2Proof.Machine.execShra h f s
  | .rotl h f => Sys2Proof.Machine.execRotl h f s
  | .bfx h f => Sys2Proof.Machine.execBfx h f s
  | .bfi h f => Sys2Proof.Machine.execBfi h f s
  | .popc h f => Sys2Proof.Machine.execPopc h f s
  | .clz h f => Sys2Proof.Machine.execClz h f s
  | .brev h f => Sys2Proof.Machine.execBrev h f s
  | .bool3 h f => Sys2Proof.Machine.execBool3 h f s
  | .iaddi h f => Sys2Proof.Machine.execIaddi h f s
  | .mov h f => Sys2Proof.Machine.execMov h f s
  | .fadd h f => Sys2Proof.Machine.execFadd h f s
  | .fsub h f => Sys2Proof.Machine.execFsub h f s
  | .fmul h f => Sys2Proof.Machine.execFmul h f s
  | .ffma h f => Sys2Proof.Machine.execFfma h f s
  | .fmin h f => Sys2Proof.Machine.execFmin h f s
  | .fmax h f => Sys2Proof.Machine.execFmax h f s
  | .fcpys h f => Sys2Proof.Machine.execFcpys h f s
  | .frnd h f => Sys2Proof.Machine.execFrnd h f s
  | .fdiv h f => Sys2Proof.Machine.execFdiv h f s
  | .fsqrt h f => Sys2Proof.Machine.execFsqrt h f s
  | .hxadd h f => Sys2Proof.Machine.execHxadd h f s
  | .hxmul h f => Sys2Proof.Machine.execHxmul h f s
  | .hxfma h f => Sys2Proof.Machine.execHxfma h f s
  | .bxadd h f => Sys2Proof.Machine.execBxadd h f s
  | .bxmul h f => Sys2Proof.Machine.execBxmul h f s
  | .bxfma h f => Sys2Proof.Machine.execBxfma h f s
  | .dadd h f => Sys2Proof.Machine.execDadd h f s
  | .dmul h f => Sys2Proof.Machine.execDmul h f s
  | .dfma h f => Sys2Proof.Machine.execDfma h f s
  | .dmin h f => Sys2Proof.Machine.execDmin h f s
  | .dmax h f => Sys2Proof.Machine.execDmax h f s
  | .ddiv h f => Sys2Proof.Machine.execDdiv h f s
  | .dsqrt h f => Sys2Proof.Machine.execDsqrt h f s
  | .cvt h f => Sys2Proof.Machine.execCvt h f s
  | .pack h f => Sys2Proof.Machine.execPack h f s
  | .unpk h f => Sys2Proof.Machine.execUnpk h f s
  | .fdot4 h f => Sys2Proof.Machine.execFdot4 h f s
  | .idot4 h f => Sys2Proof.Machine.execIdot4 h f s
  | .ldexp h f => Sys2Proof.Machine.execLdexp h f s
  | .frexp h f => Sys2Proof.Machine.execFrexp h f s
  | .fclass h f => Sys2Proof.Machine.execFclass h f s
  | .icmp h f => Sys2Proof.Machine.execIcmp h f s
  | .ncmp h f => Sys2Proof.Machine.execNcmp h f s
  | .fcmp h f => Sys2Proof.Machine.execFcmp h f s
  | .dcmp h f => Sys2Proof.Machine.execDcmp h f s
  | .sel h f => Sys2Proof.Machine.execSel h f s
  | .pand h f => Sys2Proof.Machine.execPand h f s
  | .por h f => Sys2Proof.Machine.execPor h f s
  | .pxor h f => Sys2Proof.Machine.execPxor h f s
  | .pandn h f => Sys2Proof.Machine.execPandn h f s
  | .pset h f => Sys2Proof.Machine.execPset h f s
  | .pget h f => Sys2Proof.Machine.execPget h f s
  | .pcnt h f => Sys2Proof.Machine.execPcnt h f s
  | .pff h f => Sys2Proof.Machine.execPff h f s
  | .vote h f => Sys2Proof.Machine.execVote h f s
  | .elect h f => Sys2Proof.Machine.execElect h f s
  | .qset h f => Sys2Proof.Machine.execQset h f s
  | .qget h f => Sys2Proof.Machine.execQget h f s
  | .matchL h f => Sys2Proof.Machine.execMatchL h f s
  | .rank h f => Sys2Proof.Machine.execRank h f s
  | .balance h f => Sys2Proof.Machine.execBalance h f s
  | .xsel h f => Sys2Proof.Machine.execXsel h f s
  | .xput h f => Sys2Proof.Machine.execXput h f s
  | .scan h f => Sys2Proof.Machine.execScan h f s
  | .red h f => Sys2Proof.Machine.execRed h f s
  | .fscan h f => Sys2Proof.Machine.execFscan h f s
  | .fred h f => Sys2Proof.Machine.execFred h f s
  | .compact h f => Sys2Proof.Machine.execCompact h f s
  | .rcp h f => Sys2Proof.Machine.execRcp h f s
  | .rsq h f => Sys2Proof.Machine.execRsq h f s
  | .exp2 h f => Sys2Proof.Machine.execExp2 h f s
  | .log2 h f => Sys2Proof.Machine.execLog2 h f s
  | .sinp h f => Sys2Proof.Machine.execSinp h f s
  | .cosp h f => Sys2Proof.Machine.execCosp h f s
  | .tanh h f => Sys2Proof.Machine.execTanh h f s
  | .sigm h f => Sys2Proof.Machine.execSigm h f s
  | .hrcp h f => Sys2Proof.Machine.execHrcp h f s
  | .hexp2 h f => Sys2Proof.Machine.execHexp2 h f s
  | .sftm h f => Sys2Proof.Machine.execSftm h f s
  | .sadd h f => Sys2Proof.Machine.execSadd h f s
  | .ssub h f => Sys2Proof.Machine.execSsub h f s
  | .smul h f => Sys2Proof.Machine.execSmul h f s
  | .sand h f => Sys2Proof.Machine.execSand h f s
  | .sor h f => Sys2Proof.Machine.execSor h f s
  | .sxor h f => Sys2Proof.Machine.execSxor h f s
  | .sshl h f => Sys2Proof.Machine.execSshl h f s
  | .sshrl h f => Sys2Proof.Machine.execSshrl h f s
  | .sshra h f => Sys2Proof.Machine.execSshra h f s
  | .smin h f => Sys2Proof.Machine.execSmin h f s
  | .smax h f => Sys2Proof.Machine.execSmax h f s
  | .scmp h f => Sys2Proof.Machine.execScmp h f s
  | .ssel h f => Sys2Proof.Machine.execSsel h f s
  | .smovi h f => Sys2Proof.Machine.execSmovi h f s
  | .sget h f => Sys2Proof.Machine.execSget h f s
  | .sset h f => Sys2Proof.Machine.execSset h f s
  | .ld h f => Sys2Proof.Machine.execLd h f s
  | .st h f => Sys2Proof.Machine.execSt h f s
  | .ldu h f => Sys2Proof.Machine.execLdu h f s
  | .stu h f => Sys2Proof.Machine.execStu h f s
  | .ldln h f => Sys2Proof.Machine.execLdln h f s
  | .ldd h f => Sys2Proof.Machine.execLdd h f s
  | .std h f => Sys2Proof.Machine.execStd h f s
  | .pref h f => Sys2Proof.Machine.execPref h f s
  | .fence h f => Sys2Proof.Machine.execFence h f s
  | .cinv h f => Sys2Proof.Machine.execCinv h f s
  | .cwb h f => Sys2Proof.Machine.execCwb h f s
  | .atom h f => Sys2Proof.Machine.execAtom h f s
  | .amon h f => Sys2Proof.Machine.execAmon h f s
  | .atomu h f => Sys2Proof.Machine.execAtomu h f s
  | .cas h f => Sys2Proof.Machine.execCas h f s
  | .casu h f => Sys2Proof.Machine.execCasu h f s
  | .binit h f => Sys2Proof.Machine.execBinit h f s
  | .badd h f => Sys2Proof.Machine.execBadd h f s
  | .bwait h f => Sys2Proof.Machine.execBwait h f s
  | .bdrop h f => Sys2Proof.Machine.execBdrop h f s
  | .copy h f => Sys2Proof.Machine.execCopy h f s
  | .copyt h f => Sys2Proof.Machine.execCopyt h f s
  | .kick h f => Sys2Proof.Machine.execKick h f s
  | .mdld h f => Sys2Proof.Machine.execMdld h f s
  | .spawn h f => Sys2Proof.Machine.execSpawn h f s
  | .spawnr h f => Sys2Proof.Machine.execSpawnr h f s
  | .joinF h f => Sys2Proof.Machine.execJoinF h f s
  | .fset h f => Sys2Proof.Machine.execFset h f s
  | .execR h f => Sys2Proof.Machine.execExecR h f s
  | .lease h f => Sys2Proof.Machine.execLease h f s
  | .unlease h f => Sys2Proof.Machine.execUnlease h f s
  | .tld h f => Sys2Proof.Machine.execTld h f s
  | .tst h f => Sys2Proof.Machine.execTst h f s
  | .tzero h f => Sys2Proof.Machine.execTzero h f s
  | .tcvt h f => Sys2Proof.Machine.execTcvt h f s
  | .mma h f => Sys2Proof.Machine.execMma h f s
  | .mmaq h f => Sys2Proof.Machine.execMmaq h f s
  | .mmas h f => Sys2Proof.Machine.execMmas h f s
  | .mmak h f => Sys2Proof.Machine.execMmak h f s
  | .scout h f => Sys2Proof.Machine.execScout h f s
  | .thresh h f => Sys2Proof.Machine.execThresh h f s
  | .ablk h f => Sys2Proof.Machine.execAblk h f s
  | .ard h f => Sys2Proof.Machine.execArd h f s
  | .arow h f => Sys2Proof.Machine.execArow h f s
  | .ascale h f => Sys2Proof.Machine.execAscale h f s
  | .aexp h f => Sys2Proof.Machine.execAexp h f s
  | .azero h f => Sys2Proof.Machine.execAzero h f s
  | .publish h f => Sys2Proof.Machine.execPublish h f s
  | .probe h f => Sys2Proof.Machine.execProbe h f s
  | .event h f => Sys2Proof.Machine.execEvent h f s
  | .ordmark h f => Sys2Proof.Machine.execOrdmark h f s
  | .unassignedOpcode h w => Sys2Proof.Machine.execUnassignedOpcode h w s
  | .seventhHintWord h => Sys2Proof.Machine.execSeventhHintWord h s
  | .claimServed => Sys2Proof.Machine.execClaimServed s
  | .slotBind => Sys2Proof.Machine.execSlotBind s
  | .taskEntry => Sys2Proof.Machine.execTaskEntry s
  | .compactionMove => Sys2Proof.Machine.execCompactionMove s
  | .compactionCopyEnd => Sys2Proof.Machine.execCompactionCopyEnd s
  | .offCorePark => Sys2Proof.Machine.execOffCorePark s
  | .saveComplete => Sys2Proof.Machine.execSaveComplete s
  | .restoreGroup => Sys2Proof.Machine.execRestoreGroup s
  | .restoreComplete => Sys2Proof.Machine.execRestoreComplete s
  | .preemptRequest => Sys2Proof.Machine.execPreemptRequest s
  | .preemptTimeout => Sys2Proof.Machine.execPreemptTimeout s
  | .taskEnd => Sys2Proof.Machine.execTaskEnd s
  | .counterRetire => Sys2Proof.Machine.execCounterRetire s
  | .loadComplete => Sys2Proof.Machine.execLoadComplete s
  | .storeAcknowledge => Sys2Proof.Machine.execStoreAcknowledge s
  | .memoryRequestAtHome => Sys2Proof.Machine.execMemoryRequestAtHome s
  | .atomicAtHome => Sys2Proof.Machine.execAtomicAtHome s
  | .deterministicAmonArrival => Sys2Proof.Machine.execDeterministicAmonArrival s
  | .routerMerge => Sys2Proof.Machine.execRouterMerge s
  | .waitRequestAtHome => Sys2Proof.Machine.execWaitRequestAtHome s
  | .waitRequestRetry => Sys2Proof.Machine.execWaitRequestRetry s
  | .wake => Sys2Proof.Machine.execWake s
  | .descriptorFetch => Sys2Proof.Machine.execDescriptorFetch s
  | .copySegment => Sys2Proof.Machine.execCopySegment s
  | .copyListEntry => Sys2Proof.Machine.execCopyListEntry s
  | .cpeKick => Sys2Proof.Machine.execCpeKick s
  | .tileOpStart => Sys2Proof.Machine.execTileOpStart s
  | .tileOpComplete => Sys2Proof.Machine.execTileOpComplete s
  | .engineWatchdog => Sys2Proof.Machine.execEngineWatchdog s
  | .blockScrubDone => Sys2Proof.Machine.execBlockScrubDone s
  | .tileFetchFault => Sys2Proof.Machine.execTileFetchFault s
  | .relaunchPush => Sys2Proof.Machine.execRelaunchPush s
  | .stagingStart => Sys2Proof.Machine.execStagingStart s
  | .stagingComplete => Sys2Proof.Machine.execStagingComplete s
  | .stagingFault => Sys2Proof.Machine.execStagingFault s
  | .leaseRequest => Sys2Proof.Machine.execLeaseRequest s
  | .leaseGranted => Sys2Proof.Machine.execLeaseGranted s
  | .leaseRenewal => Sys2Proof.Machine.execLeaseRenewal s
  | .leaseLapse => Sys2Proof.Machine.execLeaseLapse s
  | .recordAvailable => Sys2Proof.Machine.execRecordAvailable s
  | .recordAged => Sys2Proof.Machine.execRecordAged s
  | .stealRequest => Sys2Proof.Machine.execStealRequest s
  | .stealBackoff => Sys2Proof.Machine.execStealBackoff s
  | .stealRequestAtVictim => Sys2Proof.Machine.execStealRequestAtVictim s
  | .stealReply => Sys2Proof.Machine.execStealReply s
  | .inboundArrival => Sys2Proof.Machine.execInboundArrival s
  | .spawnrReply => Sys2Proof.Machine.execSpawnrReply s
  | .inboundGrant => Sys2Proof.Machine.execInboundGrant s
  | .spawnrResend => Sys2Proof.Machine.execSpawnrResend s
  | .queueEnable => Sys2Proof.Machine.execQueueEnable s
  | .queueDisable => Sys2Proof.Machine.execQueueDisable s
  | .queueRun => Sys2Proof.Machine.execQueueRun s
  | .queueDoorbell => Sys2Proof.Machine.execQueueDoorbell s
  | .queuePoll => Sys2Proof.Machine.execQueuePoll s
  | .launch => Sys2Proof.Machine.execLaunch s
  | .graph => Sys2Proof.Machine.execGraph s
  | .copyPacket => Sys2Proof.Machine.execCopyPacket s
  | .barrierAdd => Sys2Proof.Machine.execBarrierAdd s
  | .barrierWait => Sys2Proof.Machine.execBarrierWait s
  | .linkRelease => Sys2Proof.Machine.execLinkRelease s
  | .linkWait => Sys2Proof.Machine.execLinkWait s
  | .publishPacket => Sys2Proof.Machine.execPublishPacket s
  | .marker => Sys2Proof.Machine.execMarker s
  | .packetComplete => Sys2Proof.Machine.execPacketComplete s
  | .qlinkCfgWrite => Sys2Proof.Machine.execQlinkCfgWrite s
  | .kernelEntryTaken => Sys2Proof.Machine.execKernelEntryTaken s
  | .rootPlacement => Sys2Proof.Machine.execRootPlacement s
  | .kernelDone => Sys2Proof.Machine.execKernelDone s
  | .cancelKernel => Sys2Proof.Machine.execCancelKernel s
  | .cancelRegion => Sys2Proof.Machine.execCancelRegion s
  | .regionWatchdog => Sys2Proof.Machine.execRegionWatchdog s
  | .contextOpen => Sys2Proof.Machine.execContextOpen s
  | .contextClose => Sys2Proof.Machine.execContextClose s
  | .clusterRelease => Sys2Proof.Machine.execClusterRelease s
  | .releaseComplete => Sys2Proof.Machine.execReleaseComplete s
  | .contextDrained => Sys2Proof.Machine.execContextDrained s
  | .scrubComplete => Sys2Proof.Machine.execScrubComplete s
  | .semAcquire => Sys2Proof.Machine.execSemAcquire s
  | .semRelease => Sys2Proof.Machine.execSemRelease s
  | .semLapse => Sys2Proof.Machine.execSemLapse s
  | .spadSplitWrite => Sys2Proof.Machine.execSpadSplitWrite s
  | .ctxFqHeadRead => Sys2Proof.Machine.execCtxFqHeadRead s
  | .pageMigrate => Sys2Proof.Machine.execPageMigrate s
  | .pageEvict => Sys2Proof.Machine.execPageEvict s
  | .pageUnmap => Sys2Proof.Machine.execPageUnmap s
  | .pageSync => Sys2Proof.Machine.execPageSync s
  | .spansCommand => Sys2Proof.Machine.execSpansCommand s
  | .collapseComplete => Sys2Proof.Machine.execCollapseComplete s
  | .migrationDone => Sys2Proof.Machine.execMigrationDone s
  | .drainDone => Sys2Proof.Machine.execDrainDone s
  | .linkTrainStart => Sys2Proof.Machine.execLinkTrainStart s
  | .linkTrained => Sys2Proof.Machine.execLinkTrained s
  | .linkTrainTimeout => Sys2Proof.Machine.execLinkTrainTimeout s
  | .linkDisable => Sys2Proof.Machine.execLinkDisable s
  | .badFlit => Sys2Proof.Machine.execBadFlit s
  | .retryDone => Sys2Proof.Machine.execRetryDone s
  | .retryExhausted => Sys2Proof.Machine.execRetryExhausted s
  | .routerForward => Sys2Proof.Machine.execRouterForward s
  | .vcPromote => Sys2Proof.Machine.execVcPromote s
  | .routerPowerDown => Sys2Proof.Machine.execRouterPowerDown s
  | .routerWake => Sys2Proof.Machine.execRouterWake s
  | .routerWakeDone => Sys2Proof.Machine.execRouterWakeDone s
  | .peerAccess => Sys2Proof.Machine.execPeerAccess s
  | .hostApertureWrite => Sys2Proof.Machine.execHostApertureWrite s
  | .hostApertureRead => Sys2Proof.Machine.execHostApertureRead s
  | .uncorrectable => Sys2Proof.Machine.execUncorrectable s
  | .powerGood => Sys2Proof.Machine.execPowerGood s
  | .partReset => Sys2Proof.Machine.execPartReset s
  | .bistComplete => Sys2Proof.Machine.execBistComplete s
  | .handoverStart => Sys2Proof.Machine.execHandoverStart s
  | .fwImageWrite => Sys2Proof.Machine.execFwImageWrite s
  | .handoverCommit => Sys2Proof.Machine.execHandoverCommit s
  | .fwStatRead => Sys2Proof.Machine.execFwStatRead s
  | .attestationRequest => Sys2Proof.Machine.execAttestationRequest s
  | .commandMessage => Sys2Proof.Machine.execCommandMessage s
  | .firmwareTimeout => Sys2Proof.Machine.execFirmwareTimeout s
  | .reefInterval => Sys2Proof.Machine.execReefInterval s
  | .droopEvent => Sys2Proof.Machine.execDroopEvent s
  | .droopHoldEnd => Sys2Proof.Machine.execDroopHoldEnd s
  | .dbgHalt => Sys2Proof.Machine.execDbgHalt s
  | .haltComplete => Sys2Proof.Machine.execHaltComplete s
  | .dbgRelease => Sys2Proof.Machine.execDbgRelease s
  | .dbgStep => Sys2Proof.Machine.execDbgStep s
  | .stepEnded => Sys2Proof.Machine.execStepEnded s
  | .dbgCancelStep => Sys2Proof.Machine.execDbgCancelStep s
  | .dbgDump => Sys2Proof.Machine.execDbgDump s
  | .dbgLoad => Sys2Proof.Machine.execDbgLoad s
  | .dbgEvtRead => Sys2Proof.Machine.execDbgEvtRead s
  | .dbgDetach => Sys2Proof.Machine.execDbgDetach s
  | .barStatRead => Sys2Proof.Machine.execBarStatRead s
  | .tskStatRead => Sys2Proof.Machine.execTskStatRead s
  | .tleStatRead => Sys2Proof.Machine.execTleStatRead s
  | .nocStatRead => Sys2Proof.Machine.execNocStatRead s
  | .krnStatRead => Sys2Proof.Machine.execKrnStatRead s
  | .lnkPortStatRead => Sys2Proof.Machine.execLnkPortStatRead s
  | .lnyStatRead => Sys2Proof.Machine.execLnyStatRead s
  | .registerWrite => Sys2Proof.Machine.execRegisterWrite s
  | .invalidPacket => Sys2Proof.Machine.execInvalidPacket s

end Sys2Proof.Machine
end

