-- ==== Sys2Proof/Machine/Turn.lean ====
section
/-! DEFINITION. Turns: instruction fetch (R47, R60), the choice of the strand that a port issues (R87, R88, R57), the steps of the
part's units, and, where nothing is scheduled, the turn that the machine takes by itself. -/
namespace Sys2Proof.Machine

/-! ## Fetch (R47, R60) -/

/-- What the fetch of a hint sequence gives: its instruction after so many hint words; a wait for an ABSENT page; a word that the
spans refuse, or one whose page is gone, by its address. -/
inductive Fetched where
  | instr (i : Instr) (hints : Nat)
  | wait
  | refused (a : DWord)
  | gone (a : DWord)
deriving DecidableEq, Repr

/-- A word of code as a task of a kernel fetches it, given the word that stands there: where stores have changed it while the kernel was
live, that word or one that they replaced, a free choice at each fetch (R48). -/
def State.codeRead (s : State) (ctx tag ia : Nat) (m : Word) : Word × State :=
  match Bank.lookD s.code (codeKey tag (l2Key ctx ia)) [] with
  | [] => (m, s)
  | olds => ((m :: olds).getD (Config.pick s.draws % (olds.length + 1)) m, { s with draws := s.draws + 1 })

/-- Fetches one word for a task of a context and a kernel: translated like a load, through a span of its core with X set, and not lease-checked
(R47). -/
def State.fetchWord (s : State) (ctx tag va : Nat) : Except Fetched Word × State :=
  let a : DWord := BitVec.ofNat 64 va
  match if va < 2 ^ 52 then s.spanIn (s.coreSpans s.cur.core ctx) ctx va else none with
  | none => (.error (.refused a), s)
  | some (_, ia, ctl) =>
    if ctl.getLsbD 34 = false then (.error (.refused a), s)
    else
      let rme := ctl.getLsbD 35
      match s.pageGate ctx ia true false rme (some (coreDie s.cur.core)) 1 with
      | (.go p, s) =>
        let s := s.settleAt (.global ctx ia rme) 4
        let (w, s) := s.codeRead ctx tag ia (BitVec.ofNat 32 (s.readVia (.global ctx ia rme) p 4))
        (.ok w, s)
      | (.wait, s) => (.error .wait, s)
      | (.gone, s) => (.error (.gone a), s)

/-- Fetches a hint sequence word by word until the decoder has its instruction: at most seven words (R60). -/
def State.fetchFrom (s : State) (ctx tag pc : Nat) : Nat → List Word → Fetched × State
  | 0, _ => (.wait, s)
  | n + 1, ws =>
    match s.fetchWord ctx tag (pc + 4 * ws.length) with
    | (.error f, s) => (f, s)
    | (.ok w, s) =>
      match decodeWords (ws ++ [w]) with
      | .ok (i, _) => (.instr i ws.length, s)
      | .error _ => s.fetchFrom ctx tag pc n (ws ++ [w])

/-- A strand that cannot issue yet is STALLED (R77). -/
def State.stallStrand (s : State) (c k n : Nat) : State :=
  let g := s.group c k
  match Bank.look g.strands n with
  | some x => s.setGroup c k (g.setStrand n { x with state := .stalled })
  | none => s

/-- Runs the fetched instruction of a strand, or takes the fault of its fetch (R47, R95). -/
def State.runFetched (s : State) (c k n : Nat) (pc : DWord) : Fetched → Host.Outcome State Fault Refusal
  | .instr i h => exec i { s with cur := { core := c, slot := k, strand := n, pc := pc, addr := pc + BitVec.ofNat 64 (4 * h) } }
  | .wait => .next (s.stallStrand c k n)
  | .refused a => .next (s.takeFault c k n pc { code := fcPermission, addr := a })
  | .gone a => .next (s.takeFault c k n pc { code := fcLeaseExpired, kind := 2, addr := a })

/-- The hint words of a fetched sequence that issue before its last word. -/
def seqHints (i : Instr) : List Hint :=
  match i with
  | .seventhHintWord h => h.take 6
  | .unassignedOpcode h _ => h
  | i => (i.parts.map (·.1)).getD []

/-- Whether a sequence begins with a RUN word (R60). -/
def seqOpensRun (i : Instr) : Bool :=
  match seqHints i with
  | .run _ :: _ => true
  | _ => false

/-- The next hint word of a strand's sequence issues: it takes the port cycle, and a RUN word's run stands open from it on, whatever becomes
of the sequence (R60, R87); it has no other effect before its instruction issues. -/
def State.issueHint (s : State) (c k n : Nat) (i : Instr) : State :=
  let g := s.group c k
  let y := g.strand n
  let opened := if y.hinted = 0 ∧ seqOpensRun i then some s.time else y.openedAt
  s.setGroup c k (g.setStrand n { y with
    state := .ready, hinted := y.hinted + 1, openedAt := opened, notBefore := s.time + 2, since := s.time + 2 })

/-- Whether an instruction may make a decision for the order log as it issues (R256): those that take an ordinal, ORDMARK, SGET, and any
whose word names clk where a format with such a source has it. -/
def mayDecide (i : Instr) : Bool :=
  match i with
  | .sget _ _ => true
  | .spawn _ _ => true
  | .spawnr _ _ => true
  | .execR _ _ => true
  | .ordmark _ _ => true
  | i => (i.parts.map fun (_, _, p) =>
      bits p.toNat 17 11 == 111 || bits p.toNat 10 4 == 111 || bits p.toNat 15 9 == 111 || bits p.toNat 8 2 == 111).getD false

/-- Whether an instruction waits for the pages of the log that a replay reads (R258, R412). -/
def State.logHolds (s : State) (t : TaskInfo) (i : Instr) : Bool × State :=
  if s.logMode t = 2 ∧ mayDecide i = true then
    (match s.logReach t.ctx with
      | (.absent, s) => (true, s)
      | (.refused, s) => (false, s.logRefused t.ctx)
      | (.present, s) => (false, s))
  else (false, s)

/-- A strand issues the next word of the hint sequence at its PC: a hint word, or the instruction (R60). -/
def State.issueStrand (s : State) (c k n : Nat) : Host.Outcome State Fault Refusal :=
  let g := s.group c k
  let pc := (g.strand n).pc
  let s := { s with cur := { s.cur with core := c } }
  match s.fetchFrom g.task.ctx g.task.ktag pc.toNat 7 [] with
  | (.instr i h, s) =>
    if (g.strand n).hinted < h then .next (s.issueHint c k n i)
    else match s.logHolds g.task i with
      | (true, s) => .next (s.stallStrand c k n)
      | (false, s) => s.runFetched c k n pc (.instr i h)
  | (f, s) => s.runFetched c k n pc f

/-! ## STALLED strands (R77) -/

/-- Whether a strand has been left STALLED where it stood: it has not issued. -/
def State.notIssued (s : State) (c k n : Nat) (pc : DWord) : Bool :=
  match Bank.look (s.group c k).strands n with
  | some x => x.state == .stalled && x.pc == pc
  | none => false

/-- Whether an instruction reads a register or holds a collector, so that a latency can hold it back (R89, R90): the others read no source
at all, or a predicate that is the constant p15. -/
def waitsForSource : Instr → Bool
  | .nop _ _ => false
  | .call _ _ => false
  | .ret _ _ => false
  | .rcv _ _ => false
  | .fuse _ _ => false
  | .wait _ _ => false
  | .yield _ _ => false
  | .bkpt _ _ => false
  | .smovi _ _ => false
  | .unassignedOpcode _ _ => false
  | .seventhHintWord _ => false
  | .bra _ f => f.p != 15
  | .brk _ f => f.p != 15
  | .exit _ f => f.p != 15
  | _ => true

/-- Whether a strand's next word is held back by an unexpired gap (R57): that of its last run, or, where a RUN word closes the open run
early, that of this run, counted from its last instruction. -/
def Strand.gapHolds (y : Strand) (i : Instr) (time : Nat) : Bool :=
  y.hinted == 0 && (decide (time < y.gapUntil) ||
    (match y.run with
      | some r => seqOpensRun i && decide (time < y.notBefore + 2 * r.gap)
      | none => false))

/-- Whether a condition of R77 that needs no look at the instruction's effect holds a strand back: a gap, or a latency of what its
instruction reads, which the turn names. -/
def Strand.heldBack (y : Strand) (i : Instr) (h : Nat) (time : Nat) (held : Bool) : Bool :=
  y.gapHolds i time || (held && y.hinted == h && waitsForSource i)

/-- A strand's state, given anew: STALLED, or READY with its waiting time counted from now (R77, R87). -/
def State.setReady (s : State) (c k n : Nat) : State :=
  let g := s.group c k
  match Bank.look g.strands n with
  | some x => s.setGroup c k (g.setStrand n { x with state := .ready, since := s.time })
  | none => s

/-- A strand that does not wait, looked at in a port cycle: STALLED while a condition holds it back, READY again as soon as none does (R77).
What holds back an instruction that was tried is found by trying it again; a group that is not ACTIVE is only looked at. -/
def State.refreshStrand (s : State) (c k n : Nat) (held : Bool) : State :=
  let g := s.group c k
  match Bank.look g.strands n with
  | none => s
  | some y =>
    if y.state == .waiting then s
    else
      let live := (s.slot c k).state == .active
      let s0 := { s with cur := { s.cur with core := c } }
      match s0.fetchFrom g.task.ctx g.task.ktag y.pc.toNat 7 [] with
      | (.instr i h, u) =>
        if y.heldBack i h s.time held then s.stallStrand c k n
        else if y.state == .ready then s
        else if y.hinted < h then s.setReady c k n
        else match (if (u.logHolds g.task i).1 then .next (u.stallStrand c k n) else u.runFetched c k n y.pc (.instr i h)) with
          | .next t => if t.notIssued c k n y.pc then (if live then t else s) else s.setReady c k n
          | _ => s
      | (.wait, u) => if live then u else s
      | _ => if y.state == .ready then s else s.setReady c k n

/-- Every strand of a port's slots, looked at in a port cycle. -/
def State.refresh (s : State) (c p : Nat) (held : List (Nat × Nat)) : State :=
  let l := ((s.core c).slots.filter fun (k, x) => k / 16 == p && (x.state == .active || x.state == .frozen)).flatMap fun (k, x) =>
    x.group.strands.map fun (n, _) => (k, n)
  l.foldl (fun s (k, n) => s.refreshStrand c k n (held.contains (k, n))) s

/-! ## The choice of a strand (R57, R87, R99) -/

/-- Whether a strand of a slot is stopped at an instruction boundary: the debugger halts its group, or a pre-emption waits that has found its
point, or no longer waits for it (R60, R97, R410). -/
def Slot.stops (x : Slot) (time : Nat) (y : Strand) : Bool :=
  y.hinted == 0 && (x.halting ||
    (match x.preempt with
      | some t => x.group.atPoint || decide (t + 4000 ≤ time)
      | none => false))

/-- Whether a slot's strand may issue: an ACTIVE slot where it is not stopped, or the strand that the debugger steps (R75, R99). -/
def Slot.issues (x : Slot) (time n : Nat) (y : Strand) : Bool :=
  (x.state == .active && !x.stops time y)
    || (x.debugged && (match x.group.step with
        | some d => d.strand == n && !d.waits && !d.issued
        | none => false))

/-- Whether a strand may be tried in this port cycle: it is READY, the port cycle of its last issue or transfer is over (R380), and no claim
of its group is to be served first (R413). -/
def State.mayTry (s : State) (x : Slot) (n : Nat) (y : Strand) : Bool :=
  x.issues s.time n y && y.state == .ready && decide (y.notBefore ≤ s.time) && !x.group.servable

/-- The strands of a port's slots, each with its slot (R75: slots 0 to 15 on port 0, the others on port 1). -/
def State.portStrands (s : State) (c p : Nat) : List (Nat × Slot × Nat × Strand) :=
  ((s.core c).slots.filter fun (k, _) => k / 16 == p).flatMap fun (k, x) => x.group.strands.map fun (n, y) => (k, x, n, y)

/-- When a strand's open run was opened, if one is open (R87): the RUN word of a sequence still under way opens it. -/
def Strand.openSince (y : Strand) : Option Nat := if y.openedAt.isSome then y.openedAt else y.run.map fun r => r.opened

/-- The strand whose run holds a port: of the ACTIVE slots' open runs, the one opened first (R87). -/
def State.runHolder (s : State) (c p : Nat) : Option (Nat × Nat) :=
  let runs := (s.portStrands c p).filterMap fun (k, x, n, y) =>
    if x.state == .active && !x.stops s.time y then y.openSince.map fun o => (k, n, o) else none
  (sortBy (fun a b => decide (a.2.2 ≤ b.2.2)) runs).head?.map fun a => (a.1, a.2.1)

/-- The place of a strand in the order of R87, smaller first: an open run and when it opened, then passed over at 16 run openings, then
priority, give-way and how long it has waited, then slot and number. -/
def State.issueRank (s : State) (k : Nat) (x : Slot) (n : Nat) (y : Strand) : List Nat :=
  match y.openSince with
  | some o => [0, o, k, n]
  | none =>
    if 16 ≤ y.passed then [1, y.since, k, n]
    else [2, 7 - (s.eff x.group.task.ktag).priority, if y.give then 1 else 0, y.since, k, n]

/-- The strands that a port may issue, in the order in which R87 chooses: those of a test, best first. -/
def State.ranked (s : State) (c p : Nat) (ok : Nat → Slot → Nat → Strand → Bool) : List (Nat × Nat) :=
  let l := (s.portStrands c p).filterMap fun (k, x, n, y) => if ok k x n y then some (k, n, s.issueRank k x n y) else none
  (sortBy (fun a b => decide (a.2.2 ≤ b.2.2)) l).map fun a => (a.1, a.2.1)

/-- The strands that a port may issue in this port cycle, in order (R87): only the strand whose run holds the port, if one does. -/
def State.issueOrder (s : State) (c p : Nat) : List (Nat × Nat) :=
  match s.runHolder c p with
  | some h => s.ranked c p fun k x n y => s.mayTry x n y && (k, n) == h
  | none => s.ranked c p fun _ x n y => s.mayTry x n y

/-! ## Co-issue (R88) -/

/-- The 4-lane slices that a mask touches. -/
def slicesOf (m : DWord) : List Nat := (List.range 16).filter fun i => m.extractLsb' (4 * i) 4 != 0

/-- Whether the source fields of an instruction word can name q registers: the opcodes of format V. -/
def opHasQ (op : Nat) : Bool :=
  !([0x15, 0x28, 0x29, 0x2D, 0x2E, 0x33, 0x3C, 0x3F, 0x47, 0x48, 0x49, 0x4A, 0x4B].contains op)

/-- Whether an instruction may issue together with another: its opcode is one that R88 names and no source takes a route. -/
def coIssuable (g : Group) (i : Instr) : Bool :=
  match i.parts with
  | none => false
  | some (h, op, p) =>
    let o := op.toNat
    let straight (q : Nat) : Bool := bits (g.qreg q).toNat 11 0 == 0
    ([1, 2, 3, 7].contains (o / 16) || (decide (0x47 ≤ o) && decide (o ≤ 0x4E)))
      && (List.range 3).all (fun n => inlineSpec h n == 0)
      && (!opHasQ o || (straight (bits p.toNat 3 2) && straight (bits p.toNat 1 0)))

/-- The instruction at a strand's PC, if it can be fetched. -/
def State.peek (s : State) (c k n : Nat) : Option Instr :=
  let g := s.group c k
  match ({ s with cur := { s.cur with core := c } }).fetchFrom g.task.ctx g.task.ktag (g.strand n).pc.toNat 7 [] with
  | (.instr i _, _) => some i
  | _ => none

/-- Whether a strand may issue as the partner of what its port has just issued: of the same group, on other slices, and its next word
an instruction that may issue together (R88). -/
def State.partners (s : State) (c k n : Nat) (q : Port) : Bool :=
  k == q.slot && q.pairs && (slicesOf (s.group c k |>.strand n).owned).all (fun i => !(slicesOf q.owned).contains i)
    && (match s.peek c k n with
      | some i => ((s.group c k).strand n).hinted == (seqHints i).length && coIssuable (s.group c k) i
      | none => false)

/-! ## A port cycle -/

/-- A run has opened on a port: every other strand of its ACTIVE slots that was READY in that port cycle, before the opening word, has been
passed over once more (R87). -/
def State.passOver (s before : State) (c p k n : Nat) : State :=
  (before.portStrands c p).foldl (fun s (j, x, m, y) =>
    if (j, m) != (k, n) && x.state == .active && y.state == .ready then
      let g := s.group c j
      match Bank.look g.strands m with
      | some z => s.setGroup c j (g.setStrand m { z with passed := z.passed + 1 })
      | none => s
    else s) s

/-- What a port keeps of an issue (R87, R88): the strand is no longer passed over, a debugger's step whose instruction has issued is over
(R99), and a group whose pre-emption waits for this point stops (R97). -/
def State.afterIssue (s : State) (c p k n : Nat) (q : Port) (whole : Bool) : State :=
  let g := s.group c k
  let g := match Bank.look g.strands n with
    | some y => g.setStrand n { y with passed := 0 }
    | none => g
  let g := match g.step with
    | some d => if d.strand = n ∧ whole then { g with step := some { d with issued := true } } else g
    | none => g
  let s := s.setGroup c k g
  let x := s.core c
  (s.setCore c { x with ports := Bank.put x.ports p q }).stopCheck c k false

/-- The partner of a strand whose instruction has faulted, where it is the lower strand and faults as well (R88, R327): the state after it (log entry 128). -/
def State.lowerFault (s : State) (c p k n : Nat) (q : Port) : Option (Nat × State) :=
  match s.ranked c p fun j x m y => j == k && m != n && y.state == .ready && x.state == .active && s.mayTry x m y with
  | (_, m) :: _ =>
    if m < n && s.partners c k m q then
      match s.issueStrand c k m with
      | .next u => if u.notIssued c k m (s.group c k |>.strand m).pc || (u.slot c k).state == .active then none else some (m, u)
      | _ => none
    else none
  | [] => none

/-- Tries the strands of a list in their order until one issues a word; one that stalls leaves its turn to the next (R87). A RUN word opens a
run; so does, as a run of one (R57), an instruction that stands in none, and either counts as an opening that passes the others over (log
entry 87). Two co-issued instructions that both fault are taken in strand-number order (R327). -/
def State.tryStrands (s : State) (c p : Nat) : List (Nat × Nat) → Host.Outcome State Fault Refusal
  | [] => .next s
  | (k, n) :: rest =>
    let y := (s.group c k).strand n
    let next := s.peek c k n
    let whole := next.all fun i => y.hinted == (seqHints i).length
    let opens := if whole then y.openSince.isNone else y.hinted == 0 && next.any fun i => seqOpensRun i
    let pair := whole && next.any (coIssuable (s.group c k)) && (s.slot c k).state == .active
    match s.issueStrand c k n with
    | .next t =>
      if t.notIssued c k n y.pc then t.tryStrands c p rest
      else
        let q : Port := { time := s.time, slot := k, strand := n, owned := y.owned, pairs := pair
                          faulted := pair && (t.slot c k).state != .active }
        match if q.faulted then s.lowerFault c p k n q else none with
        | none => .next ((if opens then t.passOver s c p k n else t).afterIssue c p k n q whole)
        | some (m, u) =>
          match u.issueStrand c k n with
          | .next v =>
            .next (((if opens then v.passOver s c p k n else v).afterIssue c p k m q true).afterIssue c p k n { q with pairs := false } whole)
          | r => r
    | r => r

/-- The partner of what a port issued in this port cycle, if it may issue: the strand that R87 would choose among the group's remaining
ready strands (R88). Where the first of the two faulted, the partner completes all the same (R93). -/
def State.tryPartner (s : State) (c p : Nat) (q : Port) : Host.Outcome State Fault Refusal :=
  match s.ranked c p fun k x n y => k == q.slot && n != q.strand && y.state == .ready &&
      (if q.faulted then decide (y.notBefore ≤ s.time) else x.state == .active && s.mayTry x n y) with
  | (k, n) :: _ =>
    if s.partners c k n q then
      match s.issueStrand c k n with
      | .next t =>
        if t.notIssued c k n (s.group c k |>.strand n).pc then .next t
        else .next (t.afterIssue c p k n { q with pairs := false } true)
      | r => r
    else .next s
  | [] => .next s

/-- A port cycle (R77, R87, R88): a port's strands are looked at, and it issues one, and in the same cycle at most one partner. A port cycle
is a core cycle (R6). held names the strands that a latency holds back in it (log entry 10). -/
def State.portTurn (s : State) (c p : Nat) (held : List (Nat × Nat)) : Host.Outcome State Fault Refusal :=
  let s := s.refresh c p held
  match Bank.look (s.core c).ports p with
  | some q => if s.coreAt c q.time / 2 = s.cycle c then s.tryPartner c p q else s.tryStrands c p (s.issueOrder c p)
  | none => s.tryStrands c p (s.issueOrder c p)

/-! ## Turns -/

/-- The L2 gives up the line of an intermediate address of a context, unless it is a registered barrier line (R210): its dirty bytes
go to the storage beneath. -/
def State.evict (s : State) (n ia : Nat) : State :=
  let pinned := s.lines.any fun l => match l.target with
    | .global c a _ => c == n && a / 128 == ia / 128
    | _ => false
  if pinned then s else s.writeBack n fun a => a / 128 == ia / 128

/-- What a turn does: a port cycle, a unit's step with its operands, the eviction of an L2 line, or a host's read of a register. -/
def State.runTurn (s : State) : TurnKind → Host.Outcome State Fault Refusal
  | .issue c p held => s.portTurn c p held
  | .unit i a => exec i { s with arg := a }
  | .evict n ia => .next (s.evict n ia)
  | .read p a n ide => .next (if portTakes (p % 2) ide then s.barRead (p % 2) a n else s)

/-! ## The turn that the machine takes by itself -/

/-- The unit steps about a slot. -/
def slotTurns (c k : Nat) : List TurnKind :=
  let a : StepArgs := { core := c, slot := k }
  [.unit .claimServed a, .unit .taskEntry a, .unit .saveComplete a, .unit .restoreComplete a, .unit .preemptTimeout a,
   .unit .taskEnd a, .unit .haltComplete a, .unit .stepEnded a]
    ++ (List.range 5).map fun n => .unit .counterRetire { a with code := n }

/-- The unit steps about a record of a core that may be staged. -/
def recTurns (c : Nat) (r : Rec) : List TurnKind :=
  let a : StepArgs := { core := c, id := r.id }
  [.unit .stagingStart a, .unit .stagingComplete a, .unit .stagingFault a, .unit .recordAvailable a, .unit .recordAged a]

/-- The steps of the engines of a core: copy commands and lists, tile operations, descriptor fetches, scrubbing. -/
def CoreState.engineTurns (c : Nat) (x : CoreState) : List TurnKind :=
  (x.cmds.flatMap fun d => (List.range d.segs.length).map fun i => .unit .copySegment { core := c, id := d.id, acc := i })
    ++ (x.lists.map fun l => .unit .copyListEntry { core := c, id := l.id })
    ++ (x.tileOps.flatMap fun o => [.unit .tileOpStart { core := c, op := o.id }, .unit .tileOpComplete { core := c, op := o.id }])
    ++ (x.fetches.map fun f => .unit .descriptorFetch { core := c, slot := f.slot, strand := f.strand })
    ++ (x.blocks.map fun b => .unit .blockScrubDone { core := c, code := b.cls, addr := b.base })

/-- The steps of the task unit of a core. -/
def CoreState.taskTurns (c : Nat) (x : CoreState) : List TurnKind :=
  let a : StepArgs := { core := c }
  ((x.deque ++ x.inbound ++ x.binding.filterMap fun b => match b with
      | .record r _ => some r
      | _ => none).flatMap (recTurns c))
    ++ [.unit .taskEnd { a with flag := true }, .unit .restoreGroup a, .unit .slotBind a, .unit .offCorePark a, .unit .compactionCopyEnd a,
        .unit .engineWatchdog a, .unit .relaunchPush a, .unit .stealRequest a, .unit .stealBackoff a, .unit .stealRequestAtVictim a,
        .unit .stealReply a, .unit .inboundGrant a]
    ++ (List.range 5).map fun n => .unit .compactionMove { a with code := n }

/-- The turns of a core: its ports' and its units'. -/
def CoreState.turns (c : Nat) (x : CoreState) : List TurnKind :=
  [.issue c 0 [], .issue c 1 []] ++ (x.slots.flatMap fun (k, _) => slotTurns c k) ++ x.engineTurns c ++ x.taskTurns c

/-- The steps of the accesses on their way and of the waits. -/
def State.memoryTurns (s : State) : List TurnKind :=
  (s.ops.flatMap fun o => (List.range o.accs.length).flatMap fun n =>
      let a : StepArgs := { op := o.id, acc := n }
      -- the package link it waits for begins to train, once in the life of the part (R348)
      (match s.hopAt o.id n with
        | some (_, _, _, _, l) => [.unit .linkTrainStart { id := l }]
        | none => []) ++
      [.unit .routerForward a, .unit .memoryRequestAtHome a, .unit .atomicAtHome a, .unit .deterministicAmonArrival a,
       .unit .loadComplete a, .unit .storeAcknowledge a])
    ++ (s.waits.flatMap fun w => [.unit .waitRequestAtHome { id := w.id }, .unit .waitRequestRetry { id := w.id }, .unit .wake { id := w.id }])
    ++ (s.spawns.flatMap fun m => [.unit .inboundArrival { id := m.id }, .unit .spawnrReply { id := m.id }, .unit .spawnrResend { id := m.id }])

/-- The steps of the front end and of Spar. -/
def State.frontTurns (s : State) : List TurnKind :=
  (s.queues.flatMap fun (q, x) =>
      let a : StepArgs := { id := q }
      [.unit .queuePoll a, .unit .launch a, .unit .graph a, .unit .copyPacket a, .unit .barrierAdd a, .unit .barrierWait a,
       .unit .linkRelease a, .unit .linkWait a, .unit .publishPacket a, .unit .marker a, .unit .invalidPacket a]
        ++ x.started.map fun y => .unit .packetComplete { a with op := y.id })
    ++ [.unit .kernelEntryTaken {}]
    ++ (s.kernels.flatMap fun (t, _) => [.unit .rootPlacement { id := t }, .unit .kernelDone { id := t }])
    ++ (s.regions.map fun (r, _) => .unit .regionWatchdog { id := r })
    ++ (s.contexts.flatMap fun (n, _) => [.unit .releaseComplete { ctx := n }, .unit .contextDrained { ctx := n }, .unit .scrubComplete { ctx := n }])

/-- The steps of the page homes: leases, page commands, pages in a state of their own. -/
def State.pageTurns (s : State) : List TurnKind :=
  (s.leaseReqs.flatMap fun q => [.unit .leaseRequest { id := q.id }, .unit .leaseGranted { id := q.id }])
    ++ (s.leases.flatMap fun e => [.unit .leaseRenewal { id := e.id }, .unit .leaseLapse { id := e.id }])
    ++ (s.pageCmds.flatMap fun p => [.unit .pageMigrate { id := p.id }, .unit .pageEvict { id := p.id }, .unit .pageUnmap { id := p.id },
          .unit .pageSync { id := p.id }, .unit .spansCommand { id := p.id }]
          ++ (s.ctx p.ctx).lag.map fun (c, _) => .unit .spansCommand { id := p.id, core := c })
    ++ (s.pages.flatMap fun (k, _) =>
          let a : StepArgs := { ctx := k / 2 ^ 56, ia := k % 2 ^ 56 }
          [.unit .collapseComplete a, .unit .migrationDone a, .unit .drainDone a])

/-- The steps of the boot, the links, the routers, the semaphore and the debugger's command in progress. -/
def State.partTurns (s : State) : List TurnKind :=
  [.unit .powerGood {}, .unit .bistComplete {}, .unit .handoverCommit {}, .unit .semLapse {}]
    ++ (s.links.flatMap fun (n, _) => [.unit .linkTrained { id := n }, .unit .retryDone { id := n }])
    ++ (s.routers.map fun (n, _) => .unit .routerWakeDone { id := n })
    ++ (s.droops.map fun (c, _) => .unit .droopHoldEnd { id := coreBit c })
    ++ (s.hostQ.map fun (p, _) => .unit .hostApertureWrite { port := p, flag := true })
    ++ (match s.dbgCmd with
      | some w => [.unit .haltComplete { core := dbgCore w, slot := dbgSlot w }, .unit .dbgDump {}, .unit .dbgLoad {}]
      | none => [])

/-- Every turn that the machine may take by itself. -/
def State.ownTurns (s : State) : List TurnKind :=
  s.partTurns ++ s.frontTurns ++ s.pageTurns ++ s.memoryTurns ++ s.cores.flatMap fun (c, x) => x.turns c

/-- The first of a list of turns that changes the state, if one does. -/
def State.firstTurn (s : State) : List TurnKind → Option (Host.Outcome State Fault Refusal)
  | [] => none
  | k :: t =>
    match s.runTurn k with
    | .next u => let u := { u with arg := s.arg }; if u = { s with cur := u.cur } then s.firstTurn t else some (.next u)
    | r => some r

/-- What happens where no turn is scheduled: a router cycle passes, and the first turn from a moving place on that changes anything is
taken (log entry 40). -/
def State.ownTurn (s : State) : Host.Outcome State Fault Refusal :=
  let s := s.pass 1
  let l := s.ownTurns
  let n := s.time % l.length
  (s.firstTurn (l.drop n ++ l.take n)).getD (.next s)

/-- One step: the next scheduled turn, its cycles passing first (R6); without one, the machine's own. -/
def State.turn (s : State) : Host.Outcome State Fault Refusal :=
  match s.agenda with
  | [] => s.ownTurn
  | t :: rest => ({ s with agenda := rest }.pass t.delay).runTurn t.what

end Sys2Proof.Machine
end

