-- ==== Sys2Proof/Machine/Step.lean ====
section
/-! DEFINITION. The step of the machine, and the placing of one instruction where the next step fetches. -/
namespace Sys2Proof.Machine

/-- One step: the next turn (Machine/Turn.lean). -/
def step (s : State) : Host.Outcome State Fault Refusal := s.turn

/-- The page table of the placed program: in the tables at HBM addresses 0x2000 and 0x3000, one 1 GiB leaf that maps intermediate
address 0 to frame 0x4000_0000 (R334, R335). -/
def State.placePage (s : State) : State :=
  { s with mem := Memory.write (Memory.write s.mem (hbmCell 0x2000) 8 (0x3000 + 1)) (hbmCell 0x3000) 8 (0x40000000 + 3)
           ptCache := [], code := [], pages := [], owners := [], pending := [] }

/-- Context 0 with 1 GiB at intermediate address 0, that page table, and one span that maps virtual address 0 there with R, W and X
(R319, R330, R331). -/
def State.placeContext (s : State) : State :=
  let s := ((((s.setReg (.ctxIa 0) 0).setReg (.ctxIaSize 0) 1).setReg (.ctxPt 0) 0x2000).setReg (.ctxPge 0) (Reg.ctxPge 0).resetVal)
  let s := ((s.setReg (.spanVa 0 0) 0).setReg (.spanIa 0 0) 0).setReg (.spanCtl 0 0) (0x4000 + 7 <<< 32)
  s.setCtx 0 { state := .opened, spans := s.spanTable 0 }

/-- A group on slot 0 of core 0, just entered, with 64 vector registers, 8 tiles, 2 accumulators and 256 B for each lane, its blocks
allocated, and its one strand at virtual address 0 (R76, R83, R84), so many hint words of its sequence issued already (R60). -/
def State.placeGroup (s : State) (hints : Nat) : State :=
  let g := Group.entry {} 2 3 2 1 0 0
  s.setCore 0 { CoreState.fresh 0 with
    slots := [(0, { state := .active, group := g.setStrand 0 { g.strand 0 with hinted := hints } })]
    blocks := (classWants 0 2 3 2 1).map fun (cls, n) => { cls := cls, base := 0, size := n, slot := 0 } }

/-- The state with an instruction stored where the next step fetches: the bytes of its words, little-endian, and zeros after them, at
virtual address 0 of context 0, whose one strand the next turn issues, its hint words issued before. Log entry 41 says what this stands for. -/
def State.withFetchWord (s : State) (nbits w : Nat) : State :=
  let hints := ((decodeTableWord nbits w).map fun i => (seqHints i).length).getD 0
  let s := (s.placePage.placeContext.placeGroup hints).writeIA 0 0 28 (w % 2 ^ nbits)
  { s with agenda := [{ delay := 0, what := .issue 0 0 [] }] }

end Sys2Proof.Machine
end

