-- ==== Sys2Proof/WellFormed.lean ====
section
/-! DEFINITION. Which terms of the syntax words can give, and which of those the spec lets software write: the hint words of a
sequence within the limits of R60 to R64, and reserved fields zero (R51, R61, R63, R64). -/
namespace Sys2Proof

/-- Whether an opcode is one of the opcode map's 185 instructions or five hint words (R66); every other is unassigned (R68). -/
def opcodeAssigned (op : BitVec 8) : Bool :=
  let n := op.toNat
  decide (n ≤ 0x4E) || (decide (0x50 ≤ n) && decide (n ≤ 0x5E)) || (decide (0x60 ≤ n) && decide (n ≤ 0x6B))
    || (decide (0x70 ≤ n) && decide (n ≤ 0x7A)) || (decide (0x80 ≤ n) && decide (n ≤ 0x9A))
    || (decide (0xA0 ≤ n) && decide (n ≤ 0xA8)) || (decide (0xB0 ≤ n) && decide (n ≤ 0xB3))
    || (decide (0xC0 ≤ n) && decide (n ≤ 0xC6)) || (decide (0xD0 ≤ n) && decide (n ≤ 0xE4))
    || (decide (0xF0 ≤ n) && decide (n ≤ 0xF4))

/-- Whether words can give the term: at most six hint words before an instruction, an unassigned opcode's word with such an opcode,
seven hint words without an instruction (R60). A step of a unit has no words. -/
def Instr.codable (i : Instr) : Bool :=
  match i with
  | .seventhHintWord h => h.length == 7
  | .unassignedOpcode h w => decide (h.length ≤ 6) && !opcodeAssigned (w.extractLsb' 24 8)
  | i =>
    match i.parts with
    | some (h, _, _) => decide (h.length ≤ 6)
    | none => false

/-- Whether the reserved bits of a hint word are zero (R61, R63, R64). -/
def Hint.reservedZero : Hint → Bool
  | .run p => p.extractLsb' 0 14 == 0
  | .xrtc p => p.extractLsb' 0 10 == 0
  | .xmod p => p.extractLsb' 0 12 == 0
  | .ximm _ | .xrta _ => true

/-- Whether a hint word is of the kind that a sequence may hold once, or twice for XIMM, or first alone for RUN (R60). -/
def Hint.kind : Hint → Nat
  | .run _ => 0
  | .ximm _ => 1
  | .xrta _ => 2
  | .xrtc _ => 3
  | .xmod _ => 4

/-- The limits of R60: RUN first alone, at most two XIMM words, at most one of each other kind. -/
def hintsWf (h : List Hint) : Bool :=
  let count (k : Nat) : Nat := (h.filter fun x => x.kind == k).length
  (h.drop 1).all (fun x => x.kind != 0) && decide (count 1 ≤ 2) && decide (count 2 ≤ 1) && decide (count 3 ≤ 1)
    && decide (count 4 ≤ 1) && h.all Hint.reservedZero

/-- A well-formed term: an instruction that words can give, with an assigned opcode, its hint words within R60 and its reserved fields zero
(R51); or a step of a unit. -/
def Instr.wf (i : Instr) : Bool :=
  match i with
  | .seventhHintWord _ => false
  | .unassignedOpcode _ _ => false
  | i =>
    match i.parts with
    | some (h, op, p) => i.codable && hintsWf h && p &&& reservedMask op == 0
    | none => true

end Sys2Proof
end

