-- ==== Sys2Proof/Safety.lean ====
section
/-! DEFINITION. The terms in which claims speak: the invariant of every step, what counts as a safe run, and what a completed
instruction leaves as it was. -/
namespace Sys2Proof.Machine

/-! ## Safe runs -/

/-- The invariant of every step: the storage of the part and its flash are in canonical form, so that equal contents are equal data. -/
def State.Inv (s : State) : Prop := Memory.wf s.mem = true ∧ Memory.wf s.flash = true

/-- A step that goes on. -/
def goesOn (s : State) : Prop := ∃ t, step s = .next t

/-- A run of k steps that goes on and keeps the invariant at its end. -/
def SafeRun (k : Nat) (s : State) : Prop := ∃ t, Host.Core.run Sys2Proof.core k s = .next t ∧ t.Inv

/-! ## Issues -/

/-- An instruction with hint words h finds a strand to issue it, and no fault of R68. The strand's view of it is i. -/
def Issues (s : State) (h : List Hint) (i : Issue) (reserved : Bool) (f : Form) (route operand : Bool) (own : Option Flt) : Prop :=
  s.issue h = some i ∧ i.fault reserved f route operand (fun _ => own) = none

/-! ## What an instruction leaves as it was -/

/-- Everything but the issuing group, the restart times of watchdogs (R311) and what `but` takes out: other slots, the other units of
every core, every byte of storage, every management register and every other unit of the part. -/
structure Untouched (u t : State) (i : Issue) : Prop where
  slot : t.slot i.core i.slot = { u.slot i.core i.slot with group := t.group i.core i.slot }
  slots : ∀ d j, ¬(d = i.core ∧ j = i.slot) → t.slot d j = u.slot d j
  units : ∀ d, { t.core d with slots := (u.core d).slots } = u.core d
  bytes : ∀ p, t.byteAt p = u.byteAt p
  cursors : ∀ r, (Bank.lookD t.regions r {}).cursor = (Bank.lookD u.regions r {}).cursor

/-- The issuing strand of a group after its instruction: at pc, READY, its lanes and token those it has in g, its run over where the
instruction ends runs; every other strand as in g. -/
structure Stands (t : State) (i : Issue) (g : Group) (pc : DWord) (ends : Bool) : Prop where
  pc : ((t.group i.core i.slot).strand i.n).pc = pc
  ready : ((t.group i.core i.slot).strand i.n).state = .ready
  owned : ((t.group i.core i.slot).strand i.n).owned = (g.strand i.n).owned
  em : ((t.group i.core i.slot).strand i.n).em = (g.strand i.n).em
  token : ((t.group i.core i.slot).strand i.n).token = (g.strand i.n).token
  run : ends = true → ((t.group i.core i.slot).strand i.n).run = none
  others : ∀ m, m ≠ i.n → Bank.look (t.group i.core i.slot).strands m = Bank.look g.strands m

/-- An instruction of i that completed in state u has led to t: its group is g but for the issuing strand, which stands at pc, and nothing
else has changed. -/
structure Retired (u t : State) (i : Issue) (g : Group) (pc : DWord) (ends : Bool) : Prop where
  group : { t.group i.core i.slot with strands := g.strands } = g
  stands : Stands t i g pc ends
  untouched : Untouched u t i
  world : { t with cores := u.cores, regions := u.regions } = u

/-- An instruction of i that posts operation o has led from u to t: its counter counts one more, the operation is on its way unless it has
no access (a load through a span with RME first to the slice of its own die, R338), a fence's scope goes with the store that takes it (R200), the strand stands at the next instruction, and no register and no byte has changed. -/
structure Posted (u t : State) (i : Issue) (g : Group) (o : MemOp) : Prop where
  ops : t.ops = u.ops ++ (if o.accs.isEmpty then [] else
    [{ o with id := u.nextId, fence := if o.kind.writes then (g.strand i.n).fenced else none
              accs := if o.kind = .load then o.accs.map (Access.near i.core) else o.accs }])
  counted : t.group i.core i.slot =
    { g.count o.ctr u.nextId o.accs.isEmpty with strands := (t.group i.core i.slot).strands }
  stands : Stands t i g i.next false
  fence : ((t.group i.core i.slot).strand i.n).fenced = if o.kind.writes && !o.accs.isEmpty then none else (g.strand i.n).fenced
  untouched : Untouched u t i
  world : { t with cores := u.cores, regions := u.regions, ops := u.ops, nextId := u.nextId } = u

end Sys2Proof.Machine
end

