-- ==== Sys2Proof/Certificates/Slice0/Obligations.lean ====
section
/-! DEFINITION. The statements about the machine, for the provers, and the terms they are said in (Sys2Proof.Claims). -/

/-! ## How results are said -/
namespace Sys2Proof.Claims
open Sys2Proof.Machine

/-- An instruction has led to a next state in which it has retired: its group is g but for its strand, which stands at pc. -/
def Ends (e : Host.Outcome State Fault Refusal) (p : Issue × State) (g : Group) (pc : DWord) (ends : Bool) : Prop :=
  ∃ t, e = .next t ∧ Retired p.2 t p.1 g pc ends

/-- A vector result without flags: lane values written to d, or to the pair at d, in the active lanes (R56, R59, R115). -/
def Yields (e : Host.Outcome State Fault Refusal) (p : Issue × State) (d : Nat) (wide : Bool) (val : Nat → Nat) : Prop :=
  Ends e p (p.1.write d wide p.1.em val) p.1.next false

/-- A result with flags in lanes of a mask: the sticky bits take them, and where a set enable meets one of them ARITHMETIC is taken at
the next instruction (R39, R94, R131). -/
def Settles (e : Host.Outcome State Fault Refusal) (p : Issue × State) (g : Group) (m : DWord) (flags : Nat → Nat) : Prop :=
  let met := laneFlags (lanesOf m) flags &&& p.1.g.enables
  ∃ r, Retired p.2 r p.1 (g.raise (laneFlags (lanesOf m) flags)) p.1.next false ∧
    e = .next (if met = 0 then r
      else r.takeFault p.1.core p.1.slot p.1.n p.1.next
        { code := fcArithmetic, kind := 1, mask := maskOf fun l => m.getLsbD l && flags l &&& met != 0
          info := BitVec.ofNat 64 met })

/-- A vector result with flags. -/
def Computes (e : Host.Outcome State Fault Refusal) (p : Issue × State) (d : Nat) (wide : Bool) (r : Nat → Nat × Nat) : Prop :=
  Settles e p (p.1.write d wide p.1.em fun l => (r l).1) p.1.em fun l => (r l).2

/-- Source n of an instruction's sources in a lane, as a w-bit number (R114). -/
def num (j : Issue) (ys : List Src) (n w l : Nat) : BitVec w := BitVec.ofNat w (j.at ys n (.int w) l)

/-- An instruction of one operand format, its opcode, and what it makes of w-bit operands. -/
structure OpV (α : Type) where
  ins : List Hint → FmtV → Instr
  op : BitVec 8
  fn : α

end Sys2Proof.Claims

/-! ## Integers (R114 to R122) -/
namespace Sys2Proof.Claims
open Sys2Proof.Machine

/-- The integer instructions of two sources that raise no flag (R117, R119). -/
def intTwo : List (OpV ((w : Nat) → BitVec w → BitVec w → BitVec w)) :=
  [⟨.iadd, 0x10, fun _ x y => x + y⟩, ⟨.isub, 0x11, fun _ x y => x - y⟩, ⟨.imul, 0x12, fun _ x y => x * y⟩,
   ⟨.imulh, 0x13, fun w x y => BitVec.ofInt w (x.toInt * y.toInt / 2 ^ w)⟩,
   ⟨.nmulh, 0x14, fun w x y => BitVec.ofNat w (x.toNat * y.toNat / 2 ^ w)⟩] ++
  [⟨.imin, 0x1A, fun _ x y => if x.sle y then x else y⟩, ⟨.imax, 0x1B, fun _ x y => if x.sle y then y else x⟩,
   ⟨.nmin, 0x1C, fun _ x y => if x.ule y then x else y⟩, ⟨.nmax, 0x1D, fun _ x y => if x.ule y then y else x⟩] ++
  [⟨.andL, 0x20, fun _ x y => x &&& y⟩, ⟨.orL, 0x21, fun _ x y => x ||| y⟩, ⟨.xorL, 0x22, fun _ x y => x ^^^ y⟩,
   ⟨.andn, 0x23, fun _ x y => x &&& ~~~y⟩] ++
  [⟨.shl, 0x24, fun w x y => x <<< (y.toNat % w)⟩, ⟨.shrl, 0x25, fun w x y => x >>> (y.toNat % w)⟩,
   ⟨.shra, 0x26, fun w x y => x.sshiftRight (y.toNat % w)⟩, ⟨.rotl, 0x27, fun w x y => x.rotateLeft (y.toNat % w)⟩]

/-- The signed quotient or remainder of R118, given what division by zero and the overflow of -2^(w-1) by -1 yield. -/
def signedDiv (w : Nat) (zero ovf : BitVec w → BitVec w) (q : BitVec w → BitVec w → BitVec w) (x y : BitVec w) : BitVec w × Nat :=
  if y = 0 then (zero x, flDZ) else if x = BitVec.intMin w ∧ y = BitVec.allOnes w then (ovf x, flOV) else (q x y, 0)
/-- The unsigned one: no overflow. -/
def unsignedDiv (w : Nat) (zero : BitVec w → BitVec w) (q : BitVec w → BitVec w → BitVec w) (x y : BitVec w) : BitVec w × Nat :=
  if y = 0 then (zero x, flDZ) else (q x y, 0)

/-- The divisions (R27, R118). -/
def intDiv : List (OpV ((w : Nat) → BitVec w → BitVec w → BitVec w × Nat)) :=
  [⟨.idiv, 0x16, fun w => signedDiv w (fun _ => BitVec.allOnes w) (fun x => x) BitVec.sdiv⟩,
   ⟨.ndiv, 0x17, fun w => unsignedDiv w (fun _ => BitVec.allOnes w) BitVec.udiv⟩,
   ⟨.irem, 0x18, fun w => signedDiv w (fun x => x) (fun _ => 0) BitVec.srem⟩,
   ⟨.nrem, 0x19, fun w => unsignedDiv w (fun x => x) BitVec.umod⟩]

/-- The integer instructions of one source (R117, R119). -/
def intOne : List (OpV ((w : Nat) → BitVec w → BitVec w)) :=
  [⟨.iabs, 0x1E, fun _ x => if x.msb then -x else x⟩, ⟨.ineg, 0x1F, fun _ x => -x⟩,
   ⟨.popc, 0x2A, fun w x => BitVec.ofNat w ((List.range w).countP x.getLsbD)⟩,
   ⟨.clz, 0x2B, fun w x => BitVec.ofNat w (((List.range w).find? x.getMsbD).getD w)⟩,
   ⟨.brev, 0x2C, fun _ x => x.reverse⟩, ⟨.mov, 0x2F, fun _ x => x⟩]

end Sys2Proof.Claims

section Integers
open Sys2Proof Sys2Proof.Machine Sys2Proof.Claims

/-- R117 and R119 for the seventeen instructions of two integer sources without flags: where no fault is found at issue, the state is
next, each active lane of the destination holds the instruction's function of the lane's sources modulo 2^32, or 2^64 under .w64, and
nothing else changes but the strand. -/
def Obligations.IntegerTwoSources : Prop :=
  ∀ r ∈ intTwo, ∀ (h : List Hint) (f : FmtV) (s : State) (i : Issue),
    let form := intForm h f.d.toNat f.two
    Issues s h i (reservedSet r.op f.payload) form false false none →
    let p := s.sampleClk i form
    Yields (Machine.exec (r.ins h f) s) p f.d.toNat (isW64 h) fun l =>
      (r.fn (widthOf h) (num p.1 f.two 0 (widthOf h) l) (num p.1 f.two 1 (widthOf h) l)).toNat

/-- R118 for the four divisions: a zero divisor yields all ones as a quotient and the dividend as a remainder and raises DZ; the one
signed overflow yields the dividend and 0 and raises OV; otherwise the quotient is rounded towards zero. The flags are sticky and trap
where enabled (R39, R94). -/
def Sys2Proof.Claims.IntegerDivision : Prop :=
  ∀ r ∈ intDiv, ∀ (h : List Hint) (f : FmtV) (s : State) (i : Issue),
    let form := intForm h f.d.toNat f.two
    Issues s h i (reservedSet r.op f.payload) form false false none →
    let p := s.sampleClk i form
    Computes (Machine.exec (r.ins h f) s) p f.d.toNat (isW64 h) fun l =>
      let v := r.fn (widthOf h) (num p.1 f.two 0 (widthOf h) l) (num p.1 f.two 1 (widthOf h) l)
      (v.1.toNat, v.2)

/-- R117, R119, R120, R122 and R125 for the other integer instructions: IABS, INEG, POPC, CLZ, BREV and MOV of one source, IMAD of
three, BFX and BFI with their field of width bits from pos, BOOL3 bit by bit with the table in its XIMM word, IADDI with its immediate,
and SEL by a predicate. -/
def Sys2Proof.Claims.IntegerOtherForms : Prop :=
  (∀ r ∈ intOne, ∀ (h : List Hint) (f : FmtV) (s : State) (i : Issue),
    let form := intForm h f.d.toNat f.one
    Issues s h i (reservedSet r.op f.payload) form false false none →
    let p := s.sampleClk i form
    Yields (Machine.exec (r.ins h f) s) p f.d.toNat (isW64 h) fun l => (r.fn (widthOf h) (num p.1 f.one 0 (widthOf h) l)).toNat) ∧
  (∀ (h : List Hint) (f : FmtT) (s : State) (i : Issue),
    let form := intForm h f.d.toNat f.three
    Issues s h i (reservedSet 0x15 f.payload) form false false none →
    let p := s.sampleClk i form
    let v (n l : Nat) := num p.1 f.three n (widthOf h) l
    Yields (Machine.exec (.imad h f) s) p f.d.toNat (isW64 h) fun l => (v 0 l * v 1 l + v 2 l).toNat) ∧
  (∀ (h : List Hint) (f : FmtI) (s : State) (i : Issue),
    let pos := (f.imm.extractLsb' 0 5).toNat
    let width := (f.imm.extractLsb' 5 6).toNat
    width ≤ 32 → Issues s h i false (fieldForm f) false false none →
    let p := s.sampleClk i (fieldForm f)
    Yields (Machine.exec (.bfx h f) s) p f.d.toNat false fun l =>
      (num p.1 f.one 0 32 l >>> pos &&& BitVec.ofNat 32 (2 ^ width - 1)).toNat) ∧
  (∀ (h : List Hint) (f : FmtI) (s : State) (i : Issue),
    let pos := (f.imm.extractLsb' 0 5).toNat
    let width := (f.imm.extractLsb' 5 6).toNat
    width ≤ 32 → Issues s h i false (fieldForm f) false false none →
    let p := s.sampleClk i (fieldForm f)
    let m := BitVec.ofNat 32 (2 ^ width - 1) <<< pos
    Yields (Machine.exec (.bfi h f) s) p f.d.toNat false fun l =>
      ((p.1.g.vreg f.d.toNat l &&& ~~~m) ||| (num p.1 f.one 0 32 l <<< pos &&& m)).toNat) ∧
  (∀ (h : List Hint) (f : FmtT) (s : State) (i : Issue) (t : Nat),
    let form := intForm h f.d.toNat f.three 1
    ximmsOf h = [t] → t < 256 → Issues s h i false form false false none →
    let p := s.sampleClk i form
    let v (n l b : Nat) := ((num p.1 f.three n (widthOf h) l).getLsbD b).toNat
    ∃ val : Nat → Nat, Yields (Machine.exec (.bool3 h f) s) p f.d.toNat (isW64 h) val ∧
      (∀ l, val l < 2 ^ widthOf h) ∧ ∀ l, ∀ b < widthOf h, (val l).testBit b = t.testBit (v 0 l b + 2 * v 1 l b + 4 * v 2 l b)) ∧
  (∀ (h : List Hint) (f : FmtI) (s : State) (i : Issue),
    let form := intForm h f.d.toNat f.one 2
    Issues s h i (reservedSet 0x2E f.payload) form false false none →
    let p := s.sampleClk i form
    Yields (Machine.exec (.iaddi h f) s) p f.d.toNat (isW64 h) fun l =>
      (num p.1 f.one 0 (widthOf h) l + BitVec.ofInt (widthOf h) (imm11Of h f.imm.toNat)).toNat) ∧
  (∀ (h : List Hint) (f : FmtT) (s : State) (i : Issue),
    let form : Form :=
      { xmod := xmW64, routed := true, srcs := f.two, wide := isW64 h, dest := some (f.d.toNat, if isW64 h then 2 else 1) }
    Issues s h i (reservedSet 0x54 f.payload) form false false none →
    let p := s.sampleClk i form
    Yields (Machine.exec (.sel h f) s) p f.d.toNat (isW64 h) fun l =>
      (if (p.1.g.preg (f.c.toNat % 16)).getLsbD l != f.c.getLsbD 4 then num p.1 f.two 0 (widthOf h) l
        else num p.1 f.two 1 (widthOf h) l).toNat)

/-- Division, and the integer instructions of other forms than two sources (R115 to R117, R120 to R127). -/
def Obligations.IntegerOtherResults : Prop :=
  Claims.IntegerDivision ∧ Claims.IntegerOtherForms

end Integers

/-! ## Registers, sources, routes (R50, R53 to R59, R150 to R152) -/

section Registers
open Sys2Proof Sys2Proof.Machine Sys2Proof.Claims

/-- R50, R53, R56 and R150: s63, v63 and q0 read as zero and p15 as all ones, a write to s63, p15 or v63 changes nothing, and a write to
any other register of a class changes that register, in the lanes written, and no other. -/
def Obligations.RegistersReadBack : Prop :=
  ∀ g : Group,
    (g.sreg 63 = 0 ∧ g.preg 15 = BitVec.allOnes 64 ∧ g.qreg 0 = 0 ∧ ∀ l, g.vreg 63 l = 0) ∧
    (∀ v, g.setS 63 v = g ∧ g.setP 15 v = g) ∧ (∀ m x, g.setV 63 m x = g) ∧
    (∀ n k v, n ≠ 63 → (g.setS n v).sreg k = if k = n then v else g.sreg k) ∧
    (∀ n k v, n ≠ 15 → (g.setP n v).preg k = if k = n then v else g.preg k) ∧
    (∀ n k v, k ≠ 0 → (g.setQ n v).qreg k = if k = n then v else g.qreg k) ∧
    ∀ n k l m x, n ≠ 63 → l < 64 → (g.setV n m x).vreg k l = if k = n ∧ m.getLsbD l = true then x l else g.vreg k l

/-- R56, R59 and R115 for a vector result: the active lanes of the destination take the value, of a pair the low and the high half, no
other lane and no other register changes, nothing is written where d is 63, and the strand's window gains one entry in front, keeping
eight: the result in the active lanes, elsewhere the destination's previous value, zero where d is 63. -/
def Obligations.VectorResultWrite : Prop :=
  ∀ (i : Issue) (d : Nat) (wide : Bool) (m : DWord) (f : Nat → Nat),
    (∀ n l, l < 64 → (i.write d wide m f).vreg n l =
      if m.getLsbD l = true ∧ n = d ∧ n ≠ 63 then BitVec.ofNat 32 (f l)
      else if m.getLsbD l = true ∧ wide = true ∧ d ≠ 63 ∧ n = d + 1 ∧ n ≠ 63 then BitVec.ofNat 32 (f l / 2 ^ 32)
      else i.g.vreg n l) ∧
    { i.write d wide m f with vregs := i.g.vregs, strands := i.g.strands } = i.g ∧
    (∀ k, k ≠ i.n → (i.write d wide m f).strand k = i.g.strand k) ∧
    ∃ e : Lanes64, (i.write d wide m f).strand i.n = { i.x with window := (e :: i.x.window).take 8 } ∧
      ∀ l, l < 64 → e.at l = if m.getLsbD l then BitVec.ofNat 64 (f l)
        else if d = 63 then 0 else BitVec.ofNat 64 (i.g.vval d wide l)

/-- R53 and R54: what a full source code reads straight in an integer operation of 32 or 64 bits: a register or a pair, a window entry,
an s register, a special source or an integer constant; a real constant reads as its rounding to the nearest integer. -/
def Sys2Proof.Claims.SourceCodes : Prop :=
  ∀ (i : Issue) (l w : Nat), l < 64 → w = 32 ∨ w = 64 →
    let rd (n : Nat) : BitVec w := BitVec.ofNat w (i.straight { pos := 0, code := n } (.int w) l)
    (∀ n, n ≤ 63 → (rd n).truncate 32 = i.g.vreg n l) ∧
    (∀ n, n < 63 → w = 64 → rd n = ((i.g.vreg (n + 1) l) ++ (i.g.vreg n l)).truncate w) ∧
    (w = 64 → rd 63 = 0) ∧
    (∀ n, 64 ≤ n → n ≤ 71 → rd n = ((i.x.window.getD (n - 64) []).at l).truncate w) ∧
    (∀ n, 72 ≤ n → n ≤ 103 → rd n = (i.g.sreg (n - 72)).truncate w) ∧
    rd 104 = BitVec.ofNat w l ∧ rd 105 = BitVec.ofNat w (l / 4) ∧
    (i.slot < 32 → rd 106 = BitVec.ofNat w i.slot) ∧ (i.core < 1536 → rd 107 = BitVec.ofNat w i.core) ∧
    rd 110 = BitVec.ofNat w (i.g.task.id.toNat % 2 ^ 32) ∧ rd 111 = BitVec.ofNat w (i.clk.toNat % 2 ^ 32) ∧
    [112, 113, 114, 115, 116, 117, 118, 119].map rd = [0, 1, 2, 3, 4, 8, 16, BitVec.allOnes w] ∧
    [120, 121, 122, 123, 124, 125, 126, 127].map rd = [0, 0, 0, 1, 1, 3, 0, 0]

/-- R53 for the short source codes of format T: v0 to v47, the window, s0 to s5, the lane index and zero. -/
def Sys2Proof.Claims.ShortSourceCodes : Prop :=
  ∀ (i : Issue) (l w : Nat), l < 64 → w = 32 ∨ w = 64 →
    let rd (n : Nat) : BitVec w := BitVec.ofNat w (i.straight { pos := 0, short := true, code := n } (.int w) l)
    let full (n : Nat) : BitVec w := BitVec.ofNat w (i.straight { pos := 0, code := n } (.int w) l)
    (∀ n, n ≤ 47 → rd n = full n) ∧ (∀ n, 48 ≤ n → n ≤ 55 → rd n = full (n + 16)) ∧
    (∀ n, 56 ≤ n → n ≤ 61 → rd n = full (n + 16)) ∧ rd 62 = full 104 ∧ rd 63 = full 112

/-- R151 and R152: a routed source gives lane l what lane s reads straight, where s lies in l's segment of 2^seg lanes by rotation,
broadcast, exchange of index bits or the index register; a lane outside em gives the fill: zero, the lane's own value or all ones. -/
def Sys2Proof.Claims.RoutedSources : Prop :=
  ∀ (i : Issue) (y : Src) (l w : Nat), l < 64 → w = 32 ∨ w = 64 →
    let spec := (y.route i.h i.g).1
    let fill := (y.route i.h i.g).2
    let rd (l : Nat) := i.straight y (.int w) l
    spec < 4096 →
    let mode := spec / 512
    let n := 2 ^ (spec / 64 % 8)
    let p := spec % 64
    (spec = 0 → i.src y (.int w) l = rd l) ∧
    (spec ≠ 0 → mode ≤ 4 → spec / 64 % 8 ≤ 6 → ∃ s, s < 64 ∧ s / n = l / n ∧
      (mode = 0 → s = l) ∧ (mode = 1 → s % n = (l % n + p) % n) ∧ (mode = 2 → s % n = p % n) ∧ (mode = 3 → s = l ^^^ (p % n)) ∧
      (mode = 4 → s % n = (i.g.vreg p l).toNat % 64 % n) ∧
      i.src y (.int w) l =
        if i.em.getLsbD s then rd s else if fill = 0 then 0 else if fill = 1 then rd l else 2 ^ w - 1)

/-- What a source operand reads, in its long, short and routed form (R53 to R56, R60, R63, R65). -/
def Obligations.SourceOperands : Prop :=
  Claims.SourceCodes ∧ Claims.ShortSourceCodes ∧ Claims.RoutedSources

end Registers

/-! ## Uniform instructions, predicates, compares (R116, R123 to R131) -/
namespace Sys2Proof.Claims
open Sys2Proof.Machine

/-- A uniform instruction of two s registers: constructor, opcode, and its result from u, w and the function field (R128). -/
structure OpU where
  ins : List Hint → FmtU → Instr
  op : BitVec 8
  fn : DWord → DWord → BitVec 6 → DWord

/-- The uniform instructions of R128 that write s[sd] from s[sa] and s[sb]. -/
def uniTwo : List OpU :=
  [⟨.sadd, 0x80, fun u w f => u + w + f.signExtend 64⟩, ⟨.ssub, 0x81, fun u w _ => u - w⟩, ⟨.smul, 0x82, fun u w _ => u * w⟩,
   ⟨.sand, 0x83, fun u w _ => u &&& w⟩, ⟨.sor, 0x84, fun u w _ => u ||| w⟩, ⟨.sxor, 0x85, fun u w _ => u ^^^ w⟩] ++
  [⟨.sshl, 0x86, fun u w f => u <<< ((w.toNat + f.toNat) % 64)⟩, ⟨.sshrl, 0x87, fun u w f => u >>> ((w.toNat + f.toNat) % 64)⟩,
   ⟨.sshra, 0x88, fun u w f => u.sshiftRight ((w.toNat + f.toNat) % 64)⟩] ++
  [⟨.smin, 0x89, fun u w f => if f.getLsbD 0 then (if u.toNat ≤ w.toNat then u else w) else (if u.toInt ≤ w.toInt then u else w)⟩,
   ⟨.smax, 0x8A, fun u w f => if f.getLsbD 0 then (if w.toNat ≤ u.toNat then u else w) else (if w.toInt ≤ u.toInt then u else w)⟩]

/-- A predicate instruction of two predicates (R126). -/
structure OpP where
  ins : List Hint → FmtU → Instr
  op : BitVec 8
  fn : Bool → Bool → Bool

/-- PAND, POR, PXOR and PANDN. -/
def predTwo : List OpP :=
  [⟨.pand, 0x55, fun a b => a && b⟩, ⟨.por, 0x56, fun a b => a || b⟩, ⟨.pxor, 0x57, fun a b => a != b⟩, ⟨.pandn, 0x58, fun a b => a && !b⟩]

/-- A group with predicate n written in the lanes of a mask and nothing else changed (R116). -/
def PredWritten (g g' : Group) (n : Nat) (m : DWord) (v : Nat → Bool) : Prop :=
  { g' with pregs := g.pregs } = g ∧
  ∀ k l, l < 64 → (g'.preg k).getLsbD l = if k = n ∧ k ≠ 15 ∧ m.getLsbD l = true then v l else (g.preg k).getLsbD l

/-- A predicate instruction that completes: its lanes of predicate n hold v, and nothing else changes. -/
def Decides (e : Host.Outcome State Fault Refusal) (p : Issue × State) (n : Nat) (v : Nat → Bool) : Prop :=
  ∃ g', PredWritten p.1.g g' n p.1.em v ∧ Ends e p g' p.1.next false

/-- The relation that a condition code's bit stands for: equal, less, greater, unordered (R123). -/
def relBit (eq lt : Bool) : Nat := if eq then 0 else if lt then 1 else 2

end Sys2Proof.Claims

section Uniform
open Sys2Proof Sys2Proof.Machine Sys2Proof.Claims

/-- R128 for the eleven uniform instructions of two s registers: they execute whatever em holds, write s[sd], and change nothing else
but the strand; s63 reads as zero and is not written (RegistersReadBack). -/
def Sys2Proof.Claims.UniformTwoSources : Prop :=
  ∀ r ∈ uniTwo, ∀ (h : List Hint) (f : FmtU) (s : State) (i : Issue),
    Issues s h i (reservedSet r.op f.payload) {} false false none →
    Ends (Machine.exec (r.ins h f) s) (i, s)
      (i.g.setS f.sd.toNat (r.fn (i.g.sreg f.sa.toNat) (i.g.sreg f.sb.toNat) f.f)) i.next false

/-- R128 to R130 for the other uniform instructions: SCMP gives 1 or 0 by a condition code over the signed or unsigned relation, SSEL
selects by s[f], SMOVI writes its immediate, SGET reads a special register, and SSET writes FLAGS alone and ignores its reserved bits. -/
def Sys2Proof.Claims.UniformOtherForms : Prop :=
  (∀ (h : List Hint) (f : FmtU) (s : State) (i : Issue), f.f.toNat % 16 < 8 →
    Issues s h i (reservedSet 0x8B f.payload) {} false false none →
    let u := i.g.sreg f.sa.toNat
    let w := i.g.sreg f.sb.toNat
    Ends (Machine.exec (.scmp h f) s) (i, s)
      (i.g.setS f.sd.toNat
        (if f.f.getLsbD (relBit (u == w) (if f.f.getLsbD 4 then decide (u.toNat < w.toNat) else decide (u.toInt < w.toInt)))
          then 1 else 0)) i.next false) ∧
  (∀ (h : List Hint) (f : FmtU) (s : State) (i : Issue),
    Issues s h i (reservedSet 0x8C f.payload) {} false false none →
    Ends (Machine.exec (.ssel h f) s) (i, s)
      (i.g.setS f.sd.toNat (if i.g.sreg f.f.toNat = 0 then i.g.sreg f.sb.toNat else i.g.sreg f.sa.toNat)) i.next false) ∧
  (∀ (h : List Hint) (f : FmtS) (s : State) (i : Issue),
    Issues s h i (reservedSet 0x8D f.payload) { ximm := 2 } false false none →
    Ends (Machine.exec (.smovi h f) s) (i, s)
      (i.g.setS f.sd.toNat
        (match ximmsOf h with
          | [] => f.imm.signExtend 64
          | [x] => (BitVec.ofNat 24 x ++ f.imm).signExtend 64
          | x :: y :: _ => (BitVec.ofNat 22 x ++ BitVec.ofNat 24 y ++ f.imm).truncate 64)) i.next false) ∧
  (∀ (h : List Hint) (f : FmtU) (s : State) (i : Issue), f.f.toNat < 8 → i.g.task.det = false →
    Issues s h i (reservedSet 0x8E f.payload) {} false false none →
    ∃ t d, Machine.exec (.sget h f) s = .next t ∧
      Stands t i (i.g.setS f.sd.toNat
        (([i.g.flags, BitVec.ofNat 64 (s.cycle i.core), i.g.task.id, BitVec.ofNat 64 i.n, BitVec.ofNat 64 (s.core i.core).deque.length,
          i.g.task.addr, BitVec.ofNat 64 (i.g.classWord i.slot), i.g.exited] : List DWord).getD f.f.toNat 0)) i.next false ∧
      { t.group i.core i.slot with strands := i.g.strands } =
        { i.g.setS f.sd.toNat
          (([i.g.flags, BitVec.ofNat 64 (s.cycle i.core), i.g.task.id, BitVec.ofNat 64 i.n, BitVec.ofNat 64 (s.core i.core).deque.length,
            i.g.task.addr, BitVec.ofNat 64 (i.g.classWord i.slot), i.g.exited] : List DWord).getD f.f.toNat 0)
          with task := { i.g.task with decisions := d } } ∧ Untouched s t i) ∧
  (∀ (h : List Hint) (f : FmtU) (s : State) (i : Issue), f.f = 0 →
    Issues s h i (reservedSet 0x8F f.payload) {} false false none →
    Ends (Machine.exec (.sset h f) s) (i, s) { i.g with flags := i.g.sreg f.sa.toNat &&& 0x7F7F } i.next false)

/-- R123 and R124 for ICMP and NCMP: in each active lane the predicate takes the condition code's bit for the signed or unsigned
relation of the sources; inactive lanes keep it (R116). FCMP and DCMP take the relation of the numbers, unordered where one is a NaN,
and raise NV for a signalling one. -/
def Sys2Proof.Claims.Compares : Prop :=
  (∀ (h : List Hint) (f : FmtP) (s : State) (i : Issue), f.pd ≠ 15 → f.cc.toNat < 8 →
    let form := cmpForm f xmW64 (isW64 h)
    Issues s h i (reservedSet 0x50 f.payload) form false false none →
    let p := s.sampleClk i form
    let v (n l : Nat) := num p.1 f.two n (widthOf h) l
    Decides (Machine.exec (.icmp h f) s) p f.pd.toNat fun l =>
      f.cc.getLsbD (relBit (v 0 l == v 1 l) (decide ((v 0 l).toInt < (v 1 l).toInt)))) ∧
  (∀ (h : List Hint) (f : FmtP) (s : State) (i : Issue), f.pd ≠ 15 → f.cc.toNat < 8 →
    let form := cmpForm f xmW64 (isW64 h)
    Issues s h i (reservedSet 0x51 f.payload) form false false none →
    let p := s.sampleClk i form
    let v (n l : Nat) := num p.1 f.two n (widthOf h) l
    Decides (Machine.exec (.ncmp h f) s) p f.pd.toNat fun l =>
      f.cc.getLsbD (relBit (v 0 l == v 1 l) (decide ((v 0 l).toNat < (v 1 l).toNat)))) ∧
  (∀ (h : List Hint) (f : FmtP) (s : State) (i : Issue), f.pd ≠ 15 →
    let form := cmpForm f xmFtz false
    Issues s h i (reservedSet 0x52 f.payload) form false false none →
    let p := s.sampleClk i form
    let v (n l : Nat) := p.1.at f.two n (.elem 14) l
    ∃ g', PredWritten p.1.g g' f.pd.toNat p.1.em (fun l => f.cc.getLsbD (fpRel (cmpValue f32 h (v 0 l)) (cmpValue f32 h (v 1 l)))) ∧
      Settles (Machine.exec (.fcmp h f) s) p g' p.1.em fun l => (f32.value (v 0 l)).nv ||| (f32.value (v 1 l)).nv) ∧
  (∀ (h : List Hint) (f : FmtP) (s : State) (i : Issue), f.pd ≠ 15 →
    let form := cmpForm f xmFtz true
    Issues s h i (reservedSet 0x53 f.payload) form false false none →
    let p := s.sampleClk i form
    let v (n l : Nat) := p.1.at f.two n (.elem 15) l
    ∃ g', PredWritten p.1.g g' f.pd.toNat p.1.em (fun l => f.cc.getLsbD (fpRel (cmpValue f64 h (v 0 l)) (cmpValue f64 h (v 1 l)))) ∧
      Settles (Machine.exec (.dcmp h f) s) p g' p.1.em fun l => (f64.value (v 0 l)).nv ||| (f64.value (v 1 l)).nv)

/-- R126 and R127: the predicate instructions. PAND, POR, PXOR and PANDN write a predicate's active lanes; PSET takes them from an s
register; PGET, PCNT and PFF read a predicate into an s register; VOTE gives every active lane all, any or equal of the lanes' values,
or its own; ELECT sets the lowest active lane and clears the others. -/
def Sys2Proof.Claims.Predicates : Prop :=
  (∀ r ∈ predTwo, ∀ (h : List Hint) (f : FmtU) (s : State) (i : Issue), f.sd.toNat < 15 → f.sa.toNat < 16 → f.sb.toNat < 16 →
    Issues s h i (reservedSet r.op f.payload) {} false false none →
    Decides (Machine.exec (r.ins h f) s) (i, s) f.sd.toNat fun l =>
      r.fn ((i.g.preg f.sa.toNat).getLsbD l) ((i.g.preg f.sb.toNat).getLsbD l)) ∧
  (∀ (h : List Hint) (f : FmtU) (s : State) (i : Issue), f.sd.toNat < 15 →
    Issues s h i (reservedSet 0x59 f.payload) {} false false none →
    Decides (Machine.exec (.pset h f) s) (i, s) f.sd.toNat fun l => (i.g.sreg f.sa.toNat).getLsbD l) ∧
  (∀ (h : List Hint) (f : FmtU) (s : State) (i : Issue), f.sa.toNat < 16 →
    Issues s h i (reservedSet 0x5A f.payload) {} false false none →
    Ends (Machine.exec (.pget h f) s) (i, s) (i.g.setS f.sd.toNat (i.g.preg f.sa.toNat)) i.next false) ∧
  (∀ (h : List Hint) (f : FmtU) (s : State) (i : Issue), f.sa.toNat < 16 →
    Issues s h i (reservedSet 0x5B f.payload) {} false false none →
    Ends (Machine.exec (.pcnt h f) s) (i, s)
      (i.g.setS f.sd.toNat (BitVec.ofNat 64 ((List.range 64).countP (i.g.preg f.sa.toNat &&& i.em).getLsbD))) i.next false) ∧
  (∀ (h : List Hint) (f : FmtU) (s : State) (i : Issue), f.sa.toNat < 16 →
    Issues s h i (reservedSet 0x5C f.payload) {} false false none →
    Ends (Machine.exec (.pff h f) s) (i, s)
      (i.g.setS f.sd.toNat (((List.range 64).find? (i.g.preg f.sa.toNat &&& i.em).getLsbD).elim (BitVec.allOnes 64) (BitVec.ofNat 64)))
      i.next false) ∧
  (∀ (h : List Hint) (f : FmtP) (s : State) (i : Issue), f.pd ≠ 15 → f.cc.toNat < 4 →
    let form : Form := { xmod := xmW64, routed := true, srcs := f.one, wide := isW64 h }
    Issues s h i (reservedSet 0x5D f.payload) form false false none →
    let p := s.sampleClk i form
    let v (l : Nat) := num p.1 f.one 0 (widthOf h) l
    ∃ b : Nat → Bool, Decides (Machine.exec (.vote h f) s) p f.pd.toNat b ∧ ∀ l, l < 64 →
      (f.cc = 0 → (b l = true ↔ ∀ k, k < 64 → p.1.em.getLsbD k = true → v k ≠ 0)) ∧
      (f.cc = 1 → (b l = true ↔ ∃ k, k < 64 ∧ p.1.em.getLsbD k = true ∧ v k ≠ 0)) ∧
      (f.cc = 2 → (b l = true ↔ ∀ j k, j < 64 → k < 64 → p.1.em.getLsbD j = true → p.1.em.getLsbD k = true → v j = v k)) ∧
      (f.cc = 3 → (b l = true ↔ v l ≠ 0))) ∧
  (∀ (h : List Hint) (f : FmtP) (s : State) (i : Issue), f.pd ≠ 15 →
    Issues s h i (reservedSet 0x5E f.payload) {} false false none →
    Decides (Machine.exec (.elect h f) s) (i, s) f.pd.toNat fun l => decide (∀ k, k < l → i.em.getLsbD k = false))

/-- The results of the uniform instructions. -/
def Obligations.UniformResults : Prop :=
  Claims.UniformTwoSources ∧ Claims.UniformOtherForms

/-- Compares, votes and the predicate instructions. -/
def Obligations.ComparesAndPredicates : Prop :=
  Claims.Compares ∧ Claims.Predicates

end Uniform

/-! ## Floating point (R28 to R42, R132 to R149) -/
namespace Sys2Proof.Claims
open Sys2Proof.Machine

/-- The value of an operand's encoding, a subnormal read as zero under .ftz (R38). -/
def operand (F : Fmt) (m : FpMode) (b : Nat) : Fl := (F.value b).flush F m.ftz

/-- One or two elements of a word and their flags: the second in the upper half (R136). -/
def elements (n w : Nat) (fn : Nat → Nat × Nat) : Nat × Nat :=
  if n = 1 then fn 0 else ((fn 0).1 + (fn 1).1 * 2 ^ w, (fn 0).2 ||| (fn 1).2)

/-- Element j of w bits of a source. -/
def element (w x j : Nat) : Nat := x / 2 ^ (w * j) % 2 ^ w

/-- An elementwise floating-point instruction: constructor, opcode, how it reads its sources, and its function on encodings. -/
structure OpF (ι α : Type) where
  ins : List Hint → ι → Instr
  op : BitVec 8
  sh : FpShape
  fn : FpMode → α

/-- A function of two values on encodings of a format. -/
def on2 (F : Fmt) (f : Fmt → FpMode → Fl → Fl → Nat × Nat) (m : FpMode) (x y : Nat) : Nat × Nat := f F m (operand F m x) (operand F m y)
/-- A function of one value on encodings of a format. -/
def on1 (F : Fmt) (f : Fmt → FpMode → Fl → Nat × Nat) (m : FpMode) (x : Nat) : Nat × Nat := f F m (operand F m x)
/-- A function of three values on encodings of a format. -/
def on3 (F : Fmt) (f : Fmt → FpMode → Fl → Fl → Fl → Nat × Nat) (m : FpMode) (x y z : Nat) : Nat × Nat :=
  f F m (operand F m x) (operand F m y) (operand F m z)

/-- The instructions of two sources (R135 to R139, R149). -/
def fpTwo : List (OpF FmtV (Nat → Nat → Nat × Nat)) :=
  [⟨.fadd, 0x30, shF32, on2 f32 fpAdd⟩, ⟨.fsub, 0x31, shF32, on2 f32 fpSub⟩, ⟨.fmul, 0x32, shF32, on2 f32 fpMul⟩,
   ⟨.fdiv, 0x38, shF32, on2 f32 fpDiv⟩, ⟨.sftm, 0x7A, shF32.sf, on2 f32 fpSftm⟩] ++
  [⟨.fmin, 0x34, { shF32 with xmod := xmFtz ||| xmNanp }, fun m => fpMinMax f32 m false⟩,
   ⟨.fmax, 0x35, { shF32 with xmod := xmFtz ||| xmNanp }, fun m => fpMinMax f32 m true⟩,
   ⟨.fcpys, 0x36, { shF32 with xmod := xmFtz }, fpCopySign f32⟩] ++
  [⟨.hxadd, 0x3A, shF16, on2 f16 fpAdd⟩, ⟨.hxmul, 0x3B, shF16, on2 f16 fpMul⟩,
   ⟨.bxadd, 0x3D, shBf16, on2 bf16 fpAdd⟩, ⟨.bxmul, 0x3E, shBf16, on2 bf16 fpMul⟩] ++
  [⟨.dadd, 0x40, shF64, on2 f64 fpAdd⟩, ⟨.dmul, 0x41, shF64, on2 f64 fpMul⟩,
   ⟨.dmin, 0x43, { shF64 with xmod := xmFtz ||| xmNanp }, fun m => fpMinMax f64 m false⟩,
   ⟨.dmax, 0x44, { shF64 with xmod := xmFtz ||| xmNanp }, fun m => fpMinMax f64 m true⟩, ⟨.ddiv, 0x45, shF64, on2 f64 fpDiv⟩]

/-- The instructions of one source (R135, R137, R147, R148). -/
def fpOne : List (OpF FmtV (Nat → Nat × Nat)) :=
  [⟨.frnd, 0x37, { shF32 with xmod := xmRound ||| xmFtz }, on1 f32 fpRound⟩, ⟨.fsqrt, 0x39, shF32, on1 f32 fpSqrt⟩,
   ⟨.dsqrt, 0x46, shF64, on1 f64 fpSqrt⟩] ++
  [⟨.rcp, 0x70, shF32.sf, on1 f32 fpRcp⟩, ⟨.rsq, 0x71, shF32.sf, on1 f32 fpRsq⟩, ⟨.exp2, 0x72, shF32.sf, on1 f32 fpExp2⟩,
   ⟨.log2, 0x73, shF32.sf, on1 f32 fpLog2⟩, ⟨.sinp, 0x74, shF32.sf, on1 f32 fpSinp⟩, ⟨.cosp, 0x75, shF32.sf, on1 f32 fpCosp⟩] ++
  [⟨.tanh, 0x76, shF32.sf, on1 f32 fpTanh⟩, ⟨.sigm, 0x77, shF32.sf, on1 f32 fpSigm⟩, ⟨.hrcp, 0x78, shF16.sf, on1 f16 fpRcp⟩,
   ⟨.hexp2, 0x79, shF16.sf, on1 f16 fpExp2⟩]

/-- The fused instructions of three sources (R135, R136, R139). -/
def fpThree : List (OpF FmtT (Nat → Nat → Nat → Nat × Nat)) :=
  [⟨.ffma, 0x33, shF32, on3 f32 fpFma⟩, ⟨.hxfma, 0x3C, shF16, on3 f16 fpFma⟩, ⟨.bxfma, 0x3F, shBf16, on3 bf16 fpFma⟩,
   ⟨.dfma, 0x42, shF64, on3 f64 fpFma⟩]

/-- The formats of R28. -/
def formats : List Fmt := [f64, f32, f16, bf16, e5m2, e4m3, e3m2, e2m3, e2m1]

/-- A number of grains of 2^d units approximates man units as a rounding mode asks (R34, R35): RNE 0, RZ 1, RU 2, RD 3. -/
def Approximates (mode : Nat) (neg : Bool) (q man d : Nat) : Prop :=
  match mode with
  | 0 => 2 * (q * 2 ^ d) ≤ 2 * man + 2 ^ d ∧ 2 * man ≤ 2 * (q * 2 ^ d) + 2 ^ d ∧
      ((2 * (q * 2 ^ d) = 2 * man + 2 ^ d ∨ 2 * man = 2 * (q * 2 ^ d) + 2 ^ d) → q % 2 = 0)
  | 1 => q * 2 ^ d ≤ man ∧ man < (q + 1) * 2 ^ d
  | 2 => if neg then q * 2 ^ d ≤ man ∧ man < (q + 1) * 2 ^ d else man ≤ q * 2 ^ d ∧ q * 2 ^ d < man + 2 ^ d
  | 3 => if neg then man ≤ q * 2 ^ d ∧ q * 2 ^ d < man + 2 ^ d else q * 2 ^ d ≤ man ∧ man < (q + 1) * 2 ^ d
  | _ => True

end Sys2Proof.Claims

section FloatingPoint
open Sys2Proof Sys2Proof.Machine Sys2Proof.Claims

/-- R132 to R139 and R147 to R149 for the thirty-four elementwise floating-point instructions: each active lane's result holds, element
by element, the instruction's function of the sources' elements, subnormals read as zero under .ftz, and the flags of every element of
every active lane are raised and trap where enabled. -/
def Sys2Proof.Claims.FloatElementwise : Prop :=
  (∀ r ∈ fpTwo, ∀ (h : List Hint) (f : FmtV) (s : State) (i : Issue),
    let form := r.sh.form f.d.toNat f.two
    let w := r.sh.F.width
    Issues s h i (reservedSet r.op f.payload) form false false none →
    let p := s.sampleClk i form
    let v (n l : Nat) := p.1.at f.two n (.elem r.sh.t) l
    Computes (Machine.exec (r.ins h f) s) p f.d.toNat (r.sh.t == 15) fun l =>
      elements r.sh.n w fun j => r.fn (fpModeOf h) (element w (v 0 l) j) (element w (v 1 l) j)) ∧
  (∀ r ∈ fpOne, ∀ (h : List Hint) (f : FmtV) (s : State) (i : Issue),
    let form := r.sh.form f.d.toNat f.one
    let w := r.sh.F.width
    Issues s h i (reservedSet r.op f.payload) form false false none →
    let p := s.sampleClk i form
    let v (l : Nat) := p.1.at f.one 0 (.elem r.sh.t) l
    Computes (Machine.exec (r.ins h f) s) p f.d.toNat (r.sh.t == 15) fun l =>
      elements r.sh.n w fun j => r.fn (fpModeOf h) (element w (v l) j)) ∧
  (∀ r ∈ fpThree, ∀ (h : List Hint) (f : FmtT) (s : State) (i : Issue),
    let form := r.sh.form f.d.toNat f.three
    let w := r.sh.F.width
    Issues s h i (reservedSet r.op f.payload) form false false none →
    let p := s.sampleClk i form
    let v (n l : Nat) := p.1.at f.three n (.elem r.sh.t) l
    Computes (Machine.exec (r.ins h f) s) p f.d.toNat (r.sh.t == 15) fun l =>
      elements r.sh.n w fun j => r.fn (fpModeOf h) (element w (v 0 l) j) (element w (v 1 l) j) (element w (v 2 l) j))

/-- R34 and R35 step 2: rounding man · 2^exp to whole grains of 2^ge gives the nearest number of grains, ties to the even one, under
RNE; the one towards zero, up or down under RZ, RU and RD; and says whether it is inexact. A value of whole grains is kept. -/
def Sys2Proof.Claims.RoundingToGrains : Prop :=
  ∀ (ge exp : Int) (mode : Nat) (neg : Bool) (r man : Nat),
    (ge ≤ exp → roundTo ge mode neg r man exp = (man * 2 ^ (exp - ge).toNat, false)) ∧
    (exp < ge →
      Approximates mode neg (roundTo ge mode neg r man exp).1 man (ge - exp).toNat ∧
      ((roundTo ge mode neg r man exp).2 = true ↔ man % 2 ^ (ge - exp).toNat ≠ 0))

/-- R28, R29 and R35: a finite non-zero value of any format converts to that format as itself, without a flag, in every mode. -/
def Sys2Proof.Claims.RepresentableValuesKept : Prop :=
  ∀ F ∈ formats, ∀ (m : FpMode) (b : Nat) (neg : Bool) (man : Nat) (exp : Int), b < 2 ^ F.width → m.ftz = false →
    F.value b = .fin neg man exp → man ≠ 0 → F.fit m neg man exp = (b, 0)

/-- R35 steps 3 and 4, and R42 for a finite value: where the magnitude rounded to the format's grain at it exceeds the largest finite value, the
result is that largest one under .sat, under RZ, and under RU and RD from the side of zero, and otherwise the infinity, the canonical NaN in a
format that has NaNs alone, or the largest value in one that has neither; OF and NX are raised. -/
def Sys2Proof.Claims.Overflows : Prop :=
  ∀ F ∈ formats, ∀ (m : FpMode) (neg : Bool) (man lm : Nat) (exp le : Int), man ≠ 0 → m.mode ≤ 4 → F.value (F.largest false) = .fin false lm le →
    let grain := max (exp + man.log2 - F.M) (1 - (F.bias : Int) - F.M)
    let q := (roundTo grain m.mode neg m.r man exp).1
    lm * 2 ^ (le - min le grain).toNat < q * 2 ^ (grain - min le grain).toNat →
    let beyond := match F.spec with
      | .ieee => F.inf neg
      | .nanOnly => F.nan
      | .none => F.largest neg
    F.fit m neg man exp = (if m.sat = true ∨ m.mode = 1 ∨ (m.mode = 2 ∧ neg = true) ∨ (m.mode = 3 ∧ neg = false) then F.largest neg else beyond,
      flOF ||| flNX)

/-- R37: sixteen steps of a generator, whose low bits r round a magnitude up where the fraction of a grain beyond its truncation, in 65,536ths,
exceeds r. -/
def Sys2Proof.Claims.StochasticRounding : Prop :=
  (∀ g : Word, sgenSteps 16 g = Nat.repeat (fun g : Word => if g.getLsbD 0 = true then (g >>> 1) ^^^ 0x80200003#32 else g >>> 1) 16 g) ∧
  ∀ (ge exp : Int) (neg : Bool) (r man : Nat), exp < ge →
    let d := (ge - exp).toNat
    (roundTo ge 4 neg r man exp).1 = man / 2 ^ d + (if r < man % 2 ^ d * 65536 / 2 ^ d then 1 else 0)

/-- R42: conversions of infinities and NaNs to a floating-point type, and of any value to an integer type: in range its value, NX where a
rounded one differs from its source; beyond it the nearest end with NV for a floating source, the low bits or, under .sat, the nearest end for an
integer; 0 with NV for a NaN. -/
def Sys2Proof.Claims.ConversionLimits : Prop :=
  (∀ F ∈ formats, ∀ (m : FpMode) (n sg : Bool),
    convert (.flt F) m (.flt (.inf n)) =
      (match F.spec with
        | .ieee => (if m.sat then F.largest n else F.inf n, 0)
        | .nanOnly => (if m.sat then F.largest n else F.nan, flNV)
        | .none => (F.largest n, flNV)) ∧
    convert (.flt F) m (.flt (.nan sg)) = (if F.spec = .none then (0, flNV) else (F.nan, if sg then flNV else 0))) ∧
  ∀ (m : FpMode) (signed : Bool) (w : Nat), w ∈ [8, 16, 32, 64] →
    let lo : Int := if signed then -2 ^ (w - 1) else 0
    let hi : Int := if signed then 2 ^ (w - 1) - 1 else 2 ^ w - 1
    let bits' (z : Int) : Nat := (z % 2 ^ w).toNat
    let cv (v : Val) := convert (.int signed w) m v
    (∀ sg, cv (.flt (.nan sg)) = (0, flNV)) ∧ (∀ n, cv (.flt (.inf n)) = (bits' (if n then lo else hi), flNV)) ∧
    (∀ (neg : Bool) (man : Nat) (exp : Int),
      let r := roundTo 0 m.mode neg m.r man exp
      let z : Int := if neg then -(r.1 : Int) else r.1
      (lo ≤ z → z ≤ hi → cv (.flt (.fin neg man exp)) = (bits' z, if r.2 then flNX else 0)) ∧
      (z < lo → cv (.flt (.fin neg man exp)) = (bits' lo, flNV)) ∧ (hi < z → cv (.flt (.fin neg man exp)) = (bits' hi, flNV))) ∧
    ∀ z : Int, (lo ≤ z → z ≤ hi → cv (.int z) = (bits' z, 0)) ∧ (m.sat = false → cv (.int z) = (bits' z, 0)) ∧
      (m.sat = true → (z < lo → cv (.int z) = (bits' lo, 0)) ∧ (hi < z → cv (.int z) = (bits' hi, 0)))

/-- R39 and R40: a sum, difference, product, quotient, root or fused multiply-add of which any operand is a NaN gives the canonical NaN, raising
NV where one is signalling; ∞ - ∞, 0 × ∞, 0 ÷ 0, ∞ ÷ ∞ and the root of a negative value give it and raise NV; a finite non-zero value divided by
zero gives the infinity of the operands' signs and raises FZ. FMIN and FMAX give the other operand where one is a NaN, or the canonical NaN under
.nanp; the canonical NaN of two; and take -0 as less than +0. -/
def Obligations.FloatSpecialValues : Prop :=
  ∀ (F : Fmt) (m : FpMode),
    (∀ (sg : Bool) (x : Fl), let nv := (Fl.nan sg).nv ||| x.nv
      [fpAdd F m (.nan sg) x, fpSub F m (.nan sg) x, fpMul F m (.nan sg) x, fpDiv F m (.nan sg) x] = List.replicate 4 (F.nan, nv) ∧
      [fpAdd F m x (.nan sg), fpSub F m x (.nan sg), fpMul F m x (.nan sg), fpDiv F m x (.nan sg)] = List.replicate 4 (F.nan, nv)) ∧
    (∀ (sg : Bool) (x y : Fl), let nv := (Fl.nan sg).nv ||| x.nv ||| y.nv
      [fpFma F m (.nan sg) x y, fpFma F m x (.nan sg) y] = List.replicate 2 (F.nan, nv) ∧
      ((Fl.mul x y).isSome = true → fpFma F m x y (.nan sg) = (F.nan, nv))) ∧
    (∀ n k e z, fpFma F m (.inf n) (.fin k 0 e) z = (F.nan, flNV ||| z.nv) ∧ fpFma F m (.fin k 0 e) (.inf n) z = (F.nan, flNV ||| z.nv)) ∧
    (∀ n k a e, a ≠ 0 → fpFma F m (.inf n) (.fin k a e) (.inf (n == k)) = (F.nan, flNV) ∧
      fpFma F m (.inf n) (.inf k) (.inf (n == k)) = (F.nan, flNV)) ∧
    (∀ sg, fpSqrt F m (.nan sg) = (F.nan, (Fl.nan sg).nv)) ∧ fpSqrt F m (.inf true) = (F.nan, flNV) ∧
    (∀ n, fpAdd F m (.inf n) (.inf !n) = (F.nan, flNV) ∧ fpSub F m (.inf n) (.inf n) = (F.nan, flNV)) ∧
    (∀ n k e, fpMul F m (.inf n) (.fin k 0 e) = (F.nan, flNV) ∧ fpMul F m (.fin k 0 e) (.inf n) = (F.nan, flNV)) ∧
    (∀ n k e e', fpDiv F m (.fin n 0 e) (.fin k 0 e') = (F.nan, flNV) ∧ fpDiv F m (.inf n) (.inf k) = (F.nan, flNV)) ∧
    (∀ n k a e e', a ≠ 0 → fpDiv F m (.fin n a e) (.fin k 0 e') = (F.inf (n != k), flFZ)) ∧
    (∀ a e, a ≠ 0 → fpSqrt F m (.fin true a e) = (F.nan, flNV)) ∧
    (∀ (mx sg : Bool) (x y : Nat), m.ftz = false → F.value x = .nan sg → (F.value y).isNan = false →
      fpMinMax F m mx x y = (if m.nanp then F.nan else y, (Fl.nan sg).nv) ∧
      fpMinMax F m mx y x = (if m.nanp then F.nan else y, (Fl.nan sg).nv)) ∧
    (∀ (mx sg sg' : Bool) (x y : Nat), m.ftz = false → F.value x = .nan sg → F.value y = .nan sg' →
      fpMinMax F m mx x y = (F.nan, (Fl.nan sg).nv ||| (Fl.nan sg').nv)) ∧
    ∀ (x y : Nat) (e e' : Int), m.ftz = false → F.value x = .fin true 0 e → F.value y = .fin false 0 e' →
      [fpMinMax F m false x y, fpMinMax F m false y x, fpMinMax F m true x y, fpMinMax F m true y x] = [(x, 0), (x, 0), (y, 0), (y, 0)]

/-- R140 to R146 for the other floating-point instructions: CVT, PACK and UNPK convert elements between types (R42), CVT under SR after
sixteen steps of each active lane's generator (R37); FDOT4 rounds one exact sum, IDOT4 keeps 32 bits of it; LDEXP scales, FREXP splits
and FCLASS gives the class bit. -/
def Sys2Proof.Claims.FloatOtherForms : Prop :=
  (∀ (h : List Hint) (f : FmtI) (s : State) (i : Issue),
    let t := f.imm.toNat % 16
    let u := f.imm.toNat / 16 % 16
    let e := f.imm.toNat / 256
    let form := cvtForm f true (u == 15) (t == 15)
    (t ≠ 13 ∧ u ≠ 13 ∧ e < elemsOf u) → Issues s h i (reservedSet 0x47 f.payload) form false false none →
    let p := s.sampleClk i form
    let sr := (fpModeOf h).mode == 4
    let g : Group := if sr then
      { p.1.g with gens := Lanes.of fun l => if p.1.em.getLsbD l then sgenSteps 16 (p.1.g.gen l) else p.1.g.gen l } else p.1.g
    let j : Issue := { p.1 with g := g }
    Computes (Machine.exec (.cvt h f) s) (j, p.2) f.d.toNat (t == 15) fun l =>
      cvtElem { fpModeOf h with r := (g.gen l).toNat % 65536 } t u ((Ty.ofCode u).elem (j.at f.one 0 (.elem u) l) e)) ∧
  (∀ (h : List Hint) (f : FmtI) (s : State) (i : Issue),
    let t := f.imm.toNat % 16
    let u := f.imm.toNat / 16 % 16
    let e := f.imm.toNat / 256
    let form := cvtForm f false true false
    (plain32 u = true ∧ narrow t = true ∧ 2 * e + 1 < elemsOf t) → Issues s h i (reservedSet 0x48 f.payload) form false false none →
    let p := s.sampleClk i form
    Computes (Machine.exec (.pack h f) s) p f.d.toNat false fun l =>
      let x := p.1.at f.one 0 (.two u) l
      let lo := cvtElem (fpModeOf h) t u (x % 2 ^ 32)
      let hi := cvtElem (fpModeOf h) t u (x / 2 ^ 32 % 2 ^ 32)
      let old := if f.d = 63 then 0 else (p.1.g.vreg f.d.toNat l).toNat
      ((Ty.ofCode t).setElem ((Ty.ofCode t).setElem old (2 * e) lo.1) (2 * e + 1) hi.1, lo.2 ||| hi.2)) ∧
  (∀ (h : List Hint) (f : FmtI) (s : State) (i : Issue),
    let t := f.imm.toNat % 16
    let u := f.imm.toNat / 16 % 16
    let e := f.imm.toNat / 256
    let form := cvtForm f false false true
    (plain32 t = true ∧ narrow u = true ∧ 2 * e + 1 < elemsOf u) → Issues s h i (reservedSet 0x49 f.payload) form false false none →
    let p := s.sampleClk i form
    Computes (Machine.exec (.unpk h f) s) p f.d.toNat true fun l =>
      elements 2 32 fun j => cvtElem (fpModeOf h) t u ((Ty.ofCode u).elem (p.1.at f.one 0 (.elem u) l) (2 * e + j))) ∧
  (∀ (h : List Hint) (f : FmtT) (s : State) (i : Issue),
    let ty := dotTypes h 8
    let form : Form := { ximm := 1, xmod := xmArith, routed := true, srcs := f.three, dest := some (f.d.toNat, 1) }
    dotBad h 8 (fun t => decide (8 ≤ t) && decide (t ≤ 11)) = false → Issues s h i (reservedSet 0x4A f.payload) form false false none →
    let p := s.sampleClk i form
    let fmt (t : Nat) : Fmt := ([e4m3, e5m2, e3m2, e2m3] : List Fmt).getD (t - 8) f32
    Computes (Machine.exec (.fdot4 h f) s) p f.d.toNat false fun l =>
      let z := operand f32 (fpModeOf h) (p.1.at f.three 2 (.elem 14) l)
      let a (k : Nat) := (fmt ty.1).value ((Ty.ofCode ty.1).elem (p.1.at f.three 0 (.elem ty.1) l) k)
      let b (k : Nat) := (fmt ty.2).value ((Ty.ofCode ty.2).elem (p.1.at f.three 1 (.elem ty.2) l) k)
      ((((({} : Sum).add z).addMul (a 0) (b 0)).addMul (a 1) (b 1)).addMul (a 2) (b 2) |>.addMul (a 3) (b 3)).result f32 (fpModeOf h) z.nv) ∧
  (∀ (h : List Hint) (f : FmtT) (s : State) (i : Issue),
    let ty := dotTypes h 0
    let form : Form := { ximm := 1, routed := true, srcs := f.three, dest := some (f.d.toNat, 1) }
    dotBad h 0 (fun t => decide (t ≤ 1)) = false → Issues s h i (reservedSet 0x4B f.payload) form false false none →
    let p := s.sampleClk i form
    let byte (x : Nat) (t k : Nat) : Int := if t = 0 then ((BitVec.ofNat 32 x).extractLsb' (8 * k) 8).toInt else (x / 2 ^ (8 * k) % 256 : Nat)
    Yields (Machine.exec (.idot4 h f) s) p f.d.toNat false fun l =>
      let a (k : Nat) := byte (p.1.at f.three 0 (.elem ty.1) l) ty.1 k
      let b (k : Nat) := byte (p.1.at f.three 1 (.elem ty.2) l) ty.2 k
      (BitVec.ofInt 32 (p.1.at f.three 2 (.int 32) l + a 0 * b 0 + a 1 * b 1 + a 2 * b 2 + a 3 * b 3)).toNat) ∧
  (∀ (h : List Hint) (f : FmtV) (s : State) (i : Issue),
    let form := shF32.form f.d.toNat f.two
    Issues s h i (reservedSet 0x4C f.payload) form false false none →
    let p := s.sampleClk i form
    Computes (Machine.exec (.ldexp h f) s) p f.d.toNat false fun l =>
      fpLdexp (fpModeOf h) (operand f32 (fpModeOf h) (p.1.at f.two 0 (.elem 14) l)) (num p.1 f.two 1 32 l).toInt) ∧
  (∀ (h : List Hint) (f : FmtV) (s : State) (i : Issue),
    let form : Form := { xmod := xmFtz, routed := true, srcs := f.one, dest := some (f.d.toNat, 2) }
    Issues s h i (reservedSet 0x4D f.payload) form false false none →
    let p := s.sampleClk i form
    Computes (Machine.exec (.frexp h f) s) p f.d.toNat true fun l =>
      fpFrexp (operand f32 (fpModeOf h) (p.1.at f.one 0 (.elem 14) l))) ∧
  (∀ (h : List Hint) (f : FmtV) (s : State) (i : Issue),
    let t := f.b.toNat % 16
    let F := classFmt t
    let form : Form := { routed := true, srcs := f.one, wide := t == 15, dest := some (f.d.toNat, 1) }
    (t = 6 ∨ t = 7 ∨ t = 14 ∨ t = 15) → Issues s h i (reservedSet 0x4E f.payload) form false false none →
    let p := s.sampleClk i form
    Yields (Machine.exec (.fclass h f) s) p f.d.toNat false fun l => 2 ^ fpClass F (p.1.at f.one 0 (.elem t) l % 2 ^ F.width))

/-- The results of the floating-point instructions. -/
def Obligations.FloatResults : Prop :=
  Claims.FloatElementwise ∧ Claims.FloatOtherForms

/-- Rounding to a format: to one of the two neighbours, by a lane's generator under SR, and a representable value to itself; what overflows; and
conversions that do not fit. -/
def Obligations.Rounding : Prop :=
  Claims.RoundingToGrains ∧ Claims.StochasticRounding ∧ Claims.RepresentableValuesKept ∧ Claims.Overflows ∧ Claims.ConversionLimits

end FloatingPoint

/-! ## Lanes: q registers, keys, gather and scatter, scans (R45, R46, R156 to R166) -/
namespace Sys2Proof.Claims
open Sys2Proof.Machine

/-- The number of active lanes below a lane. -/
def rankIn (m : DWord) (l : Nat) : Nat := (List.range l).countP m.getLsbD

/-- The sum of a value over the active lanes below a lane (R159). -/
def sumBelow (m : DWord) (x : Nat → Nat) (l : Nat) : Nat := (((List.range l).filter m.getLsbD).map x).sum

/-- The integer combinations of R163 with their identities. -/
def combine (op : Nat) : (BitVec 32 → BitVec 32 → BitVec 32) × BitVec 32 :=
  match op with
  | 0 => (fun x y => x + y, 0)
  | 1 => (fun x y => x &&& y, BitVec.allOnes 32)
  | 2 => (fun x y => x ||| y, 0)
  | 3 => (fun x y => x ^^^ y, 0)
  | 4 => (fun x y => if x.sle y then x else y, BitVec.intMax 32)
  | 5 => (fun x y => if x.sle y then y else x, BitVec.intMin 32)
  | 6 => (fun x y => if x.ule y then x else y, BitVec.allOnes 32)
  | _ => (fun x y => if x.ule y then y else x, 0)

/-- A combination of the active lanes below n, in lane order. -/
def combined (op : Nat) (m : DWord) (x : Nat → BitVec 32) (n : Nat) : BitVec 32 :=
  (((List.range n).filter m.getLsbD).map x).foldl (combine op).1 (combine op).2

end Sys2Proof.Claims

section Lanes
open Sys2Proof Sys2Proof.Machine Sys2Proof.Claims

/-- R156 to R162 and R166: QSET and QGET; MATCH gives each active lane the mask of the active lanes with its value, RANK the number of
lower ones; BALANCE the row and offset of the lane's item among rows laid end to end; XSEL reads a lane of a register range, XPUT
writes one, the highest lane of those that meet at a place last; COMPACT moves the selected lanes' values to the lowest active lanes. -/
def Obligations.LaneExchange : Prop :=
  (∀ (h : List Hint) (f : FmtU) (s : State) (i : Issue), 1 ≤ f.sd.toNat → f.sd.toNat ≤ 3 →
    qBad ((i.g.sreg f.sa.toNat).toNat % 65536) = false → Issues s h i (reservedSet 0x60 f.payload) {} false false none →
    Ends (Machine.exec (.qset h f) s) (i, s) (i.g.setQ f.sd.toNat ((i.g.sreg f.sa.toNat).truncate 16)) i.next false) ∧
  (∀ (h : List Hint) (f : FmtU) (s : State) (i : Issue), f.sa.toNat < 4 →
    Issues s h i (reservedSet 0x61 f.payload) {} false false none →
    Ends (Machine.exec (.qget h f) s) (i, s) (i.g.setS f.sd.toNat ((i.g.qreg f.sa.toNat).zeroExtend 64)) i.next false) ∧
  (∀ (h : List Hint) (f : FmtV) (s : State) (i : Issue),
    let form : Form := { xmod := xmW64, routed := true, srcs := f.one, wide := isW64 h, dest := some (f.d.toNat, 2) }
    Issues s h i (reservedSet 0x62 f.payload) form false false none →
    let p := s.sampleClk i form
    let v (l : Nat) := num p.1 f.one 0 (widthOf h) l
    ∃ val : Nat → DWord, Yields (Machine.exec (.matchL h f) s) p f.d.toNat true (fun l => (val l).toNat) ∧
      ∀ l j, l < 64 → j < 64 → (val l).getLsbD j = (p.1.em.getLsbD j && v j == v l)) ∧
  (∀ (h : List Hint) (f : FmtV) (s : State) (i : Issue),
    let form : Form :=
      { xmod := xmW64, routed := true, srcs := f.one, wide := isW64 h, dest := some (f.d.toNat, if isW64 h then 2 else 1) }
    Issues s h i (reservedSet 0x63 f.payload) form false false none →
    let p := s.sampleClk i form
    let v (l : Nat) := num p.1 f.one 0 (widthOf h) l
    Yields (Machine.exec (.rank h f) s) p f.d.toNat (isW64 h) fun l =>
      (List.range l).countP fun j => p.1.em.getLsbD j && v j == v l) ∧
  (∀ (h : List Hint) (f : FmtV) (s : State) (i : Issue),
    let b := f.b.toNat
    let form : Form := { routed := true, srcs := f.one, dest := some (f.d.toNat, 2) }
    (72 ≤ b ∧ b < 104) ∨ (112 ≤ b ∧ b < 120) → Issues s h i (reservedSet 0x64 f.payload) form false false none →
    let p := s.sampleClk i form
    let x (l : Nat) := (num p.1 f.one 0 32 l).toNat
    let cursor : Nat := if b < 104 then (p.1.g.sreg (b - 72)).toNat % 2 ^ 32 else (BitVec.ofInt 32 (constInt b)).toNat
    ∃ val : Nat → Nat, Yields (Machine.exec (.balance h f) s) p f.d.toNat true val ∧
      ∀ l, l < 64 → p.1.em.getLsbD l = true →
        let n := cursor + rankIn p.1.em l
        (∀ j, j < 64 → p.1.em.getLsbD j = true → sumBelow p.1.em x j ≤ n → n < sumBelow p.1.em x j + x j →
          val l = j + 2 ^ 32 * (n - sumBelow p.1.em x j)) ∧
        ((∀ j, j < 64 → p.1.em.getLsbD j = true → ¬(sumBelow p.1.em x j ≤ n ∧ n < sumBelow p.1.em x j + x j)) → val l = 2 ^ 64 - 1)) ∧
  (∀ (h : List Hint) (f : FmtI) (s : State) (i : Issue),
    let imm := f.imm.toNat
    let form : Form := { routed := true, srcs := f.one, dest := some (f.d.toNat, 1), fillAlways := true }
    Issues s h i (reservedSet 0x65 f.payload) form false (i.g.rangeBad imm) none → i.g.rangeBad imm = false →
    let p := s.sampleClk i form
    let x (l : Nat) := (num p.1 f.one 0 32 l).toNat
    let fill := match xrtcsOf h with
      | w :: _ => w / 1024 % 4
      | [] => 0
    Yields (Machine.exec (.xsel h f) s) p f.d.toNat false fun l =>
      let r := imm % 64 + x l / 64 % 8 % 2 ^ (imm / 64 % 4)
      (if p.1.em.getLsbD (x l % 64) then p.1.g.vreg r (x l % 64)
        else if fill = 0 then 0 else if fill = 1 then p.1.g.vreg r l else BitVec.allOnes 32).toNat) ∧
  (∀ (h : List Hint) (f : FmtI) (s : State) (i : Issue),
    let imm := f.imm.toNat
    let form : Form := { routed := true, srcs := f.one }
    let bad := i.g.rangeBad imm || i.g.srcBad f.d.toNat false
    Issues s h i (reservedSet 0x66 f.payload) form false bad none → bad = false →
    let p := s.sampleClk i form
    let x (l : Nat) := (num p.1 f.one 0 32 l).toNat
    let dst (l : Nat) : Nat × Nat := (imm % 64 + x l / 64 % 8 % 2 ^ (imm / 64 % 4), x l % 64)
    ∃ g', Ends (Machine.exec (.xput h f) s) p g' p.1.next false ∧ { g' with vregs := p.1.g.vregs } = p.1.g ∧
      (∀ r t, t < 64 → (∀ l, l < 64 → p.1.em.getLsbD l = true → dst l ≠ (r, t)) → g'.vreg r t = p.1.g.vreg r t) ∧
      (∀ r t, t < 64 → p.1.em.getLsbD t = false → g'.vreg r t = p.1.g.vreg r t) ∧
      (∀ l, l < 64 → p.1.em.getLsbD l = true → p.1.em.getLsbD (dst l).2 = true → (dst l).1 ≠ 63 →
        (∀ k, l < k → k < 64 → p.1.em.getLsbD k = true → dst k ≠ dst l) → g'.vreg (dst l).1 (dst l).2 = p.1.g.vreg f.d.toNat l)) ∧
  (∀ (h : List Hint) (f : FmtV) (s : State) (i : Issue),
    let form : Form :=
      { xmod := xmW64, routed := true, srcs := f.one, wide := isW64 h, dest := some (f.d.toNat, if isW64 h then 2 else 1) }
    Issues s h i (reservedSet 0x6B f.payload) form false false none →
    let p := s.sampleClk i form
    let q := p.1.g.preg (f.b.toNat % 16)
    let chosen := (List.range 64).filter fun l => p.1.em.getLsbD l && (q.getLsbD l != f.b.getLsbD 4)
    ∃ m : DWord, (∀ l, l < 64 → m.getLsbD l = (p.1.em.getLsbD l && decide (rankIn p.1.em l < chosen.length))) ∧
      Ends (Machine.exec (.compact h f) s) p
        (p.1.write f.d.toNat (isW64 h) m fun l => (num p.1 f.one 0 (widthOf h) (chosen.getD (rankIn p.1.em l) 0)).toNat) p.1.next false)

/-- R45, R46, R163 to R165 for integers: SCAN gives each active lane the combination of the active lanes up to it, under .ex of those
below it, with the identity in the lowest, whatever tree forms it; RED gives an s register the combination of all of them. -/
def Sys2Proof.Claims.IntegerScans : Prop :=
  (∀ (h : List Hint) (f : FmtV) (s : State) (i : Issue),
    let form : Form := { routed := true, srcs := f.one, dest := some (f.d.toNat, 1) }
    Issues s h i (reservedSet 0x67 f.payload) form false false none →
    let p := s.sampleClk i form
    Yields (Machine.exec (.scan h f) s) p f.d.toNat false fun l =>
      (combined (f.b.toNat % 8) p.1.em (num p.1 f.one 0 32) (if f.b.getLsbD 3 then l else l + 1)).toNat) ∧
  (∀ (h : List Hint) (f : FmtV) (s : State) (i : Issue),
    let form : Form := { routed := true, srcs := f.one }
    Issues s h i (reservedSet 0x68 f.payload) form false false none →
    let p := s.sampleClk i form
    Ends (Machine.exec (.red h f) s) p
      (p.1.g.setS f.d.toNat ((combined (f.b.toNat % 8) p.1.em (num p.1 f.one 0 32) 64).zeroExtend 64)) p.1.next false)

/-- R45, R46, R163 to R165 for f32: FSCAN and FRED combine the active lanes in the tree of R45, inactive lanes standing as the identity,
with the flags of every combination used; FRED's trap names every active lane. -/
def Sys2Proof.Claims.FloatScans : Prop :=
  (∀ (h : List Hint) (f : FmtV) (s : State) (i : Issue),
    let form : Form := { xmod := fscanXmod f, routed := true, srcs := f.one, dest := some (f.d.toNat, 1) }
    scanOp f < 3 → Issues s h i (reservedSet 0x69 f.payload) form false false none →
    let p := s.sampleClk i form
    let c := floatCombiner (fpModeOf h) (scanOp f)
    let t := c.tree p.1.em fun l => p.1.at f.one 0 (.elem 14) l
    Computes (Machine.exec (.fscan h f) s) p f.d.toNat false fun l =>
      (floatLeaf (fpModeOf h) (c.scanAt t (scanEx f) l).1, (c.scanAt t (scanEx f) l).2)) ∧
  (∀ (h : List Hint) (f : FmtV) (s : State) (i : Issue),
    let form : Form := { xmod := fscanXmod f, routed := true, srcs := f.one }
    scanOp f < 3 → Issues s h i (reservedSet 0x6A f.payload) form false false none →
    let p := s.sampleClk i form
    let c := floatCombiner (fpModeOf h) (scanOp f)
    let r := c.root (c.tree p.1.em fun l => p.1.at f.one 0 (.elem 14) l)
    Settles (Machine.exec (.fred h f) s) p (p.1.g.setS f.d.toNat (BitVec.ofNat 64 r.1)) p.1.em fun _ => r.2)

/-- Integer and floating-point scans and reductions. -/
def Obligations.ScansAndReductions : Prop :=
  Claims.IntegerScans ∧ Claims.FloatScans

end Lanes

/-! ## Flow (R57, R58, R77 to R82, R100 to R113) -/
namespace Sys2Proof.Claims
open Sys2Proof.Machine

/-- An instruction without sources, hints but RUN, and operand conditions. -/
def Plain (s : State) (h : List Hint) (i : Issue) (op : BitVec 8) (pl : BitVec 24) : Prop :=
  Issues s h i (reservedSet op pl) bare false false none

/-- The target of a format B word: four times its signed offset from its own address (R50). -/
def target (i : Issue) (f : FmtB) : DWord := i.addr + BitVec.ofInt 64 (4 * f.off.toInt)

/-- The lanes of a predicate, inverted by neg (R50). -/
def lanes (g : Group) (f : FmtB) : DWord := if f.neg = 1 then ~~~ g.preg f.p.toNat else g.preg f.p.toNat

/-- A strand begins to wait: its run over, WAITING with what it waits for, at its instruction's own word; the sequence's first word is kept
for a fault that names the instruction (R58, R77, R391). -/
def Waits (t : State) (i : Issue) (w : Wait) : Prop :=
  let x := (t.group i.core i.slot).strand i.n
  x.state = .waiting ∧ x.wait = { w with issue := i.pc } ∧ x.run = none ∧ x.pc = i.addr ∧ x.owned = i.x.owned ∧ x.em = i.x.em ∧ x.token = i.x.token ∧
    (∀ m, m ≠ i.n → Bank.look (t.group i.core i.slot).strands m = Bank.look i.g.strands m) ∧
    { t.group i.core i.slot with strands := i.g.strands } = i.g

/-- A strand is STALLED with nothing else changed (R77). -/
def Stalls (e : Host.Outcome State Fault Refusal) (s : State) (i : Issue) : Prop :=
  let g := s.group i.core i.slot
  e = .next (s.setGroup i.core i.slot (g.setStrand i.n { g.strand i.n with state := .stalled }))

/-- The chain of tokens of an issuing strand, innermost first (R78). -/
def chain (i : Issue) : List Nat := i.g.chain (i.g.strand i.n)

/-- What an arrival or an exit of lanes m leaves of the issuing strand: gone where it owned no other lane, else READY at an address
with those lanes taken out (R81, R82). -/
def Leaves (t : State) (i : Issue) (m pc : DWord) : Prop :=
  let x := Bank.look (t.group i.core i.slot).strands i.n
  if i.x.owned &&& ~~~m = 0 then x = none
  else ∃ y, x = some y ∧ y.pc = pc ∧ y.state = .ready ∧ y.owned = i.x.owned &&& ~~~m ∧ y.em = i.x.em &&& ~~~m ∧ y.token = i.x.token ∧ y.run = none

/-- Lanes m of the issuing strand, active in a, have arrived at token u of its chain (R81): no token up to u waits for them any longer, u holds
them with those that arrived before, and where it waits for no lane now it claims a strand number, at this cycle. -/
def ArrivesAt (s t : State) (i : Issue) (m a : DWord) (u : Nat) : Prop :=
  let x := i.g.token u
  let y := (t.group i.core i.slot).token u
  y = { x with pending := x.pending &&& ~~~m, arrived := x.arrived ||| m, arrivedEm := x.arrivedEm ||| a
               claim := y.claim, claimAt := y.claimAt } ∧
    (x.pending &&& ~~~m ≠ 0 → y.claim = x.claim ∧ y.claimAt = x.claimAt) ∧
    (x.pending &&& ~~~m = 0 → x.claim = 0 → y.claim ≠ 0 ∧ y.claimAt = s.time) ∧
    ∀ j ∈ (chain i).takeWhile (· ≠ u), ((t.group i.core i.slot).token j).pending &&& m = 0

/-- A strand's lanes have arrived or left: of its group only strands, tokens and `exited` may differ, its other strands do not; nor does any
register, any other slot or unit, any byte, and of the accesses on their way only their program orders may (R81, R82, R199). -/
def OnlyFlow (s t : State) (i : Issue) : Prop :=
  { t.group i.core i.slot with
    strands := i.g.strands, tokens := i.g.tokens, exited := i.g.exited, ending := i.g.ending, step := i.g.step } = i.g ∧
    (∀ n, n ≠ i.n → Bank.look (t.group i.core i.slot).strands n = Bank.look i.g.strands n) ∧
    (∀ d j, ¬(d = i.core ∧ j = i.slot) → t.slot d j = s.slot d j) ∧ (∀ d, { t.core d with slots := (s.core d).slots } = s.core d) ∧
    (∀ p, t.byteAt p = s.byteAt p) ∧ { t with cores := s.cores, regions := s.regions, ops := s.ops } = s ∧
    t.ops.map (fun o : MemOp => { o with accs := o.accs.map fun a : Access => { a with owners := [] } }) =
      s.ops.map fun o : MemOp => { o with accs := o.accs.map fun a : Access => { a with owners := [] } }

end Sys2Proof.Claims

section Flow
open Sys2Proof Sys2Proof.Machine Sys2Proof.Claims

/-- R101: NOP has no effect; it counts in a run, which has one instruction less left or is over, and the strand stands at the next
instruction. -/
def Obligations.NopHasNoEffect : Prop :=
  ∀ (h : List Hint) (f : FmtC) (s : State) (i : Issue), Plain s h i 0x00 f.payload →
    ∃ t, Machine.exec (.nop h f) s = .next t ∧ Retired s t i i.g i.next false ∧
      ∀ r, i.x.run = some r →
        ((t.group i.core i.slot).strand i.n).run = if r.left ≤ 1 then none else some { r with left := r.left - 1 }

/-- R112: EMSET sets em to s[sA] and O, EMGET sets s[sD] to em. -/
def Obligations.ExecutionMask : Prop :=
  (∀ (h : List Hint) (f : FmtC) (s : State) (i : Issue), Plain s h i 0x0E f.payload →
    Ends (Machine.exec (.emset h f) s) (i, s)
      (i.g.setStrand i.n { i.x with em := i.g.sreg f.sa.toNat &&& i.x.owned }) i.next false) ∧
  (∀ (h : List Hint) (f : FmtC) (s : State) (i : Issue), Plain s h i 0x0F f.payload →
    Ends (Machine.exec (.emget h f) s) (i, s) (i.g.setS f.sa.toNat i.x.em) i.next false)

/-- R110: YIELD ends the strand's run, restarts its waiting time and marks it give-way; it has no other effect. -/
def Obligations.YieldGivesWay : Prop :=
  ∀ (h : List Hint) (f : FmtC) (s : State) (i : Issue), Plain s h i 0x0C f.payload →
    ∃ t, Machine.exec (.yield h f) s = .next t ∧ Retired s t i i.g i.next true ∧
      ((t.group i.core i.slot).strand i.n).give = true ∧ ((t.group i.core i.slot).strand i.n).since = s.time + 2

/-- R80 and R102 for BRA: with em empty it follows whether the predicate is all ones; with one outcome for every active lane it goes
there; otherwise the lanes that take it form a strand on the lowest free number at the target, with the same token, and the strand goes
on with the rest, or, with eight strands in use, the lanes wait as a deferred entry. BRX goes where s[sA] says. -/
def Obligations.Branches : Prop :=
  (∀ (h : List Hint) (f : FmtB) (s : State) (i : Issue),
    Issues s h i (reservedSet 0x01 f.payload) bare false false (i.braFault f) →
    let t := i.x.em &&& lanes i.g f
    let u := i.x.em &&& ~~~ lanes i.g f
    (i.x.em = 0 → Ends (Machine.exec (.bra h f) s) (i, s) i.g
      (if lanes i.g f = BitVec.allOnes 64 then target i f else i.next) true) ∧
    (i.x.em ≠ 0 → u = 0 → Ends (Machine.exec (.bra h f) s) (i, s) i.g (target i f) true) ∧
    (i.x.em ≠ 0 → t = 0 → Ends (Machine.exec (.bra h f) s) (i, s) i.g i.next true) ∧
    (t ≠ 0 → u ≠ 0 → f.uni ≠ 1 ∧
      (∀ n, i.g.freeStrand = some n → Ends (Machine.exec (.bra h f) s) (i, s)
        ((i.g.setStrand i.n { i.x with owned := i.x.owned &&& ~~~t, em := u }).setStrand n
          { pc := target i f, owned := t, em := t, token := i.x.token, since := s.time + 2, notBefore := s.time + 4 }) i.next true) ∧
      (i.g.freeStrand = none → ∃ n, i.g.freeToken = some n ∧ Ends (Machine.exec (.bra h f) s) (i, s)
        { (i.g.setStrand i.n { i.x with owned := i.x.owned &&& ~~~t, em := u }).setToken n
            { kind := .deferred, cont := target i f, mask := t, parent := i.x.token, maker := some i.n, order := i.g.made }
          with made := i.g.made + 1 } i.next true))) ∧
  (∀ (h : List Hint) (f : FmtC) (s : State) (i : Issue), (i.g.sreg f.sa.toNat).toNat % 4 = 0 →
    Plain s h i 0x02 f.payload → Ends (Machine.exec (.brx h f) s) (i, s) i.g (i.g.sreg f.sa.toNat) true)

/-- R79, R103 and R104: where the pool has a free entry CALL, CALLX and RCV complete: CALL and CALLX push a call token that continues at the
next instruction and go to their target; RCV pushes a reconvergence token that continues after its target and goes on in its run. The token
takes the lowest free entry, holds the strand's owned lanes as mask and pending, and hangs on the strand's token. With no free entry each is
TOKEN_OVERFLOW (R78). -/
def Sys2Proof.Claims.TokenPushes : Prop :=
  (∀ (h : List Hint) (s : State) (i : Issue) (n : Nat), i.g.freeToken = some n →
    let push (k : TokenKind) (cont : DWord) : Group :=
      (i.g.setToken n { kind := k, cont := cont, mask := i.x.owned, pending := i.x.owned, parent := i.x.token }).setStrand i.n
        { i.x with token := some n }
    (∀ f : FmtB, f.p = 15 → f.neg = 0 → Plain s h i 0x03 f.payload →
      ∃ t, Machine.exec (.call h f) s = .next t ∧ Retired s t i (push .call i.next) (target i f) true) ∧
    (∀ f : FmtC, (i.g.sreg f.sa.toNat).toNat % 4 = 0 → Plain s h i 0x04 f.payload →
      ∃ t, Machine.exec (.callx h f) s = .next t ∧ Retired s t i (push .call i.next) (i.g.sreg f.sa.toNat) true) ∧
    (∀ f : FmtB, f.p = 15 → f.neg = 0 → Plain s h i 0x06 f.payload →
      ∃ t, Machine.exec (.rcv h f) s = .next t ∧ Retired s t i (push .reconv (target i f + 4)) i.next false)) ∧
  (∀ (h : List Hint) (s : State) (i : Issue), i.g.freeToken = none →
    let overflow := s.takeFault i.core i.slot i.n i.pc { code := 0x0203 }
    (∀ f : FmtB, f.p = 15 → f.neg = 0 → Plain s h i 0x03 f.payload → Machine.exec (.call h f) s = .next overflow) ∧
    (∀ f : FmtC, (i.g.sreg f.sa.toNat).toNat % 4 = 0 → Plain s h i 0x04 f.payload → Machine.exec (.callx h f) s = .next overflow) ∧
    (∀ f : FmtB, f.p = 15 → f.neg = 0 → Plain s h i 0x06 f.payload → Machine.exec (.rcv h f) s = .next overflow))

/-- R81, R82 and R103 to R107: RET, FUSE, BRK and EXIT complete. Under RET every lane the strand owns arrives at its innermost call token, under
FUSE at the reconvergence token that names the address, without one the strand goes on; under BRK its chosen active lanes arrive at the n-th
token, every owned lane where no active one stays, and with none chosen it goes on; under EXIT the chosen active lanes, or every owned lane
where no active one stays, are exited, and no token of the chain waits for them. A strand with no lane left ceases; another goes on with its
rest. RET and BRK without their token are ILLEGAL_CONVERGENCE. -/
def Sys2Proof.Claims.ArrivalsAndExit : Prop :=
  (∀ (h : List Hint) (f : FmtC) (s : State) (i : Issue), Plain s h i 0x05 f.payload →
    (∀ u, i.g.callToken (chain i) = some u → i.x.owned ≠ 0 → ∃ t, Machine.exec (.ret h f) s = .next t ∧
      Leaves t i i.x.owned i.next ∧ ArrivesAt s t i i.x.owned i.x.em u ∧ OnlyFlow s t i ∧ (t.group i.core i.slot).exited = i.g.exited) ∧
    (i.g.callToken (chain i) = none → Machine.exec (.ret h f) s = .next (s.takeFault i.core i.slot i.n i.pc { code := 0x0202 }))) ∧
  (∀ (h : List Hint) (f : FmtC) (s : State) (i : Issue), Plain s h i 0x07 f.payload →
    (i.g.fuseToken (chain i) i.addr = none → ∃ t, Machine.exec (.fuse h f) s = .next t ∧ Retired s t i i.g i.next true) ∧
    ∀ u, i.g.fuseToken (chain i) i.addr = some u → i.x.owned ≠ 0 → ∃ t, Machine.exec (.fuse h f) s = .next t ∧
      Leaves t i i.x.owned i.next ∧ ArrivesAt s t i i.x.owned i.x.em u ∧ OnlyFlow s t i ∧ (t.group i.core i.slot).exited = i.g.exited) ∧
  (∀ (h : List Hint) (f : FmtB) (s : State) (i : Issue), Plain s h i 0x08 f.payload →
    let b := i.x.em &&& lanes i.g f
    let m := if b = i.x.em then i.x.owned else b
    (∀ u, i.g.breakToken (chain i) (f.off.toNat % 16) = some u →
      (b = 0 → ∃ t, Machine.exec (.brk h f) s = .next t ∧ Retired s t i i.g i.next true) ∧
      (b ≠ 0 → m ≠ 0 → ∃ t, Machine.exec (.brk h f) s = .next t ∧
        Leaves t i m i.next ∧ ArrivesAt s t i m b u ∧ OnlyFlow s t i ∧ (t.group i.core i.slot).exited = i.g.exited)) ∧
    (i.g.breakToken (chain i) (f.off.toNat % 16) = none →
      Machine.exec (.brk h f) s = .next (s.takeFault i.core i.slot i.n i.pc { code := 0x0202 }))) ∧
  (∀ (h : List Hint) (f : FmtB) (s : State) (i : Issue), Plain s h i 0x09 f.payload →
    let m := if i.x.em &&& ~~~ lanes i.g f = 0 then i.x.owned else i.x.em &&& lanes i.g f
    ∃ t, Machine.exec (.exit h f) s = .next t ∧ Leaves t i m i.next ∧ OnlyFlow s t i ∧
      (t.group i.core i.slot).exited = i.g.exited ||| m ∧ (∀ j ∈ chain i, ((t.group i.core i.slot).token j).pending &&& m = 0) ∧
      (i.x.owned &&& ~~~m = 0 → i.g.exited ||| m = BitVec.allOnes 64 → (t.slot i.core i.slot).state = .draining))

/-- Tokens pushed, arrived at and left: CALL, CALLX, RCV, RET, FUSE, BRK and EXIT complete, and what they leave. -/
def Obligations.TokensAndArrivals : Prop :=
  Claims.TokenPushes ∧ Claims.ArrivalsAndExit

end Flow

/-! ## Waits and service requests (R77, R92, R108 to R113, R215, R224, R251) -/
namespace Sys2Proof.Claims
open Sys2Proof.Machine

/-- The counters are at or below the ceilings of a WAIT; 31, for ms 15, sets none (R108). -/
def Reached (g : Group) (f : FmtW) : Prop :=
  (f.ld = 31 ∨ g.ld ≤ f.ld.toNat) ∧ (f.st = 31 ∨ g.st ≤ f.st.toNat) ∧ (f.cp = 31 ∨ g.cp ≤ f.cp.toNat) ∧
    (f.tl = 31 ∨ g.tl ≤ f.tl.toNat) ∧ (f.ms = 15 ∨ g.ms ≤ f.ms.toNat)

/-- The strand waits on the word at a target until it reaches a value: its request is on its way (R215). -/
def WaitsOn (e : Host.Outcome State Fault Refusal) (s : State) (i : Issue) (w : Wait) (tgt : Target) (value : Nat) : Prop :=
  ∃ t, e = .next t ∧ Waits t i w ∧ Untouched s t i ∧
    t.waits = s.waits ++ [{ id := s.nextId, who := .strand i.core i.g.uid i.n, ctx := i.g.task.ctx, target := tgt,
                            value := value, scope := w.scope, since := s.time }]

/-- The continuation of PARK and JOIN: the words that their XIMM payload counts from the instruction, else the next one (R109). -/
def goesOnAt (i : Issue) (h : List Hint) : DWord :=
  match ximmsOf h with
  | x :: _ => i.addr + BitVec.ofInt 64 (4 * (BitVec.ofNat 24 x).toInt)
  | [] => i.next

end Sys2Proof.Claims

section Waiting
open Sys2Proof Sys2Proof.Machine Sys2Proof.Claims

/-- R108, R58 and R77: WAIT goes on and ends its run where every counter is at or below its ceiling; otherwise the strand is WAITING with
its run ended and its WAIT kept. -/
def Sys2Proof.Claims.CounterWaits : Prop :=
  ∀ (h : List Hint) (f : FmtW) (s : State) (i : Issue),
    Issues s h i (reservedSet 0x0A f.payload) bare false false none →
    (Reached i.g f → Ends (Machine.exec (.wait h f) s) (i, s) i.g i.next true) ∧
    (¬Reached i.g f → ∃ t, Machine.exec (.wait h f) s = .next t ∧ Untouched s t i ∧
      Waits t i { kind := .wait, word := 0x0A#8 ++ f.payload, cont := i.next })

/-- R109, R215, R224 and R251: PARK, BWAIT and JOIN make the strand wait on the word at s[sA] for a value, s[sB], or 1 for JOIN; the
status goes to the s register named and the strand goes on at the next instruction, or where the XIMM word says. -/
def Sys2Proof.Claims.WordWaits : Prop :=
  ∀ (h : List Hint) (f : FmtC) (s : State) (i : Issue) (tgt : Target),
    let p := (i.g.sreg f.sa.toNat).toNat
    s.wholeTarget i.core i.slot i.g.task p = some tgt →
    (Issues s h i (reservedSet 0x0B f.payload) { ximm := 1, xmod := xmScope } false false (s.barFault i p 8 true false) →
      WaitsOn (Machine.exec (.park h f) s) s i
        { kind := .park, addr := i.g.sreg f.sa.toNat, target := i.g.sreg f.sb.toNat, dest := f.sc.toNat, cont := goesOnAt i h,
          scope := scopeOf h } tgt (i.g.sreg f.sb.toNat).toNat) ∧
    (Issues s h i (reservedSet 0xA7 f.payload) { xmod := xmScope } false false (s.barFault i p 8 true false) →
      WaitsOn (Machine.exec (.bwait h f) s) s i
        { kind := .bwait, addr := i.g.sreg f.sa.toNat, target := i.g.sreg f.sb.toNat, dest := f.sc.toNat, cont := i.next,
          scope := scopeOf h } tgt (i.g.sreg f.sb.toNat).toNat) ∧
    (Issues s h i (reservedSet 0xC2 f.payload) { ximm := 1 } false false (s.barFault i p 128 true false) →
      WaitsOn (Machine.exec (.joinF h f) s) s i
        { kind := .join, addr := i.g.sreg f.sa.toNat, target := 1, dest := f.sb.toNat, cont := goesOnAt i h, scope := 6 } tgt 1)

/-- R111: TRAP completes. With no active lane it goes on and ends its run; with earlier accesses of the strand unacknowledged, or its
descriptor's page not ready, it stalls; otherwise, its descriptor reachable and valid, it claims 1 slot and one for each eight active lanes by an
add to the head, and waits for the tail to leave room, with all that its second part needs kept; a descriptor that its access cannot reach, or that
is invalid, is an imprecise fault, and a pointer outside global space a precise one; that the lane mask of these faults is em is the model's
choice (log entry 19). What follows the wait stands in Claims.JoinAndTrapGoOn. R113: BKPT completes. Of a context that is not attached, or resumed or stepped at, it goes on and ends its run;
of an attached one it freezes the group there and raises the debugger's event, or sets LOST where 64 events wait. -/
def Obligations.ServiceAndBreakpoint : Prop :=
  (∀ (h : List Hint) (f : FmtC) (s : State) (i : Issue),
    let p := (i.g.sreg f.sa.toNat).toNat
    let vb := f.sb.toNat
    let bad := vb % 4 != 0 || decide (i.g.nv < vb + 4)
    let late (u : State) (code : Nat) : State :=
      u.takeFault i.core i.slot i.n i.pc { code := code, kind := 2, mask := i.x.em, addr := BitVec.ofNat 64 p }
    (Issues s h i (reservedSet 0x0D f.payload) bare false bad none → i.x.em ≠ 0 → ptrSpace p ≠ 0 →
      Machine.exec (.trap h f) s = .next (s.takeFault i.core i.slot i.n i.pc
        { code := if tagBad p true then 0x0401 else 0x0403, mask := i.x.em, addr := BitVec.ofNat 64 p })) ∧
    (Issues s h i (reservedSet 0x0D f.payload) bare false bad (s.trapFault i p) →
    (i.x.em = 0 → ∃ t, Machine.exec (.trap h f) s = .next t ∧ Retired s t i i.g i.next true) ∧
    (i.x.em ≠ 0 → s.strandQuiet i.core i.slot i.n = false → Stalls (Machine.exec (.trap h f) s) s i) ∧
    (i.x.em ≠ 0 → s.strandQuiet i.core i.slot i.n = true →
      (∀ u, s.ringAt i.core i.slot p 64 true true = (.wait, u) → Stalls (Machine.exec (.trap h f) s) u i) ∧
      (∀ u code, s.ringAt i.core i.slot p 64 true true = (.bad code, u) → Machine.exec (.trap h f) s = .next (late u code)) ∧
      ∀ (n ia : Nat) (rme : Bool) (u v : State) (d : Nat),
        s.ringAt i.core i.slot p 64 true true = (.ok (.global n ia rme), u) → u.readT (.global n ia rme) 0 64 = (d, v) →
        (ringBad d = true → Machine.exec (.trap h f) s = .next (late v 0x0601)) ∧
        (ringBad d = false →
          let need := 1 + (ones i.x.em + 7) / 8
          let head := d / 2 ^ 128 % 2 ^ 64
          let slots := 2 ^ (d / 2 ^ 64 % 64)
          let w := (v.addWord (.global n (ia + 16) rme) need none (v.groupBreaker i.g.task)).2
          let j : Issue := { i with g := { i.g with unseen := (w.group i.core i.slot).unseen } }
          ∃ t, Machine.exec (.trap h f) s = .next t ∧
            t.waits = w.waits ++ [{ id := w.nextId, who := .strand i.core i.g.uid i.n, ctx := i.g.task.ctx
                                    target := .global n (ia + 24) rme, value := head + need - slots, scope := 7, since := w.time }] ∧
            Waits t j { kind := .trap, addr := i.g.sreg f.sa.toNat + 24, target := BitVec.ofNat 64 (head + need - slots), dest := f.sc.toNat
                        cont := i.next, scope := 7, phase := 0, lanes := i.x.em, head := BitVec.ofNat 64 head, vb := vb, code := f.f.toNat
                        ring := BitVec.ofNat 64 d, slots := slots } ∧
            Untouched w t i ∧ { t with cores := w.cores, waits := w.waits, nextId := w.nextId } = w)))) ∧
  (∀ (h : List Hint) (f : FmtC) (s : State) (i : Issue), Plain s h i 0xE1 f.payload →
    (s.attached i.g.task.ctx = false ∨ i.x.passBkpt = true → ∃ t, Machine.exec (.bkpt h f) s = .next t ∧ Retired s t i i.g i.next true ∧
      ((t.group i.core i.slot).strand i.n).passBkpt = false) ∧
    (s.attached i.g.task.ctx = true → i.x.passBkpt = false → ∃ t, Machine.exec (.bkpt h f) s = .next t ∧
      (t.slot i.core i.slot).state = .frozen ∧ (t.slot i.core i.slot).cause = .bkpt ∧
      t.group i.core i.slot = (s.group i.core i.slot).setStrand i.n
        { (s.group i.core i.slot).strand i.n with state := .ready, passBkpt := true } ∧
      (∀ d j, ¬(d = i.core ∧ j = i.slot) → t.slot d j = s.slot d j) ∧ (∀ d, { t.core d with slots := (s.core d).slots } = s.core d) ∧
      (∀ q, t.byteAt q = s.byteAt q) ∧
      (s.dbgEvents.length < 64 → { t with cores := s.cores, regions := s.regions, dbgEvents := s.dbgEvents } = s ∧ t.dbgEvents = s.dbgEvents ++
        [{ kind := 1, core := i.core, slot := i.slot, strand := i.n, code := f.f.toNat, ctx := i.g.task.ctx }]) ∧
      (64 ≤ s.dbgEvents.length → t.dbgEvents = s.dbgEvents ∧ t.fld .dbgStat 4 4 = 1)))

/-- The instructions that wait on counters and on words. -/
def Obligations.Waits : Prop :=
  Claims.CounterWaits ∧ Claims.WordWaits

end Waiting

/-! ## Loads, stores, fences, cache maintenance (R52, R92, R168, R172 to R183) -/
namespace Sys2Proof.Claims
open Sys2Proof.Machine

/-- The registers of a lane's element and the bytes of each part: a quad in its two aligned halves (R52, R192). -/
def parts (w : Nat) : List (Nat × Nat) := if w = 4 then [(0, 8), (2, 8)] else [(0, 2 ^ w)]

/-- The accesses of a load or store of elements: for each active lane in order, and each part of its element, one access at the lane's address,
where the pointer leads, with the lane's value (R52, R177). -/
def elementAccesses (s : State) (i : Issue) (f : FmtM) (data : Nat → Nat → Nat → Nat) : List Access :=
  (lanesOf i.x.em).flatMap fun l => (parts f.width.toNat).filterMap fun (r, n) =>
    (s.target i.core i.slot l i.g.task (i.addrOf f.base.toNat f.index.toNat l + 4 * r)).map fun t =>
      s.access i l r (i.addrOf f.base.toNat f.index.toNat l + 4 * r) n (data r n l) 0 t

/-- The accesses to rows of 256 bytes from p on, four bytes to each of some lanes; a lane that is not active is read without a destination, as
lane 65 + l (R177, R179). -/
def rowAccesses (s : State) (i : Issue) (p rows : Nat) (lanes : List Nat) (data : Nat → Nat) : List Access :=
  (List.range rows).flatMap fun r => lanes.filterMap fun l =>
    (s.wholeTarget i.core i.slot i.g.task (p + 256 * r + 4 * l)).map fun t =>
      { s.access i (if i.x.em.getLsbD l then l else 65 + l) r (p + 256 * r + 4 * l) 4 (data l) 0 t with whole := true }

/-- The one access of a whole group. -/
def oneAccess (s : State) (i : Issue) (p n data cmp : Nat) : List Access :=
  ((s.wholeTarget i.core i.slot i.g.task p).map fun t => s.access i 64 0 p n data cmp t).toList

/-- The low bytes of a register, of a pair, or of what stands from a register on; v63 gives zero (R50, R177). -/
def stored (g : Group) (d r n l : Nat) : Nat :=
  if d = 63 then 0
  else if n = 8 then (g.vreg (d + r) l).toNat + 2 ^ 32 * (g.vreg (d + r + 1) l).toNat
  else (g.vreg (d + r) l).toNat % 2 ^ (8 * n)

/-- The element address of a lane through a descriptor, if its element lies in the box and in the tensor (R173, R180). -/
def boxElement (i : Issue) (f : FmtM) (d l : Nat) : Option Nat :=
  (boxElem d (i.origin f.base.toNat) (i.g.index i.h f.index.toNat l)).map fun e => (elemAddr d e).1

/-- A strand is STALLED for a descriptor that its core's cache does not hold: the task unit is asked for it, and nothing else has changed
(R174). -/
def AsksDescriptor (e : Host.Outcome State Fault Refusal) (s : State) (i : Issue) (p : Nat) : Prop :=
  ∃ t, e = .next t ∧
    t.group i.core i.slot = (s.group i.core i.slot).setStrand i.n { (s.group i.core i.slot).strand i.n with state := .stalled } ∧
    (∃ x ∈ (t.core i.core).fetches, x.slot = i.slot ∧ x.strand = i.n ∧ x.ptr = p) ∧
    (∀ x ∈ (s.core i.core).fetches, x ∈ (t.core i.core).fetches) ∧ (∀ d j, ¬(d = i.core ∧ j = i.slot) → t.slot d j = s.slot d j) ∧
    (∀ d, { t.core d with slots := (s.core d).slots, fetches := (s.core d).fetches } = s.core d) ∧ { t with cores := s.cores } = s

end Sys2Proof.Claims

section Access
open Sys2Proof Sys2Proof.Machine Sys2Proof.Claims

/-- R52: a lane's address is its base, its index and the offset, added without carry past 64 bits; that of a whole group base and offset. -/
def Sys2Proof.Claims.Addresses : Prop :=
  ∀ (i : Issue) (f : FmtM), BitVec.ofNat 64 (i.addrAll f.base.toNat) = i.g.sreg f.base.toNat + BitVec.ofInt 64 (offsetOf i.h) ∧
    ∀ l, BitVec.ofNat 64 (i.addrOf f.base.toNat f.index.toNat l) =
      i.g.sreg f.base.toNat + BitVec.ofNat 64 (i.g.index i.h f.index.toNat l) + BitVec.ofInt 64 (offsetOf i.h)

/-- R177, R178 and R179: LD, LDU and LDLN complete where ld has room: each posts a load, counted on ld, of every active lane's element, of a row
of 256 bytes, of one element for the group, or of up to eight rows, to the destination that its values will be written to; nothing else
changes. With ld at 63 the strand stalls. -/
def Sys2Proof.Claims.LoadsPosted : Prop :=
  (∀ (h : List Hint) (f : FmtM) (s : State) (i : Issue),
    let w := f.width.toNat
    let accs := if w = 5 then (if i.x.em = 0 then [] else rowAccesses s i (i.addrAll f.base.toNat) 1 allLanes fun _ => 0)
      else elementAccesses s i f fun _ _ _ => 0
    Issues s h i (reservedSet 0x90 f.payload || indexReserved f) (ldForm f) false (i.ldBad f || f.d == 63)
      (s.ptrFault i (laneAsk w true false) (i.ldPtrs f)) →
    (i.g.ld < 63 → ∃ t, Machine.exec (.ld h f) s = .next t ∧ Posted s t i i.g
      { i.op .ld .load accs with dest := .vec f.d.toNat (if w = 3 then 2 else if w = 4 then 4 else 1)
                                 acquire := f.ord == 1 || f.ord == 3, scope := scopeOf h }) ∧
    (63 ≤ i.g.ld → Stalls (Machine.exec (.ld h f) s) s i)) ∧
  (∀ (h : List Hint) (f : FmtM) (s : State) (i : Issue),
    let w := f.width.toNat
    let p := i.addrAll f.base.toNat
    Issues s h i (reservedSet 0x92 f.payload) { ximm := 2, xmod := memXmod f.ord.toNat 0 } false (lduBad f)
      (s.ptrFault i (uniAsk w true false) [(64, p)]) →
    (i.g.ld < 63 → ∃ t, Machine.exec (.ldu h f) s = .next t ∧ Posted s t i i.g
      { i.op .ld .load (oneAccess s i p (2 ^ w) 0 0) with
        dest := .uni f.d.toNat, acquire := f.ord == 1 || f.ord == 3, scope := scopeOf h }) ∧
    (63 ≤ i.g.ld → Stalls (Machine.exec (.ldu h f) s) s i)) ∧
  (∀ (h : List Hint) (f : FmtM) (s : State) (i : Issue),
    let n := 2 ^ f.width.toNat
    let p := i.addrAll f.base.toNat
    Issues s h i (reservedSet 0x94 f.payload) { ximm := 2, xmod := memXmod f.ord.toNat 0 } false
      (decide (3 < f.width.toNat) || decide (3 < f.ord.toNat) || f.d == 63 || i.g.rowsBad f.d.toNat n)
      (s.ptrFault i { size := 256 * n, align := 256, rd := true, whole := true } [(64, p)]) →
    (i.g.ld < 63 → ∃ t, Machine.exec (.ldln h f) s = .next t ∧ Posted s t i i.g
      { i.op .ld .load (rowAccesses s i p n allLanes fun _ => 0) with
        dest := .vec f.d.toNat n, acquire := f.ord == 1 || f.ord == 3, scope := scopeOf h }) ∧
    (63 ≤ i.g.ld → Stalls (Machine.exec (.ldln h f) s) s i))

/-- R177 and R178: ST and STU complete where st has room: each posts a store, counted on st, of every active lane's element, of a row, or of one
element; the bytes to be stored are the low ones of the lane's register or registers, or of the s register; no register and no byte of
storage changes as they issue. With st at 63 the strand stalls. -/
def Sys2Proof.Claims.StoresPosted : Prop :=
  (∀ (h : List Hint) (f : FmtM) (s : State) (i : Issue),
    let w := f.width.toNat
    let accs := if w = 5 then (if i.x.em = 0 then [] else
        rowAccesses s i (i.addrAll f.base.toNat) 1 (lanesOf i.x.em) fun l => stored i.g f.d.toNat 0 4 l)
      else elementAccesses s i f fun r n l => stored i.g f.d.toNat r n l
    Issues s h i (reservedSet 0x91 f.payload || indexReserved f) (ldForm f) false (i.ldBad f)
      (s.ptrFault i (laneAsk w false true) (i.ldPtrs f)) →
    (i.g.st < 63 → ∃ t, Machine.exec (.st h f) s = .next t ∧ Posted s t i i.g
      { i.op .st .store accs with release := f.ord == 1 || f.ord == 3, scope := scopeOf h }) ∧
    (63 ≤ i.g.st → Stalls (Machine.exec (.st h f) s) s i)) ∧
  (∀ (h : List Hint) (f : FmtM) (s : State) (i : Issue),
    let w := f.width.toNat
    let p := i.addrAll f.base.toNat
    Issues s h i (reservedSet 0x93 f.payload) { ximm := 2, xmod := memXmod f.ord.toNat 0 } false (lduBad f)
      (s.ptrFault i (uniAsk w false true) [(64, p)]) →
    (i.g.st < 63 → ∃ t, Machine.exec (.stu h f) s = .next t ∧ Posted s t i i.g
      { i.op .st .store (oneAccess s i p (2 ^ w) ((i.g.sreg f.d.toNat).toNat % 2 ^ (8 * 2 ^ w)) 0) with
        release := f.ord == 1 || f.ord == 3, scope := scopeOf h }) ∧
    (63 ≤ i.g.st → Stalls (Machine.exec (.stu h f) s) s i))

/-- R174 and R180: with the descriptor in the core's cache and room in the counter LDD and STD complete: LDD posts a load of every active lane's
element inside the box, and the fill, without an access, for each other one; STD posts a store of the elements of the active lanes inside the
box, a 6-bit one with its upper bits zero. Without the descriptor both stall and ask for it. -/
def Sys2Proof.Claims.DescriptorAccess : Prop :=
  ∀ (h : List Hint) (f : FmtM) (s : State) (i : Issue),
    let p := (i.g.sreg f.base.toNat).toNat
    (Issues s h i (reservedSet 0x95 f.payload) (lddForm f) false (i.lddBad f || f.d == 63) (s.lddFault i f true false) →
      (∀ d, s.descCached i p = some d →
        let n := elemBytes (descType d)
        let accs := (lanesOf i.x.em).filterMap fun l => match boxElement i f d l with
          | some q => (s.target i.core i.slot l i.g.task q).map fun t => s.access i l 0 q n (lddKeep (descType d)) 0 t
          | none => some { s.access i l 0 0 0 0 0 (.spad i.core 0) with performed := true, value := fillValue d, owners := [] }
        (i.g.ld < 63 → ∃ t, Machine.exec (.ldd h f) s = .next t ∧ Posted s t i i.g
          { i.op .ld .load accs with dest := .vec f.d.toNat (if n = 8 then 2 else 1)
                                     acquire := f.ord == 1 || f.ord == 3, scope := scopeOf h }) ∧
        (63 ≤ i.g.ld → Stalls (Machine.exec (.ldd h f) s) s i)) ∧
      (s.descCached i p = none → AsksDescriptor (Machine.exec (.ldd h f) s) s i p)) ∧
    (Issues s h i (reservedSet 0x96 f.payload) (lddForm f) false (i.lddBad f) (s.lddFault i f false true) →
      (∀ d, s.descCached i p = some d →
        let n := elemBytes (descType d)
        let accs := (lanesOf i.x.em).filterMap fun l => (boxElement i f d l).bind fun q =>
          (s.target i.core i.slot l i.g.task q).map fun t =>
            s.access i l 0 q n (stored i.g f.d.toNat 0 n l % 2 ^ (Ty.ofCode (descType d)).width) 0 t
        (i.g.st < 63 → ∃ t, Machine.exec (.std h f) s = .next t ∧ Posted s t i i.g
          { i.op .st .store accs with release := f.ord == 1 || f.ord == 3, scope := scopeOf h }) ∧
        (63 ≤ i.g.st → Stalls (Machine.exec (.std h f) s) s i)) ∧
      (s.descCached i p = none → AsksDescriptor (Machine.exec (.std h f) s) s i p))

/-- R181, R182, R183 and R200: PREF completes: it asks for the page of each active lane's global address that its access could read, and changes
no register. FENCE stalls while the group has accesses of its kind outstanding and otherwise completes, a full or store fence leaving its
scope, or the wider one of an earlier fence, to the strand's next store, a full or load fence acquiring what the group's loads have read. CINV and CWB complete where st has room: each
posts one operation for its range, none for a range of no bytes. -/
def Sys2Proof.Claims.FencesAndCaches : Prop :=
  (∀ (h : List Hint) (f : FmtM) (s : State) (i : Issue),
    Issues s h i (reservedSet 0x97 f.payload) { ximm := 2, xmod := xmWx } false (i.g.indexBad h f.index.toNat) none →
    let ask (u : State) (l : Nat) : State :=
      let p := i.addrOf f.base.toNat f.index.toNat l
      if u.ptrStep i.core i.g (s.leaseSet i.g.task) { size := 1, align := 1, rd := true } p = 0 then
        match u.coreTarget i.core i.g.task.ctx p 1 with
        | some (.global n ia _) => u.requestAt n ia 3
        | _ => u
      else u
    ∃ t, Machine.exec (.pref h f) s = .next t ∧ Retired ((lanesOf i.x.em).foldl ask s) t i i.g i.next false) ∧
  (∀ (h : List Hint) (f : FmtC) (s : State) (i : Issue),
    let kind := f.f.toNat % 4
    kind ≠ 3 → Issues s h i (reservedSet 0x98 f.payload) { xmod := xmScope } false false none →
    let busy := s.outstanding i.core i.slot fun o => fenceWaits kind o.kind
    let mark := some (widerScope i.x.fenced (scopeOf h))
    let g := if kind = 1 then i.g else i.g.setStrand i.n { i.x with fenced := mark }
    (busy = true → Stalls (Machine.exec (.fence h f) s) s i) ∧
    (busy = false → ∃ t, Machine.exec (.fence h f) s = .next t ∧
      Retired s t i (if kind = 2 then g.acquired else g.acquireOf i.core (scopeOf h) g.heard) i.next false ∧
      ((t.group i.core i.slot).strand i.n).fenced = if kind = 1 then i.x.fenced else mark)) ∧
  (∀ x n, widerScope x n = n ∨ x = some (widerScope x n)) ∧
  (∀ m n, 1 ≤ m → m ≤ 7 → 1 ≤ n → n ≤ 7 → widerScope (some m) n = max m n) ∧
  (∀ (h : List Hint) (f : FmtC) (s : State) (i : Issue),
    let p := (i.g.sreg f.sa.toNat).toNat
    let n := (i.g.sreg f.sb.toNat).toNat
    let op (kind : Nat) : MemOp :=
      { i.op .st (.cache kind) (if n = 0 then [] else (oneAccess s i p 1 0 0).map fun a => { a with place := a.goal }) with
        words := [i.g.sreg f.sa.toNat, i.g.sreg f.sb.toNat], spans := s.coreSpans i.core i.g.task.ctx }
    (f.f.toNat % 4 ≤ 1 → n ≤ 2 ^ 32 → Issues s h i (reservedSet 0x99 f.payload) {} false false (s.cacheFault i p n) →
      (i.g.st < 63 → ∃ t, Machine.exec (.cinv h f) s = .next t ∧ Posted s t i i.g (op (f.f.toNat % 4))) ∧
      (63 ≤ i.g.st → Stalls (Machine.exec (.cinv h f) s) s i)) ∧
    (n ≤ 2 ^ 32 → Issues s h i (reservedSet 0x9A f.payload) {} false false (s.cacheFault i p n) →
      (i.g.st < 63 → ∃ t, Machine.exec (.cwb h f) s = .next t ∧ Posted s t i i.g (op 2)) ∧
      (63 ≤ i.g.st → Stalls (Machine.exec (.cwb h f) s) s i)))

/-- Loads and stores complete at issue: LD, LDU, LDLN, ST and STU, with the addresses they form. -/
def Obligations.LoadsAndStoresPosted : Prop :=
  Claims.Addresses ∧ Claims.LoadsPosted ∧ Claims.StoresPosted

/-- Access through descriptors, fences and the cache instructions complete at issue: LDD, STD, PREF, FENCE, CINV and CWB. -/
def Obligations.DescriptorsFencesAndCaches : Prop :=
  Claims.DescriptorAccess ∧ Claims.FencesAndCaches

end Access

/-! ## Atomics and barriers (R209 to R227, R256) -/
namespace Sys2Proof.Claims
open Sys2Proof.Machine

/-- The accesses of an atomic of format M: for each active lane in order one at base + index + offset, of 4 or 8 bytes, where the pointer
leads, with the lane's operand and compare value (R218). -/
def atomAccesses (s : State) (i : Issue) (f : FmtM) (data cmp : Nat → Nat) : List Access :=
  (lanesOf i.x.em).filterMap fun l => (s.target i.core i.slot l i.g.task (i.addrOf f.base.toNat f.index.toNat l)).map fun t =>
    s.access i l 0 (i.addrOf f.base.toNat f.index.toNat l) (if f.ord.getLsbD 2 then 8 else 4) (data l) (cmp l) t

/-- A returning atomic is posted with its accesses, counted on ld: those that the order log holds take the task's next decision numbers in
their order, the others none (R256). -/
def Returning (s t : State) (i : Issue) (o : MemOp) : Prop :=
  ∃ accs k, accs.map (fun a => { a with decision := none }) = o.accs ∧
    accs.filterMap (·.decision) = List.range' i.g.task.decisions k ∧
    (∀ a ∈ accs, a.decision.isSome = s.loggedAt i.g.task a.ptr.toNat) ∧
    Posted s t i { i.g with task := { i.g.task with decisions := i.g.task.decisions + k } } { o with accs := accs }

/-- op, ord and bytes of ATOMU and CASU (R218). -/
def uOp (f : FmtC) : Nat := f.f.toNat % 8
/-- Bytes of ATOMU and CASU. -/
def uSize (f : FmtC) : Nat := if f.f.getLsbD 3 then 8 else 4
/-- ord of ATOMU and CASU. -/
def uOrd (f : FmtC) : Nat := f.f.toNat / 16

/-- BINIT or BDROP of a strand at a barrier on a peer part: with no port UP to it the task ends by LINK_DOWN (R360); otherwise the answer, a
free value (log entry 24), has not come, is a refusal, or is a status below n. -/
def AtPeer (e : Host.Outcome State Fault Refusal) (s : State) (i : Issue) (p : DWord) (dest n r ia : Nat) : Prop :=
  let flt (u : State) (code : Nat) : State := u.takeFault i.core i.slot i.n i.pc { code := code, kind := 2, mask := i.x.em, addr := p }
  (s.rankPort r (homeHash ia) = none → e = .next (flt s 0x0801)) ∧
  ((s.rankPort r (homeHash ia)).isSome = true →
    Stalls e s.peerAnswer.2 i ∨ e = .next (flt s.peerAnswer.2 0x0403) ∨
      ∃ t v, v < n ∧ e = .next t ∧ Retired s.peerAnswer.2 t i (i.g.setS dest (BitVec.ofNat 64 v)) i.next false)

/-- BINIT or BDROP of a strand at a barrier whose page is not ready stalls the strand, and one whose page is gone ends the task (R337, R341). -/
def AtPage (e : Host.Outcome State Fault Refusal) (s : State) (i : Issue) (p : DWord) (tgt : Target) : Prop :=
  (∀ u, s.gate tgt true true (some (coreDie i.core)) = (.wait, u) → Stalls e u i) ∧
  (∀ u, s.gate tgt true true (some (coreDie i.core)) = (.gone, u) →
    e = .next (u.takeFault i.core i.slot i.n i.pc { code := 0x0405, kind := 2, mask := i.x.em, addr := p }))

end Sys2Proof.Claims

section Atomics
open Sys2Proof Sys2Proof.Machine Sys2Proof.Claims

/-- R218, R219 and R221: ATOM, CAS, ATOMU and CASU complete where ld has room: each posts an atomic, counted on ld, whose old values return to d
or s[sD]: ATOM's operand is d or its pair, CAS's compare value is d or its pair and its new value the next register or pair, .xch's new value
is d; ord makes them acquires and releases. With ld at 63 the strand stalls. -/
def Sys2Proof.Claims.ReturningAtomics : Prop :=
  (∀ (h : List Hint) (f : FmtM) (s : State) (i : Issue),
    let wide := f.ord.getLsbD 2
    let n := if wide then 8 else 4
    let ord := f.ord.toNat % 4
    let sync := ord == 1 || ord == 3
    let own := s.ptrFault i (atomAsk n) (i.lanePtrs f.base.toNat f.index.toNat)
    (Issues s h i (reservedSet 0xA0 f.payload) (atomForm f 0) false
        (f.d == 63 || i.g.indexBad h f.index.toNat || i.g.destBad f.d.toNat (n / 4)) own →
      (i.g.ld < 63 → ∃ t, Machine.exec (.atom h f) s = .next t ∧ Returning s t i
        { i.op .ld (.atom f.width.toNat) (atomAccesses s i f (fun l => i.g.vval f.d.toNat wide l) fun _ => 0) with
          dest := .vec f.d.toNat (n / 4), acquire := sync, release := sync, scope := scopeOf h, ord := ord }) ∧
      (63 ≤ i.g.ld → Stalls (Machine.exec (.atom h f) s) s i)) ∧
    (Issues s h i (reservedSet 0xA3 f.payload) (atomForm f 0) false (i.g.indexBad h f.index.toNat || i.g.casBad f n) own →
      (i.g.ld < 63 → ∃ t, Machine.exec (.cas h f) s = .next t ∧ Returning s t i
        { i.op .ld (if f.width = 1 then .xch else .cas)
            (atomAccesses s i f (fun l => i.g.vval (if f.width = 1 then f.d.toNat else f.d.toNat + n / 4) wide l)
              fun l => i.g.vval f.d.toNat wide l) with
          dest := .vec f.d.toNat (n / 4), acquire := sync, release := sync, scope := scopeOf h, ord := ord }) ∧
      (63 ≤ i.g.ld → Stalls (Machine.exec (.cas h f) s) s i))) ∧
  (∀ (h : List Hint) (f : FmtC) (s : State) (i : Issue),
    let n := uSize f
    let sync := uOrd f == 1 || uOrd f == 3
    let p := (i.g.sreg f.sb.toNat).toNat
    let own := s.ptrFault i { atomAsk n with whole := true } [(64, p)]
    let op (kind : OpKind) (data cmp : DWord) : MemOp :=
      { i.op .ld kind (oneAccess s i p n (data.toNat % 2 ^ (8 * n)) (cmp.toNat % 2 ^ (8 * n))) with
        dest := .uni f.sa.toNat, acquire := sync, release := sync, scope := scopeOf h, ord := uOrd f }
    (Issues s h i (reservedSet 0xA2 f.payload) { xmod := memXmod (uOrd f) 0 } false false own →
      (i.g.ld < 63 → ∃ t, Machine.exec (.atomu h f) s = .next t ∧ Returning s t i (op (.atom (uOp f)) (i.g.sreg f.sa.toNat) 0)) ∧
      (63 ≤ i.g.ld → Stalls (Machine.exec (.atomu h f) s) s i)) ∧
    (uOp f ≤ 1 → Issues s h i (reservedSet 0xA4 f.payload) { xmod := memXmod (uOrd f) 0 } false false own →
      (i.g.ld < 63 → ∃ t, Machine.exec (.casu h f) s = .next t ∧
        Returning s t i (op (if uOp f = 1 then .xch else .cas) (i.g.sreg f.sc.toNat) (i.g.sreg f.sa.toNat))) ∧
      (63 ≤ i.g.ld → Stalls (Machine.exec (.casu h f) s) s i)))

/-- R220, R223 and R227: AMON and BADD complete where st has room: AMON posts adds that do not return, counted on st, a deterministic float add
with its lanes' ordinals, which then advance; BADD posts one 64-bit add to its barrier. With st at 63 the strand stalls. -/
def Sys2Proof.Claims.AddsWithoutReturn : Prop :=
  (∀ (h : List Hint) (f : FmtM) (s : State) (i : Issue),
    let wide := f.ord.getLsbD 2
    let n := if wide then 8 else 4
    let det := f.width == 1 && ((xmodOf h).testBit 12 || i.g.task.det)
    let ord := f.ord.toNat % 4
    let accs := atomAccesses s i f (fun l => i.g.vval f.d.toNat wide l) fun l => if det then Bank.lookD i.g.task.amon l 0 else 0
    Issues s h i (reservedSet 0xA1 f.payload) (atomForm f (if f.width = 1 then xmDet else 0)) false
      (i.g.indexBad h f.index.toNat || i.g.destBad f.d.toNat (n / 4)) (s.ptrFault i (atomAsk n) (i.lanePtrs f.base.toNat f.index.toNat)) →
    (i.g.st < 63 → ∃ t, Machine.exec (.amon h f) s = .next t ∧ Posted s t i (if det then i.g.takeOrdinals i.x.em else i.g)
      { i.op .st (if det then .det else .amon f.width.toNat) accs with
        acquire := false, release := ord == 1 || ord == 3, scope := scopeOf h, ord := ord }) ∧
    (63 ≤ i.g.st → Stalls (Machine.exec (.amon h f) s) s i)) ∧
  (∀ (g : Group) (m : DWord), { g.takeOrdinals m with task := { (g.takeOrdinals m).task with amon := g.task.amon } } = g ∧
    ∀ l, l < 64 → Bank.lookD (g.takeOrdinals m).task.amon l 0 = Bank.lookD g.task.amon l 0 + (if m.getLsbD l then 1 else 0)) ∧
  (∀ (h : List Hint) (f : FmtC) (s : State) (i : Issue),
    let p := (i.g.sreg f.sa.toNat).toNat
    let ord := f.f.toNat % 4
    ord ≤ 1 → Issues s h i (reservedSet 0xA6 f.payload) { xmod := if ord = 1 then xmScope else 0 } false false (s.barFault i p 128 true true) →
    (i.g.st < 63 → ∃ t, Machine.exec (.badd h f) s = .next t ∧ Posted s t i i.g
      { i.op .st (.amon 0) (oneAccess s i p 8 (i.g.sreg f.sb.toNat).toNat 0) with
        acquire := false, release := ord == 1, scope := scopeOf h, ord := ord }) ∧
    (63 ≤ i.g.st → Stalls (Machine.exec (.badd h f) s) s i))

/-- R211, R212, R216 and R222: BINIT completes. With earlier accesses of its strand unacknowledged it stalls. At a line of this part that is
free, with room in its home slice, in its context's share and in each region's budget, it registers the line, writes value and zeros, and
answers 0; with no room it answers 2 and writes nothing; on a registered line it writes the value and answers 1, breaking the line's waiters
where the value is below the counter's. The status goes to s[sD]. -/
def Sys2Proof.Claims.Binit : Prop :=
  ∀ (h : List Hint) (f : FmtC) (s : State) (i : Issue) (tgt : Target),
    let p := i.g.sreg f.sa.toNat
    let x := i.g.sreg f.sb.toNat
    let rel : Release := { agent := .group i.core i.g.uid, scope := scopeOf h }
    s.wholeTarget i.core i.slot i.g.task p.toNat = some tgt →
    Issues s h i (reservedSet 0xA5 f.payload) { xmod := xmScope } false false (s.barFault i p.toNat 128 false true) →
    (s.strandQuiet i.core i.slot i.n = false → Stalls (Machine.exec (.binit h f) s) s i) ∧
    (s.strandQuiet i.core i.slot i.n = true →
      (∀ r c ia, tgt = .peer r c ia → AtPeer (Machine.exec (.binit h f) s) s i p f.sc.toNat 3 r ia) ∧
      ((∀ r c ia, tgt ≠ .peer r c ia) → AtPage (Machine.exec (.binit h f) s) s i p tgt ∧
        ∀ place u, s.gate tgt true true (some (coreDie i.core)) = (.go place, u) →
          let v := u.settleAt (lineOf tgt) 128
          let home := v.homeOf tgt
          let full := 4096 ≤ (v.linesAt home).length ∨ 64 ≤ ((v.linesAt home).filter fun l => l.ctx == i.g.task.ctx).length ∨
            ∃ y ∈ (u.eff i.g.task.ktag).lineBudgets, y.2 ≤ (v.lines.filter fun l => l.regions.contains y.1).length
          let answers (w : State) (n : Nat) : Prop := ∃ t, Machine.exec (.binit h f) s = .next t ∧
            Retired w t i ({ i.g with unseen := (w.group i.core i.slot).unseen }.setS f.sc.toNat (BitVec.ofNat 64 n)) i.next false
          let line : BarLine := { target := lineOf tgt, die := home.1, slice := home.2, ctx := i.g.task.ctx
                                  regions := (u.eff i.g.task.ktag).path }
          (v.lineAt tgt = none → full → answers v 2) ∧
          (v.lineAt tgt = none → ¬full → answers ({ v with lines := v.lines ++ [line] }.storeAt tgt 128 x.toNat [rel]) 0) ∧
          ∀ l old w, v.lineAt tgt = some l → v.readT tgt 0 8 = (old, w) →
            (x.toNat < old → w.lineWaits tgt ≠ [] → answers
              (((w.writeT tgt 0 8 x.toNat).tagRelease tgt 8 [rel]).breakLine tgt x.toNat (u.groupBreaker i.g.task)) 1) ∧
            (¬(x.toNat < old ∧ w.lineWaits tgt ≠ []) → answers (w.storeAt tgt 8 x.toNat [rel]) 1)))

/-- R212, R216 and R225: BDROP completes. With accesses of its strand to the line outstanding it stalls. A registered line is broken at its
counter's value and registered no longer, and the answer is 0; a free one is left as it is, and the answer is 1. The status goes to s[sD]. -/
def Sys2Proof.Claims.Bdrop : Prop :=
  ∀ (h : List Hint) (f : FmtC) (s : State) (i : Issue) (tgt : Target),
    let p := i.g.sreg f.sa.toNat
    s.wholeTarget i.core i.slot i.g.task p.toNat = some tgt →
    Issues s h i (reservedSet 0xA8 f.payload) {} false false (s.barFault i p.toNat 128 false true) →
    (s.lineQuiet i.core i.slot i.n tgt = false → Stalls (Machine.exec (.bdrop h f) s) s i) ∧
    (s.lineQuiet i.core i.slot i.n tgt = true →
      (∀ r c ia, tgt = .peer r c ia → AtPeer (Machine.exec (.bdrop h f) s) s i p f.sb.toNat 2 r ia) ∧
      ((∀ r c ia, tgt ≠ .peer r c ia) → AtPage (Machine.exec (.bdrop h f) s) s i p tgt ∧
        ∀ place u, s.gate tgt true true (some (coreDie i.core)) = (.go place, u) →
          let answers (w : State) (n : Nat) : Prop := ∃ t, Machine.exec (.bdrop h f) s = .next t ∧
            Retired w t i ({ i.g with unseen := (w.group i.core i.slot).unseen }.setS f.sb.toNat (BitVec.ofNat 64 n)) i.next false
          (u.lineAt tgt = none → answers u 1) ∧
          ∀ l old v, u.lineAt tgt = some l → u.readT tgt 0 8 = (old, v) →
            let w := v.breakLine tgt old (u.groupBreaker i.g.task)
            answers { w with lines := w.lines.filter fun y => w.loc y.target 0 / 128 ≠ w.loc tgt 0 / 128 } 0))

/-- BINIT and BDROP complete: the barrier lines that they register and remove. -/
def Obligations.BarrierLines : Prop :=
  Claims.Binit ∧ Claims.Bdrop

/-- Atomics complete at issue: ATOM, CAS, ATOMU, CASU, AMON and BADD. -/
def Obligations.AtomicsPosted : Prop :=
  Claims.ReturningAtomics ∧ Claims.AddsWithoutReturn

end Atomics

/-! ## The copy engine's instructions (R92, R184 to R189, R279, R339) -/
namespace Sys2Proof.Claims
open Sys2Proof.Machine

/-- The instruction has put work on an engine of its core: a counter counts one more outstanding instruction (one with nothing to do is
done at once), the strand stands at the next instruction, no register has changed, and nothing else has but the engine's list (R92). -/
def Counted (s t : State) (i : Issue) (g : Group) (c : Ctr) (done : Bool) : Prop :=
  t.group i.core i.slot = { g.count c s.nextId done with strands := (t.group i.core i.slot).strands } ∧ Stands t i g i.next false ∧
    (∀ d j, ¬(d = i.core ∧ j = i.slot) → t.slot d j = s.slot d j) ∧
    t.slot i.core i.slot = { s.slot i.core i.slot with group := t.group i.core i.slot } ∧
    (∀ d, { t.core d with slots := (s.core d).slots, cmds := (s.core d).cmds, lists := (s.core d).lists, tileOps := (s.core d).tileOps } =
      s.core d) ∧
    (∀ d, d ≠ i.core → t.core d = s.core d) ∧ (∀ p, t.byteAt p = s.byteAt p) ∧
    { t with cores := s.cores, regions := s.regions, nextId := s.nextId } = s

/-- A page of a command waits to migrate (R339). -/
def AwaitsPage (s : State) (i : Issue) (kind : CopyKind) (segs : List Segment) : Bool :=
  (s.piecesIn (fun (s : State) p => s.wholeTarget i.core i.slot i.g.task p) (cmdRanges kind segs)).any fun x => s.pageAwaits x.1 x.2

/-- A copy command has joined the copy engine's list last, unless it has no segment, with the spans that its core holds now (R330); the engine's
other lists are as they were. -/
def CommandQueued (s t : State) (i : Issue) (kind : CopyKind) (segs : List Segment) (barrier : Option DWord) : Prop :=
  Counted s t i i.g .cp segs.isEmpty ∧ (t.core i.core).lists = (s.core i.core).lists ∧ (t.core i.core).tileOps = (s.core i.core).tileOps ∧
    (t.core i.core).cmds = (s.core i.core).cmds ++ (if segs.isEmpty then [] else
      [{ id := s.nextId, owner := .group i.slot i.n i.pc s.nextId, ctx := i.g.task.ctx, ktag := i.g.task.ktag, kind := kind
         segs := segs, barrier := barrier, scope := scopeOf i.h, em := i.x.em, spans := s.coreSpans i.core i.g.task.ctx }])

end Sys2Proof.Claims

section Copies
open Sys2Proof Sys2Proof.Machine Sys2Proof.Claims

/-- R184: the segments of a copy cover its bytes in order, from its first destination and source bytes on, cut at each multiple of 4,096 of
the destination address. -/
def Obligations.CopySegments : Prop :=
  ∀ (dst src : DWord) (n : Nat), n < 2 ^ 32 →
    let l := segments dst.toNat src.toNat n
    (l.map (·.size)).sum = n ∧ (n ≠ 0 → ∃ x, l[0]? = some x ∧ x.dst = dst ∧ x.src = src) ∧
    (∀ x ∈ l, 0 < x.size ∧ x.dst.toNat % 4096 + x.size ≤ 4096 ∧ x.landed = false) ∧
    ∀ j x y, l[j]? = some x → l[j + 1]? = some y →
      y.dst = x.dst + BitVec.ofNat 64 x.size ∧ y.src = x.src + BitVec.ofNat 64 x.size ∧ y.dst.toNat % 4096 = 0

/-- R185 to R189 and R279: COPY, COPYT, KICK and MDLD complete where cp has room and no page of theirs waits to migrate: they post a command or a
list to the copy engine, counted on cp, and no register and no byte changes as they issue. With cp at 63, or such a page, the strand stalls;
COPYT stalls also for a descriptor that the core's cache does not hold. -/
def Obligations.CopiesPosted : Prop :=
  (∀ (h : List Hint) (f : FmtC) (s : State) (i : Issue),
    let dst := (i.g.sreg f.sa.toNat).toNat
    let src := (i.g.sreg f.sb.toNat).toNat
    let n := (i.g.sreg f.sc.toNat).toNat
    let bar := if f.f.getLsbD 0 then some (i.g.sreg (f.sc.toNat + 1)) else none
    n < 2 ^ 32 → rangesOverlap dst src n = false → (f.f.getLsbD 0 = true → f.sc.toNat % 2 = 0 ∧ f.sc.toNat ≤ 60) →
    s.rangeFault i src n true false = none → s.rangeFault i dst n false true = none → s.copyBarFault i bar = none →
    Issues s h i (reservedSet 0xB0 f.payload) { xmod := xmScope } false false none →
    let waits := 63 ≤ i.g.cp ∨ AwaitsPage s i .range (segments dst src n) = true
    (waits → Stalls (Machine.exec (.copy h f) s) s i) ∧
    (¬waits → ∃ t, Machine.exec (.copy h f) s = .next t ∧ CommandQueued s t i .range (segments dst src n) bar)) ∧
  (∀ (h : List Hint) (f : FmtC) (s : State) (i : Issue),
    let dst := (i.g.sreg f.sa.toNat).toNat
    let p := (i.g.sreg f.sb.toNat).toNat
    let bar := if f.f.getLsbD 0 then some (i.g.sreg f.sc.toNat) else none
    f.sb.toNat % 4 = 0 → Issues s h i (reservedSet 0xB1 f.payload) { xmod := xmScope } false false none →
    (s.descCached i p = none → s.descPtrFault i p = none → AsksDescriptor (Machine.exec (.copyt h f) s) s i p) ∧
    ∀ d, s.descCached i p = some d → descBad d = false → s.boxFault i d (i.origin f.sb.toNat) true false = none →
      s.rangeFault i dst (descBytes d) false true = none → s.copyBarFault i bar = none →
      let kind : CopyKind := .box (natWords d 8) (i.origin f.sb.toNat)
      let waits := 63 ≤ i.g.cp ∨ AwaitsPage s i kind (segments dst 0 (descBytes d)) = true
      (waits → Stalls (Machine.exec (.copyt h f) s) s i) ∧
      (¬waits → ∃ t, Machine.exec (.copyt h f) s = .next t ∧ CommandQueued s t i kind (segments dst 0 (descBytes d)) bar)) ∧
  (∀ (h : List Hint) (f : FmtC) (s : State) (i : Issue),
    let n := (i.g.sreg f.sb.toNat).toNat
    1 ≤ n → n ≤ 65535 → Issues s h i (reservedSet 0xB2 f.payload) { xmod := xmScope } false false none →
    (63 ≤ i.g.cp → Stalls (Machine.exec (.kick h f) s) s i) ∧
    (i.g.cp < 63 → ∃ t, Machine.exec (.kick h f) s = .next t ∧ Counted s t i i.g .cp false ∧
      (t.core i.core).cmds = (s.core i.core).cmds ∧ (t.core i.core).tileOps = (s.core i.core).tileOps ∧
      (t.core i.core).lists = (s.core i.core).lists ++
        [{ id := s.nextId, owner := .group i.slot i.n i.pc s.nextId, ctx := i.g.task.ctx, ktag := i.g.task.ktag
           base := i.g.sreg f.sa.toNat, count := n, scope := scopeOf i.h, em := i.x.em, spans := s.coreSpans i.core i.g.task.ctx }])) ∧
  (∀ (h : List Hint) (f : FmtX) (s : State) (i : Issue),
    let n := 512 * 2 ^ (f.f.toNat % 4)
    let p := (i.g.sreg f.s.toNat).toNat
    let segs : List Segment := [{ dst := 0, src := i.g.sreg f.s.toNat, size := n }]
    f.f.toNat % 4 ≠ 3 → f.fD.toNat < i.g.na → i.notWhole = none →
    s.ptrFault i { size := n, align := 128, rd := true, whole := true } [(64, p)] = none →
    Issues s h i (reservedSet 0xB3 f.payload) {} false false none →
    let waits := 63 ≤ i.g.cp ∨ AwaitsPage s i (.slot f.fD.toNat) segs = true
    (waits → Stalls (Machine.exec (.mdld h f) s) s i) ∧
    (¬waits → ∃ t, Machine.exec (.mdld h f) s = .next t ∧ CommandQueued s t i (.slot f.fD.toNat) segs none))

end Copies

/-! ## Tasks (R234, R235, R249 to R255, R259) -/
namespace Sys2Proof.Claims
open Sys2Proof.Machine

/-- The issuing group holds in its registers what g holds; the strand stands READY at an address. -/
def Keeps (t : State) (i : Issue) (g : Group) (pc : DWord) : Prop :=
  let u := t.group i.core i.slot
  u.sregs = g.sregs ∧ u.vregs = g.vregs ∧ u.pregs = g.pregs ∧ u.qregs = g.qregs ∧ u.kregs = g.kregs ∧ u.tiles = g.tiles ∧
    u.accums = g.accums ∧ u.flags = g.flags ∧ u.exited = g.exited ∧ (u.strand i.n).pc = pc ∧ (u.strand i.n).state = .ready

/-- A child's logical id (R234). -/
def childId (t : TaskInfo) : DWord := t.id * 0x9E3779B97F4A7C15#64 + BitVec.ofNat 64 t.ordinal + 1

/-- What SPAWN, SPAWNR and EXEC find before any effect: every earlier access of the strand acknowledged, and the record at p and its operands'
descriptors to be read, in state u (R203, R227, R233, R337). -/
def FindsRecord (s u : State) (i : Issue) (p : Nat) : Prop :=
  s.strandQuiet i.core i.slot i.n = true ∧ s.recReady i p = (true, u)

/-- What SPAWN, SPAWNR and EXEC ask before any effect besides: the record valid, and no logged ordinal of another strand next in replay (R233,
R258). -/
def MaySpawn (s u : State) (i : Issue) (p : Nat) : Prop :=
  FindsRecord s u i p ∧ u.recInvalid i.core i.g.task.ctx i.g.task.ktag (u.recAt i p) = false ∧ u.ordinalWaits i = false

/-- A record is RECORD_INVALID, with the issuing lanes as its mask (the model's choice: log entry 19). -/
def RecordRefused (e : Host.Outcome State Fault Refusal) (u : State) (i : Issue) (p : DWord) : Prop :=
  e = .next (u.takeFault i.core i.slot i.n i.pc { code := 0x0601, mask := i.x.em, addr := p })

/-- A kernel is being cancelled (R315). -/
def Cancelled (s : State) (ktag : Nat) : Prop := ∃ k, s.kernel ktag = some k ∧ k.cancelled = true

/-- A record of a child, as it is queued: its words with the child's id, its task's context and kernel, pushed now. -/
def ChildRecord (u : State) (i : Issue) (p : DWord) (r : Rec) : Prop :=
  r.addr = p ∧ r.words = recWithId (u.recAt i p.toNat) (childId i.g.task) ∧ r.ctx = i.g.task.ctx ∧ r.ktag = i.g.task.ktag ∧
    r.det = i.g.task.det ∧ r.state = .pushed

end Sys2Proof.Claims

section Tasks
open Sys2Proof Sys2Proof.Machine Sys2Proof.Claims

/-- R249: SPAWN stalls while an earlier access of its strand is unacknowledged, and, as R233 reads the descriptors of the record's operands, while
a page of one is not ready (log entry 108); an invalid record is RECORD_INVALID; otherwise it takes the group's next ordinal for the child's id, and
pushes the record on its core's deque, its future's pointer to s[sD], or, with the deque or the region's share full, pushes nothing and sets s[sD]
to 0. A record pushed for a kernel that is being cancelled ends at once, its future to be cancelled (R315). -/
def Sys2Proof.Claims.SpawnPushes : Prop :=
  ∀ (h : List Hint) (f : FmtC) (s : State) (i : Issue),
    let p := i.g.sreg f.sb.toNat
    s.recFault i p.toNat = none → Issues s h i (reservedSet 0xC0 f.payload) {} false false none →
    (s.strandQuiet i.core i.slot i.n = false → Stalls (Machine.exec (.spawn h f) s) s i) ∧
    (∀ u, s.strandQuiet i.core i.slot i.n = true → s.recReady i p.toNat = (false, u) → Stalls (Machine.exec (.spawn h f) s) u i) ∧
    ∀ u, let words := u.recAt i p.toNat
      let full := 512 ≤ (u.core i.core).deque.length ∨ u.shareFull i.core i.g.task.ktag = true
      (FindsRecord s u i p.toNat → u.recInvalid i.core i.g.task.ctx i.g.task.ktag words = true →
        RecordRefused (Machine.exec (.spawn h f) s) u i p) ∧
      (MaySpawn s u i p.toNat → full → ∃ t, Machine.exec (.spawn h f) s = .next t ∧ Keeps t i (i.g.setS f.sa.toNat 0) i.next ∧
        (t.group i.core i.slot).task.ordinal = i.g.task.ordinal + 1 ∧ (t.core i.core).deque = (s.core i.core).deque) ∧
      (MaySpawn s u i p.toNat → ¬full → (u.futureReady i.core i.g.task.ctx (recFuture words)).1 = true →
        ∃ t r, Machine.exec (.spawn h f) s = .next t ∧ Keeps t i (i.g.setS f.sa.toNat (BitVec.ofNat 64 (recFuture words))) i.next ∧
          (t.group i.core i.slot).task.ordinal = i.g.task.ordinal + 1 ∧
          (¬Cancelled s i.g.task.ktag → (t.core i.core).deque = (s.core i.core).deque ++ [r]) ∧
          (Cancelled s i.g.task.ktag → (t.core i.core).deque = (s.core i.core).deque ∧
            ∃ e, (t.core i.core).ends = (s.core i.core).ends ++ [e] ∧ e.record = r ∧ e.ending = .cancelled) ∧
          ChildRecord u i p r ∧ r.pusher = some (i.g.uid, i.g.task.no))

/-- R244 and R250: SPAWNR stalls with 63 messages outstanding; otherwise it sends the record to the core that bits 10 to 0 of s[sT] name,
counted on ms, and goes on, or, with .blk, waits for its acceptance; an invalid record is RECORD_INVALID. -/
def Sys2Proof.Claims.RemoteSpawns : Prop :=
  ∀ (h : List Hint) (f : FmtC) (s : State) (i : Issue),
    let p := i.g.sreg f.sb.toNat
    let w := i.g.sreg f.sc.toNat
    s.targetBad w.toNat = false → s.recFault i p.toNat = none → Issues s h i (reservedSet 0xC1 f.payload) {} false false none →
    (63 ≤ i.g.ms → Stalls (Machine.exec (.spawnr h f) s) s i) ∧
    (∀ u, i.g.ms < 63 → FindsRecord s u i p.toNat → u.recInvalid i.core i.g.task.ctx i.g.task.ktag (u.recAt i p.toNat) = true →
      RecordRefused (Machine.exec (.spawnr h f) s) u i p) ∧
    (∀ u, i.g.ms < 63 → MaySpawn s u i p.toNat → ∃ t m, Machine.exec (.spawnr h f) s = .next t ∧ t.spawns = s.spawns ++ [m] ∧
      m.core = i.core ∧ m.slot = i.slot ∧ m.uid = i.g.uid ∧ m.strand = i.n ∧ m.target = w.toNat % 2048 ∧ m.blk = f.f.getLsbD 0 ∧ m.dest = f.sa.toNat ∧
      m.future = BitVec.ofNat 64 (recFuture (u.recAt i p.toNat)) ∧ ChildRecord u i p m.record ∧
      (t.group i.core i.slot).ms = i.g.ms + 1 ∧ (t.group i.core i.slot).task.ordinal = i.g.task.ordinal + 1 ∧
      (f.f.getLsbD 0 = false → Keeps t i i.g i.next) ∧
      (f.f.getLsbD 0 = true → ((t.group i.core i.slot).strand i.n).state = .waiting ∧
        ((t.group i.core i.slot).strand i.n).wait.kind = .spawnr ∧ ((t.group i.core i.slot).strand i.n).wait.cont = i.next ∧
        (t.group i.core i.slot).sregs = i.g.sregs))

/-- R252: FSET posts an 8-byte store of s[sV] to word 16 + 8k of the task's own future; no counter counts it, and no register changes. -/
def Sys2Proof.Claims.FutureStore : Prop :=
  ∀ (h : List Hint) (f : FmtC) (s : State) (i : Issue) (tgt : Target),
    let k := f.f.toNat % 8
    let p := (recFuture i.g.task.record + 16 + 8 * k) % 2 ^ 64
    k < 6 → s.barFault i p 8 false true = none → s.wholeTarget i.core i.slot i.g.task p = some tgt →
    Issues s h i (reservedSet 0xC3 f.payload) {} false false none →
    ∃ t a, Machine.exec (.fset h f) s = .next t ∧ a.target = tgt ∧ a.size = 8 ∧ a.data = (i.g.sreg f.sa.toNat).toNat ∧ a.performed = false ∧
      t.ops = s.ops ++ [{ i.op .st .store [a] with id := s.nextId, fence := (i.g.strand i.n).fenced }] ∧
      Keeps t i i.g i.next ∧ (t.group i.core i.slot).st = i.g.st ∧ (t.group i.core i.slot).outst = i.g.outst ∧ ∀ q, t.byteAt q = s.byteAt q

/-- R253: EXEC of a group of one strand with a record that can run in place takes room for its frame, hands the record to the task unit, and
waits; a record with QUAD or with a class above the group's, or a ninth nesting, is RECORD_INVALID, and so is one for which no room is left. -/
def Sys2Proof.Claims.ExecInPlace : Prop :=
  ∀ (h : List Hint) (f : FmtC) (s : State) (i : Issue),
    let p := i.g.sreg f.sa.toNat
    ∀ u, let words := u.recAt i p.toNat
    let refused := recQuad words = true ∨ i.g.vc < recVc words ∨ i.g.tc < recTc words ∨ i.g.ac < recAc words ∨ i.g.lc < recLc words ∨
      8 ≤ i.g.frames.length
    i.g.strands.length = 1 → s.recFault i p.toNat = none → Issues s h i (reservedSet 0xC4 f.payload) {} false false none →
    (FindsRecord s u i p.toNat → refused ∨ (u.saveRoom i.g.task.ctx i.g.task.ktag i.g.saveSize).1 = none →
      RecordRefused (Machine.exec (.execR h f) s) u i p) ∧
    ∀ base, MaySpawn s u i p.toNat → ¬refused → (u.saveRoom i.g.task.ctx i.g.task.ktag i.g.saveSize).1 = some base →
      ∃ t r, Machine.exec (.execR h f) s = .next t ∧
        ((t.group i.core i.slot).strand i.n).state = .waiting ∧ ((t.group i.core i.slot).strand i.n).wait.kind = .exec ∧
        ((t.group i.core i.slot).strand i.n).wait.dest = f.sb.toNat ∧ ((t.group i.core i.slot).strand i.n).wait.cont = i.next ∧
        (t.group i.core i.slot).sregs = i.g.sregs ∧ (t.core i.core).binding = (s.core i.core).binding ++ [.record r []] ∧
        r.addr = p ∧ r.state = .leasing ∧ r.toStage = recOperands words ∧
        r.words = recWithId words (if recIdv words then recId words else childId i.g.task) ∧
        t.saves = s.saves ++ [{ ctx := i.g.task.ctx, base := base, size := roundUp i.g.saveSize 4096 }]

/-- R254: LEASE answers 0 for a range that lies in one entry already and 1 with eight entries in use; otherwise it asks for the range and
stalls until the answer, which goes to s[sS]. -/
def Sys2Proof.Claims.LeaseAsks : Prop :=
  ∀ (h : List Hint) (f : FmtC) (s : State) (i : Issue),
    let b := (i.g.sreg f.sa.toNat).toNat
    let z := (i.g.sreg f.sb.toNat).toNat
    let mine : LeaseReq → Bool := fun q => q.holder == .task i.core i.g.uid i.g.task.no && q.strand == i.n
    65536 ≤ z → z ≤ 2 ^ 35 → s.leaseFault i b z = none → Issues s h i (reservedSet 0xC5 f.payload) {} false false none →
    (s.leaseReqs.find? mine = none →
      (inLeases (s.leaseSet i.g.task) b z = true → Ends (Machine.exec (.lease h f) s) (i, s) (i.g.setS f.sc.toNat 0) i.next false) ∧
      (inLeases (s.leaseSet i.g.task) b z = false → 8 ≤ (s.leaseSet i.g.task).length →
        Ends (Machine.exec (.lease h f) s) (i, s) (i.g.setS f.sc.toNat 1) i.next false) ∧
      (inLeases (s.leaseSet i.g.task) b z = false → (s.leaseSet i.g.task).length < 8 → ∃ t, Machine.exec (.lease h f) s = .next t ∧
        t.leaseReqs = s.leaseReqs ++ [{ id := s.nextId, holder := .task i.core i.g.uid i.g.task.no, ctx := i.g.task.ctx
                                        base := b, size := z, strand := i.n
                                        pieces := s.spanPieces (s.coreSpans i.core i.g.task.ctx) i.g.task.ctx 40 b z }] ∧
        t.group i.core i.slot = (s.group i.core i.slot).setStrand i.n { (s.group i.core i.slot).strand i.n with state := .stalled })) ∧
    ∀ q, s.leaseReqs.find? mine = some q →
      (q.answer = none → Stalls (Machine.exec (.lease h f) s) s i) ∧
      ∀ v, q.answer = some v → Ends (Machine.exec (.lease h f) s) (i, { s with leaseReqs := s.leaseReqs.filter fun x => x.id != q.id })
        (i.g.setS f.sc.toNat (BitVec.ofNat 64 v)) i.next false

/-- R255 and R259: UNLEASE answers 1 where LEASE has added no entry with the base, and otherwise removes it and answers 0. ORDMARK of a task
that is not deterministic is a NOP; of a deterministic one it is a decision of the task. -/
def Sys2Proof.Claims.UnleaseAndMark : Prop :=
  (∀ (h : List Hint) (f : FmtC) (s : State) (i : Issue), Issues s h i (reservedSet 0xC6 f.payload) {} false false none →
    let b := (i.g.sreg f.sa.toNat).toNat
    ((∀ r ∈ i.g.task.added, r.base ≠ b) → Ends (Machine.exec (.unlease h f) s) (i, s) (i.g.setS f.sb.toNat 1) i.next false) ∧
    ∀ r, i.g.task.added.find? (fun r => r.base == b) = some r → ∃ t, Machine.exec (.unlease h f) s = .next t ∧
      Keeps t i (i.g.setS f.sb.toNat 0) i.next ∧ (t.group i.core i.slot).task = { i.g.task with added := i.g.task.added.erase r } ∧
      t.leases.length ≤ s.leases.length ∧ ∀ e ∈ t.leases, e ∈ s.leases) ∧
  (∀ (h : List Hint) (f : FmtC) (s : State) (i : Issue), Issues s h i (reservedSet 0xE4 f.payload) {} false false none →
    (i.g.task.det = false → Ends (Machine.exec (.ordmark h f) s) (i, s) i.g i.next false) ∧
    (i.g.task.det = true → ∃ t, Machine.exec (.ordmark h f) s = .next t ∧ Keeps t i i.g i.next ∧
      (t.group i.core i.slot).task.decisions = (s.group i.core i.slot).task.decisions + 1))

/-- SPAWN and SPAWNR. That RECORD_INVALID names the lane mask em is the model's choice (log entry 19). -/
def Obligations.Spawns : Prop :=
  Claims.SpawnPushes ∧ Claims.RemoteSpawns

/-- FSET and EXEC. That RECORD_INVALID names the lane mask em is the model's choice (log entry 19). -/
def Obligations.FuturesAndExec : Prop :=
  Claims.FutureStore ∧ Claims.ExecInPlace

/-- LEASE, UNLEASE and ORDMARK. -/
def Obligations.LeasesAndMarks : Prop :=
  Claims.LeaseAsks ∧ Claims.UnleaseAndMark

end Tasks

/-! ## The tile engine's instructions (R92, R263 to R290) -/
namespace Sys2Proof.Claims
open Sys2Proof.Machine

/-- An operation has joined the tile engine's queue last, counted on tl, with the spans that its core holds now (R92, R267, R330); the core's other
lists are as they were. -/
def TileQueued (s t : State) (i : Issue) (g : Group) (kind : TileKind) : Prop :=
  Counted s t i g .tl false ∧ (t.core i.core).cmds = (s.core i.core).cmds ∧ (t.core i.core).lists = (s.core i.core).lists ∧
    (t.core i.core).tileOps = (s.core i.core).tileOps ++
      [{ id := s.nextId, slot := i.slot, strand := i.n, pc := i.pc, em := i.x.em, kind := kind, spans := s.coreSpans i.core i.g.task.ctx }]

/-- An instruction of format X that may issue: no field, hint or operand fault, and one strand with every lane not exited (R68, R268). -/
def TileIssues (s : State) (h : List Hint) (i : Issue) (op : BitVec 8) (f : FmtX) (form : Form) : Prop :=
  i.notWhole = none ∧ Issues s h i (reservedSet op f.payload) form false false none

/-- The element types of a multiply and MX: the XIMM payload's, else e4m3 and e4m3 (R276). -/
def types (h : List Hint) : Nat × Nat × Bool :=
  match ximmsOf h with
  | x :: _ => (x % 16, x / 16 % 16, x.testBit 8)
  | [] => (8, 8, false)

end Sys2Proof.Claims

section Tiles
open Sys2Proof Sys2Proof.Machine Sys2Proof.Claims

/-- R272 to R275: TLD, TST and TZERO complete where tl has room: the operation is queued with its tile, the box's descriptor and origin, and
its fields; with tl at 63 the strand stalls, and without the descriptor in the core's cache TLD and TST stall and ask for it. -/
def Sys2Proof.Claims.TileMovesQueued : Prop :=
  (∀ (h : List Hint) (f : FmtX) (s : State) (i : Issue),
    let b := f.s.toNat
    let tr := f.f.getLsbD 0
    let s4 := f.f.getLsbD 1
    let strip := f.f.getLsbD 2
    f.fD.toNat < i.g.nt → b % 4 = 0 → (tr = true → s4 = false ∧ strip = false) → s.tileFault i b tr s4 strip true false = none →
    Issues s h i (reservedSet 0xD0 f.payload) {} false false none →
    (s.descCached i (i.g.sreg b).toNat = none → AsksDescriptor (Machine.exec (.tld h f) s) s i (i.g.sreg b).toNat) ∧
    ∀ d, s.descCached i (i.g.sreg b).toNat = some d →
      (i.g.tl < 63 → ∃ t, Machine.exec (.tld h f) s = .next t ∧ TileQueued s t i i.g (.tld f.fD.toNat (natWords d 8) (i.origin b) tr s4 strip)) ∧
      (63 ≤ i.g.tl → Stalls (Machine.exec (.tld h f) s) s i)) ∧
  (∀ (h : List Hint) (f : FmtX) (s : State) (i : Issue),
    let b := f.s.toNat
    let tr := f.f.getLsbD 0
    let strip := f.f.getLsbD 2
    f.fA.toNat < i.g.nt → b % 4 = 0 → (tr = true → strip = false) → s.tileFault i b tr false strip false true = none →
    Issues s h i (reservedSet 0xD1 f.payload) {} false false none →
    (s.descCached i (i.g.sreg b).toNat = none → AsksDescriptor (Machine.exec (.tst h f) s) s i (i.g.sreg b).toNat) ∧
    ∀ d, s.descCached i (i.g.sreg b).toNat = some d →
    (i.g.tl < 63 → ∃ t, Machine.exec (.tst h f) s = .next t ∧ TileQueued s t i i.g (.tst f.fA.toNat (natWords d 8) (i.origin b) tr strip)) ∧
    (63 ≤ i.g.tl → Stalls (Machine.exec (.tst h f) s) s i)) ∧
  (∀ (h : List Hint) (f : FmtX) (s : State) (i : Issue), f.fD.toNat < i.g.nt → TileIssues s h i 0xD2 f {} →
    (i.g.tl < 63 → ∃ t, Machine.exec (.tzero h f) s = .next t ∧ TileQueued s t i i.g (.tzero f.fD.toNat)) ∧
    (63 ≤ i.g.tl → Stalls (Machine.exec (.tzero h f) s) s i))

/-- R268: with other strands in its group, or with a lane that has not exited inactive, every instruction of row 0xD that the tile engine
performs, and MDLD, whose fields are right, is ILLEGAL_CONVERGENCE: no operation is queued, and the fault is taken at the instruction. Of
MMAQ in a quad the fault is every group's (R280). THRESH and ABLK are not bound. -/
def Obligations.TilesNeedConvergence : Prop :=
  ∀ (h : List Hint) (f : FmtX) (s : State) (i : Issue), i.g.strands.length ≠ 1 ∨ i.x.em ≠ ~~~ i.g.exited →
    let d := f.fD.toNat
    let a := f.fA.toNat
    let b := f.fB.toNat
    let p := f.s.toNat
    let v := f.f.toNat
    let ty := v % 16
    let e : Flt := { code := 0x0202 }
    let as (op : BitVec 8) (form : Form) : Prop := Issues s h i (reservedSet op f.payload) form false false none
    let refused (x : Instr) : Prop := Machine.exec x s = .next (s.takeFault i.core i.slot i.n i.pc e)
    let mult : Prop := d < i.g.na ∧ a < i.g.nt ∧ b < i.g.nt
    (as 0xD0 {} → d < i.g.nt → p % 4 = 0 → (f.f.getLsbD 0 = true → f.f.getLsbD 1 = false ∧ f.f.getLsbD 2 = false) → refused (.tld h f)) ∧
    (as 0xD1 {} → a < i.g.nt → p % 4 = 0 → (f.f.getLsbD 0 = true → f.f.getLsbD 2 = false) → refused (.tst h f)) ∧
    (as 0xD2 {} → d < i.g.nt → refused (.tzero h f)) ∧
    (as 0xD3 { xmod := xmRound ||| xmSat } → d < i.g.nt → a < i.g.na → 6 ≤ ty → ty ≤ 12 → (v / 16 % 2 = 1 → ty ≤ 7 ∨ ty = 12) →
      refused (.tcvt h f)) ∧
    (as 0xD4 { ximm := 1 } → mult → mmaTypesBad h false = false → refused (.mma h f)) ∧
    (as 0xD5 { ximm := 1 } → mult → mmaTypesBad h false = false → s.mmaqUnlike i = false → (∀ x ∈ i.g.mmaqBad, x.1 ≠ i.g.mmaqs) →
      Machine.exec (.mmaq h f) s = .next (s.mmaqFault i e)) ∧
    (as 0xD6 { ximm := 1 } → mult → mmaTypesBad h true = false → b % 2 = 0 → b + 1 < i.g.nt → refused (.mmas h f)) ∧
    (as 0xD7 { ximm := 1 } → mult → mmaTypesBad h false = false → refused (.mmak h f)) ∧
    (as 0xD8 {} → a < i.g.nt → b < i.g.nt → v < i.g.nv → v ≠ 63 → refused (.scout h f)) ∧
    (as 0xDB {} → a < i.g.na → v < i.g.nv → v ≠ 63 → (i.g.sreg p).toNat < 64 → refused (.ard h f)) ∧
    (as 0xDC {} → a < i.g.na → b ≤ 1 → v < i.g.nv → v ≠ 63 → refused (.arow h f)) ∧
    (as 0xDD {} → d < i.g.na → (v < i.g.nv ∨ v = 63) → refused (.ascale h f)) ∧
    (as 0xDE {} → d < i.g.na → (v < i.g.nv ∨ v = 63) → refused (.aexp h f)) ∧
    (as 0xDF {} → d < i.g.na → refused (.azero h f)) ∧
    (as 0xB3 {} → v % 4 ≠ 3 → d < i.g.na → refused (.mdld h f))

/-- R276 to R281: MMA, MMAQ, MMAS and MMAK complete where tl has room: the multiply is queued with its registers and element types; MMAQ is
numbered within its group; MMAK is queued only where the keep mask holds the block, and otherwise goes on. -/
def Sys2Proof.Claims.MultipliesQueued : Prop :=
  ∀ (h : List Hint) (f : FmtX) (s : State) (i : Issue),
    let a := f.fD.toNat
    let x := f.fA.toNat
    let y := f.fB.toNat
    let ty := types h
    a < i.g.na → x < i.g.nt → y < i.g.nt →
    (mmaTypesBad h false = false → TileIssues s h i 0xD4 f { ximm := 1 } →
      (i.g.tl < 63 → ∃ t, Machine.exec (.mma h f) s = .next t ∧ TileQueued s t i i.g (.mma a x y ty.1 ty.2.1 ty.2.2)) ∧
      (63 ≤ i.g.tl → Stalls (Machine.exec (.mma h f) s) s i)) ∧
    (mmaTypesBad h false = false → s.mmaqUnlike i = false → (∀ e ∈ i.g.mmaqBad, e.1 ≠ i.g.mmaqs) → TileIssues s h i 0xD5 f { ximm := 1 } →
      (i.g.tl < 63 → ∃ t, Machine.exec (.mmaq h f) s = .next t ∧
        TileQueued s t i { i.g with mmaqs := i.g.mmaqs + 1 } (.mmaq a x y ty.1 ty.2.1 ty.2.2 i.g.mmaqs)) ∧
      (63 ≤ i.g.tl → Stalls (Machine.exec (.mmaq h f) s) s i)) ∧
    (mmaTypesBad h true = false → y % 2 = 0 → y + 1 < i.g.nt → TileIssues s h i 0xD6 f { ximm := 1 } →
      (i.g.tl < 63 → ∃ t, Machine.exec (.mmas h f) s = .next t ∧ TileQueued s t i i.g (.mmas a x y ty.1 ty.2.1 ty.2.2)) ∧
      (63 ≤ i.g.tl → Stalls (Machine.exec (.mmas h f) s) s i)) ∧
    (mmaTypesBad h false = false → TileIssues s h i 0xD7 f { ximm := 1 } →
      let b := (i.g.sreg f.s.toNat).toNat
      let kept := b < 64 ∧ (i.g.kreg (f.f.toNat % 4)).getLsbD b = true
      (kept → (i.g.tl < 63 → ∃ t, Machine.exec (.mmak h f) s = .next t ∧ TileQueued s t i i.g (.mma a x y ty.1 ty.2.1 ty.2.2)) ∧
        (63 ≤ i.g.tl → Stalls (Machine.exec (.mmak h f) s) s i)) ∧
      (¬kept → Ends (Machine.exec (.mmak h f) s) (i, s) i.g i.next false))

/-- R282 to R288: TCVT, SCOUT, ARD, AROW, ASCALE, AEXP and AZERO complete where tl has room: the operation is queued with its registers, and
with the s and vector operands as they stand at issue. -/
def Sys2Proof.Claims.AccumulatorOpsQueued : Prop :=
  ∀ (h : List Hint) (f : FmtX) (s : State) (i : Issue),
    let d := f.f.toNat
    let vec (k : Nat → Word → Prop) := ∀ l, l < 64 → k l (i.g.vreg d l)
    let ty := f.f.toNat % 16
    let hi := f.f.toNat / 16 % 2
    (f.fD.toNat < i.g.nt → f.fA.toNat < i.g.na → 6 ≤ ty → ty ≤ 12 → (hi = 1 → ty ≤ 7 ∨ ty = 12) →
      TileIssues s h i 0xD3 f { xmod := xmRound ||| xmSat } →
      (i.g.tl < 63 → ∃ t, Machine.exec (.tcvt h f) s = .next t ∧
        TileQueued s t i i.g (.tcvt f.fD.toNat f.fA.toNat ty hi (f.f.getLsbD 5) (fpModeOf h).mode (fpModeOf h).sat)) ∧
      (63 ≤ i.g.tl → Stalls (Machine.exec (.tcvt h f) s) s i)) ∧
    (f.fA.toNat < i.g.nt → f.fB.toNat < i.g.nt → d < i.g.nv → d ≠ 63 → TileIssues s h i 0xD8 f {} →
      (i.g.tl < 63 → ∃ t, Machine.exec (.scout h f) s = .next t ∧
        TileQueued s t i i.g (.scout f.fA.toNat f.fB.toNat (BitVec.ofNat 32 (i.g.sreg f.s.toNat).toNat) d)) ∧
      (63 ≤ i.g.tl → Stalls (Machine.exec (.scout h f) s) s i)) ∧
    (f.fA.toNat < i.g.na → d < i.g.nv → d ≠ 63 → (i.g.sreg f.s.toNat).toNat < 64 → TileIssues s h i 0xDB f {} →
      (i.g.tl < 63 → ∃ t, Machine.exec (.ard h f) s = .next t ∧ TileQueued s t i i.g (.ard f.fA.toNat (i.g.sreg f.s.toNat).toNat d)) ∧
      (63 ≤ i.g.tl → Stalls (Machine.exec (.ard h f) s) s i)) ∧
    (f.fA.toNat < i.g.na → f.fB.toNat ≤ 1 → d < i.g.nv → d ≠ 63 → TileIssues s h i 0xDC f {} →
      (i.g.tl < 63 → ∃ t, Machine.exec (.arow h f) s = .next t ∧ TileQueued s t i i.g (.arow f.fA.toNat f.fB.toNat d)) ∧
      (63 ≤ i.g.tl → Stalls (Machine.exec (.arow h f) s) s i)) ∧
    (f.fD.toNat < i.g.na → (d < i.g.nv ∨ d = 63) → TileIssues s h i 0xDD f {} →
      ∃ v : Lanes, vec (fun l w => v.at l = w) ∧ (i.g.tl < 63 → ∃ t, Machine.exec (.ascale h f) s = .next t ∧
        TileQueued s t i i.g (.ascale f.fD.toNat v)) ∧
        (63 ≤ i.g.tl → Stalls (Machine.exec (.ascale h f) s) s i)) ∧
    (f.fD.toNat < i.g.na → (d < i.g.nv ∨ d = 63) → TileIssues s h i 0xDE f {} →
      ∃ v : Lanes, vec (fun l w => v.at l = w) ∧
        (i.g.tl < 63 → ∃ t, Machine.exec (.aexp h f) s = .next t ∧
          TileQueued s t i i.g (.aexp f.fD.toNat v (BitVec.ofNat 32 (i.g.sreg f.s.toNat).toNat))) ∧
        (63 ≤ i.g.tl → Stalls (Machine.exec (.aexp h f) s) s i)) ∧
    (f.fD.toNat < i.g.na → TileIssues s h i 0xDF f {} →
      (i.g.tl < 63 → ∃ t, Machine.exec (.azero h f) s = .next t ∧ TileQueued s t i i.g (.azero f.fD.toNat)) ∧
      (63 ≤ i.g.tl → Stalls (Machine.exec (.azero h f) s) s i))

/-- R289: THRESH sets or clears bit b of a keep mask as some active lane's value is at least its reference less the margin; with em empty, or
b past 63, it changes nothing. -/
def Obligations.ThresholdBit : Prop :=
  ∀ (h : List Hint) (f : FmtX) (s : State) (i : Issue),
    let ref := f.fA.toNat % 4 * 16 + f.fB.toNat
    let b := (i.g.sreg f.s.toNat).toNat
    let theta := (ximmsOf h).getD 0 0
    let k := i.g.kreg f.fD.toNat
    let met := ∃ l, l < 64 ∧ i.x.em.getLsbD l = true ∧
      threshMet (f32.value (i.g.vreg f.f.toNat l).toNat) (f32.value (i.g.vreg ref l).toNat) theta = true
    f.fD.toNat < 4 → (f.f.toNat < i.g.nv ∨ f.f = 63) → (ref < i.g.nv ∨ ref = 63) →
    Issues s h i (reservedSet 0xD9 f.payload) { ximm := 1 } false false none →
    ∃ v, Ends (Machine.exec (.thresh h f) s) (i, s) (i.g.setK f.fD.toNat v) i.next false ∧
      (i.x.em = 0 ∨ 64 ≤ b → v = k) ∧
      (i.x.em ≠ 0 → b < 64 → ∀ j, j < 64 → (v.getLsbD j = true ↔ if j = b then met else k.getLsbD j = true))

/-- R290: ABLK sets the s register to the first block after it that the mask parameter word and the keep mask visit, or to -1: a block that
an entry names, or within the window of the query block, or in the keep mask, and not past the query block where the mask is causal. -/
def Obligations.NextBlock : Prop :=
  ∀ (h : List Hint) (f : FmtX) (s : State) (i : Issue),
    let p := (i.g.sreg f.s.toNat).toNat
    let cursor := (i.g.sreg f.f.toNat).toInt
    let n := p / 2 ^ 48 % 16
    let window : Int := (p / 2 ^ 52 % 16 : Nat)
    let causal := p.testBit 56
    let qb : Int := (p / 2 ^ 57 % 64 : Nat)
    let visits (b : Nat) : Prop := ((∃ j, j < n ∧ p / 2 ^ (6 * j) % 64 = b) ∨ ((b : Int) - qb < window ∧ qb - b < window) ∨
      (i.g.kreg f.fA.toNat).getLsbD b = true) ∧ ¬(causal = true ∧ qb < b)
    f.fA.toNat < 4 → n ≤ 8 → p.testBit 63 = false → Issues s h i (reservedSet 0xDA f.payload) {} false false none →
    ∃ v, Ends (Machine.exec (.ablk h f) s) (i, s) (i.g.setS f.f.toNat v) i.next false ∧
      ((∀ b : Nat, b < 64 → cursor < b → ¬visits b) → v = BitVec.allOnes 64) ∧
      (∀ b : Nat, b < 64 → cursor < b → visits b → (∀ c : Nat, c < b → cursor < c → ¬visits c) → v = BitVec.ofNat 64 b)

/-- The tile instructions complete at issue: TLD, TST, TZERO, MMA, MMAQ, MMAS, MMAK, TCVT, SCOUT, ARD, AROW, ASCALE, AEXP and AZERO. -/
def Obligations.TileOperationsQueued : Prop :=
  Claims.TileMovesQueued ∧ Claims.MultipliesQueued ∧ Claims.AccumulatorOpsQueued

end Tiles

/-! ## The system's instructions, faults (R60, R68, R93 to R95, R324, R326, R329, R346, R365) -/
namespace Sys2Proof.Claims
open Sys2Proof.Machine

/-- Writing the byte at one place changes what is read at another. -/
def touches : Place → Place → Prop
  | .cell c, .cell d => c = d
  | .cell c, .line _ d => c = d
  | .cell c, .held p a => c = hostCell p a
  | .line _ c, .line _ d => c = d
  | .held p a, .held q b => p = q ∧ a = b
  | _, _ => False

/-- The place of byte j of an access at its home: in the line that its page's leaf gives, or, without translation, where its target
stands. -/
def bytePlace (s : State) (tgt : Target) (p : Option Place) (j : Nat) : Place :=
  match p with
  | some q => q.shift j
  | none => (s.place tgt j).1

/-- The bytes of a number stand at an access's place, and every other byte of storage is as before (R4, R202). -/
def Stored (s t : State) (tgt : Target) (p : Option Place) (size v : Nat) : Prop :=
  (∀ j, j < size → t.byteAt (bytePlace s tgt p j) = BitVec.ofNat 8 (v / 256 ^ j)) ∧
    ∀ r, (∀ j, j < size → ¬touches (bytePlace s tgt p j) r) → t.byteAt r = s.byteAt r

/-- The record of a fault that a strand of a group meets at an address, SUPPRESSED where the group has faulted before (R95, R324). -/
def faultRecord (s : State) (c k n : Nat) (pc : DWord) (e : Flt) : FaultRec :=
  let g := s.group c k
  { code := e.code, kind := e.kind, suppressed := g.faulted, core := c, slot := k, strand := n, region := s.regionOf g.task.ktag,
    ktag := g.task.ktag, task := g.task.id, pc := pc, mask := e.mask, addr := e.addr, info := e.info }

end Sys2Proof.Claims

section System
open Sys2Proof Sys2Proof.Machine Sys2Proof.Claims

/-- R329, R346 and R365: PUBLISH, PROBE and EVENT complete where their counter has room: each posts one operation, PUBLISH for a window of the
task's context alone, and another window is PERMISSION; PROBE's answer goes to s[sD], asked of the home of the page where a span of the core
maps the address, and known at once where none does. With the counter at 63 the strand stalls. -/
def Sys2Proof.Claims.SystemOperations : Prop :=
  ∀ (h : List Hint) (f : FmtC) (s : State) (i : Issue),
    let n := f.f.toNat % 16
    (Issues s h i (reservedSet 0xE0 f.payload) {} false false none → s.windowOk i.g.task.ctx n 0 0 = true →
      (i.g.st < 63 → ∃ t a, Machine.exec (.publish h f) s = .next t ∧ a.size = 0 ∧ a.performed = false ∧
        Posted s t i i.g { i.op .st .publish [a] with words := [BitVec.ofNat 64 n] }) ∧
      (63 ≤ i.g.st → Stalls (Machine.exec (.publish h f) s) s i)) ∧
    (Issues s h i (reservedSet 0xE0 f.payload) {} false false none → s.windowOk i.g.task.ctx n 0 0 = false →
      Machine.exec (.publish h f) s = .next (s.takeFault i.core i.slot i.n i.pc { code := 0x0403, mask := i.x.em })) ∧
    (Issues s h i (reservedSet 0xE2 f.payload) {} false false none →
      let p := (i.g.sreg f.sc.toNat).toNat
      let held := if ptrSpace p = 0 ∧ tagBad p true = false then
        s.spanIn (s.coreSpans i.core i.g.task.ctx) i.g.task.ctx (ptrOffset p) else none
      let lease := if ptrSpace p = 0 ∧ inLeases (s.leaseSet i.g.task) (ptrOffset p) 1 = true then 256 else 0
      (i.g.ld < 63 → ∃ t a ia w, Machine.exec (.probe h f) s = .next t ∧ a.lane = 64 ∧ a.size = 0 ∧
        Posted s t i i.g { i.op .ld .probe [a] with
          dest := .uni f.sa.toNat, words := [BitVec.ofNat 64 ia, BitVec.ofNat 64 w, BitVec.ofNat 64 f.sb.toNat] } ∧
        (∀ m span ctl, held = some (m, span, ctl) → ia = span ∧ w = 1 + 2 * (ctl.toNat / 2 ^ 32 % 8) + 16 * m + lease ∧
          a.target = .global i.g.task.ctx span false ∧ a.performed = false) ∧
        (held = none → w = lease ∧ a.performed = true ∧ a.value = w)) ∧
      (63 ≤ i.g.ld → Stalls (Machine.exec (.probe h f) s) s i)) ∧
    (Issues s h i (reservedSet 0xE3 f.payload) {} false false none →
      (i.g.st < 63 → ∃ t a, Machine.exec (.event h f) s = .next t ∧ a.size = 0 ∧ a.performed = false ∧
        Posted s t i i.g { i.op .st .event [a] with words := [i.g.sreg f.sa.toNat, i.g.sreg f.sb.toNat, BitVec.ofNat 64 f.f.toNat] }) ∧
      (63 ≤ i.g.st → Stalls (Machine.exec (.event h f) s) s i))

/-- R60 and R68: a word with an unassigned opcode is ILLEGAL_INSTRUCTION, whatever its hint words; seven hint words are ILLEGAL_HINT, or
ILLEGAL_INSTRUCTION where a reserved field of one is set. -/
def Sys2Proof.Claims.WordsWithoutInstruction : Prop :=
  (∀ (h : List Hint) (w : Word) (s : State) (i : Issue), s.issue h = some i →
    Machine.exec (.unassignedOpcode h w) s = .next (s.takeFault i.core i.slot i.n i.pc { code := 0x0101 })) ∧
  (∀ (h : List Hint) (s : State) (i : Issue), s.issue h = some i → h.length = 7 →
    Machine.exec (.seventhHintWord h) s = .next (s.takeFault i.core i.slot i.n i.pc
      { code := if h.all Hint.reservedZero then 0x0102 else 0x0101 }))

/-- R68: of an instruction with several faults the first counts: a reserved field, then a hint, then a route, then an operand. Shown for
IADD, which has no fault of its own. -/
def Obligations.FaultOrder : Prop :=
  ∀ (h : List Hint) (f : FmtV) (s : State) (i : Issue), s.issue h = some i →
    let form := intForm h f.d.toNat f.two
    let takes (code : Nat) : Prop := Machine.exec (.iadd h f) s = .next (s.takeFault i.core i.slot i.n i.pc { code := code })
    (h.all Hint.reservedZero = false → takes 0x0101) ∧
    (h.all Hint.reservedZero = true → form.hintFault h = true → takes 0x0102) ∧
    (h.all Hint.reservedZero = true → form.hintFault h = false → form.routeFault h i.g = true → takes 0x0104) ∧
    (h.all Hint.reservedZero = true → form.hintFault h = false → form.routeFault h i.g = false →
      form.operandFault h i.g i.x.window.length = true → takes 0x0103)

/-- R93, R95, R324, R326 and R327: taking a fault writes a record, which says SUPPRESSED where the group has faulted before: such a group is
otherwise left as it is, its strand at the first word of its hint sequence. Of a group outside EXEC and quads, policy 0 ends the task as failed
with the code; policy 1 ends the fault domain besides; policy 2 of an attached context parks an ACTIVE group; and policy 3 has the region's handler
receive the record, with the number that it took, before the task ends. No register changes. What a group reads of bytes that its own engines have
written (unseen) is apart: the record's own bytes may be among them (R202). -/
def Sys2Proof.Claims.TakingAFault : Prop :=
  ∀ (s : State) (c k n : Nat) (pc : DWord) (e : Flt),
    let g := s.group c k
    let t := s.takeFault c k n pc e
    let w := s.writeRecord g.task.ctx (faultRecord s c k n pc e)
    let w' := w.setGroup c k { (w.group c k).unhint n with faulted := true }
    (g.faulted = true → t = w' ∧
      { t.slot c k with group := { t.group c k with unseen := g.unseen } } = { s.slot c k with group := g.unhint n }) ∧
    (g.faulted = false → s.policyOf g = 1 → t = (w'.endTask c k (.failed e.code)).endDomain g.task.ktag) ∧
    (g.faulted = false → s.policyOf g = 3 → t = (w'.handle g.task.ctx
      { core := c, ktag := g.task.ktag, ptr := (s.eff g.task.ktag).handler, fault := faultRecord s c k n pc e
        seq := (s.ctx g.task.ctx).seq + (s.ctx g.task.ctx).recsWaiting.length, id := g.task.id }).endTask c k (.failed e.code)) ∧
    (g.faulted = false → g.frames = [] → g.task.quad = none →
      (t.group c k).faulted = true ∧ (t.group c k).sregs = g.sregs ∧ (t.group c k).vregs = g.vregs ∧ (t.group c k).pregs = g.pregs ∧
      (s.policyOf g = 0 → (t.slot c k).state = .draining ∧ (g.ending = none → (t.group c k).ending = some (.failed e.code))) ∧
      (s.policyOf g = 2 → (s.slot c k).state = .active →
        (t.slot c k).state = .frozen ∧ (t.slot c k).cause = .policy ∧ (t.group c k).strands = (g.unhint n).strands))

/-- R324 and R325: a record is written at the head of its context's fault queue, at CTX_FQ.BASE and 64 bytes for each earlier one modulo the
queue's size: code, kind, SUPPRESSED, RELAUNCHED, core, slot and strand in its first word, region and kernel tag, task, PC, mask, address,
information and sequence number in the others; HEAD and the sequence number rise by one. A full queue drops it: LOST rises by one up to its largest
value, and nothing else changes. -/
def Sys2Proof.Claims.FaultRecords : Prop :=
  (∀ (r : FaultRec) (seq : Nat), r.code < 2 ^ 16 → r.kind < 2 ^ 8 → r.core < 2 ^ 16 → r.slot < 2 ^ 8 → r.strand < 2 ^ 8 →
    r.region < 2 ^ 32 → r.ktag < 2 ^ 32 →
    ∃ a b, r.words seq = [a, b, r.task, r.pc, r.mask, r.addr, r.info, BitVec.ofNat 64 seq] ∧
      (a.extractLsb' 0 16).toNat = r.code ∧ (a.extractLsb' 16 8).toNat = r.kind ∧ a.getLsbD 24 = r.suppressed ∧
      a.getLsbD 25 = r.relaunched ∧ (a.extractLsb' 32 16).toNat = r.core ∧ (a.extractLsb' 48 8).toNat = r.slot ∧
      (a.extractLsb' 56 8).toNat = r.strand ∧ (b.extractLsb' 0 32).toNat = r.region ∧ (b.extractLsb' 32 32).toNat = r.ktag) ∧
  (∀ (s : State) (n : Nat) (r : FaultRec), (s.ctx n).recsWaiting = [] → s.faultFull n = true →
    let t := s.writeRecord n r
    (∃ v, t = s.setReg (.ctxFqHead n) v) ∧ t.fld (.ctxFqHead n) 31 0 = s.fld (.ctxFqHead n) 31 0 ∧
      t.fld (.ctxFqHead n) 63 32 = min (s.fld (.ctxFqHead n) 63 32 + 1) (2 ^ 32 - 1)) ∧
  (∀ (s u : State) (n : Nat) (r : FaultRec), n < 64 → (s.ctx n).recsWaiting = [] → s.faultFull n = false →
    let head := s.fld (.ctxFqHead n) 31 0
    let at' := (s.reg (.ctxFq n)).toNat / 4096 % 2 ^ 44 * 4096 + 64 * (head % 2 ^ s.fld (.ctxFq n) 4 0)
    s.reach n at' 64 true = (.present, u) → u.lineAt (.global n at' false) = none → u.pending = [] →
    let t := s.writeRecord n r
    t.fld (.ctxFqHead n) 31 0 = (head + 1) % 2 ^ 32 ∧ t.fld (.ctxFqHead n) 63 32 = s.fld (.ctxFqHead n) 63 32 ∧
      (t.ctx n).seq = (s.ctx n).seq + 1 ∧ (t.ctx n).recsWaiting = [] ∧
      ∀ j, j < 64 → t.byteAt (u.place (.global n at' false) j).1 = BitVec.ofNat 8 (wordsNat (r.words (s.ctx n).seq) / 256 ^ j))

/-- The system instructions, and words that are no instruction. That PUBLISH's PERMISSION names the lane mask em is the model's choice (log
entry 19). -/
def Obligations.SystemInstructions : Prop :=
  Claims.SystemOperations ∧ Claims.WordsWithoutInstruction

/-- A fault as it is taken, and its record. -/
def Obligations.Faults : Prop :=
  Claims.TakingAFault ∧ Claims.FaultRecords

end System

/-! ## Encoding (R47 to R51, R60, R66, R68) -/
namespace Sys2Proof.Claims

/-- The opcode of a word is a hint word's (R60). -/
def isHint (w : Word) : Bool := decide (0xF0 ≤ (w.extractLsb' 24 8).toNat) && decide ((w.extractLsb' 24 8).toNat ≤ 0xF4)

/-- A word decodes to an instruction by itself. -/
def Reads (w : Word) (i : Instr) : Prop := decodeWords [w] = .ok (i, [])

end Sys2Proof.Claims

section Coding
open Sys2Proof Sys2Proof.Machine Sys2Proof.Claims

/-- Decoding gives back every instruction that words can stand for, with every operand at every value and its hint words, from its own words,
and leaves the words that follow. -/
def Obligations.EncodeThenDecode : Prop :=
  ∀ (i : Instr) (rest : List Word), i.codable = true → decodeWords (encode i ++ rest) = .ok (i, rest)

/-- Whatever the decoder reads, its encoding is the very words read, so no two instructions share a word; and the decoder fails only where
the words end before an instruction's last one. -/
def Obligations.DecodeThenEncode : Prop :=
  (∀ (ws rest : List Word) (i : Instr), decodeWords ws = .ok (i, rest) → i.codable = true ∧ encode i ++ rest = ws) ∧
  (∀ (ws : List Word) (e : DecodeError), decodeWords ws = .error e ↔ ws.length ≤ 6 ∧ ws.all isHint = true)

/-- The words of the spec's own examples decode to what they stand for there. -/
def Obligations.SpecWords : Prop :=
  Reads 0x00000000 (.nop [] ⟨0, 0, 0, 0⟩) ∧
  Reads 0x011FFFFB (.bra [] ⟨0, 3, 1, 0x3FFFB⟩) ∧
  Reads 0x12FC2F30 (.imul [] ⟨63, 5, 115, 0, 0⟩) ∧
  Reads 0x101A0410 (.iadd [] ⟨6, 64, 65, 0, 0⟩) ∧
  Reads 0x15101083 (.imad [] ⟨4, 1, 2, 3⟩) ∧
  Reads 0x522E0900 (.fcmp [] ⟨2, 14, 4, 64, 0, 0⟩) ∧
  Reads 0x550420C0 (.pand [] ⟨1, 2, 3, 0⟩) ∧
  Reads 0x80104FC1 (.sadd [] ⟨4, 4, 63, 1⟩) ∧
  Reads 0x8D27FFFF (.smovi [] ⟨9, 0x3FFFF⟩) ∧
  Reads 0xA01021C0 (.atom [] ⟨4, 2, 7, 0, 0⟩) ∧
  Reads 0xA7083100 (.bwait [] ⟨2, 3, 4, 0⟩) ∧
  Reads 0xC1244141 (.spawnr [] ⟨9, 4, 5, 1⟩) ∧
  Reads 0xD8001184 (.scout [] ⟨0, 0, 1, 6, 4⟩) ∧
  decodeWords [0xF0200000, 0xF1000030, 0x2E1746A0, 0x12FC2F30] =
    .ok (.iaddi [.run 0x200000, .ximm 0x30] ⟨5, 104, 0x6A0⟩, [0x12FC2F30]) ∧
  decodeBytes [0x20, 0x08, 0x0C, 0x10] = .ok (.iadd [] ⟨3, 1, 2, 0, 0⟩, 1)

end Coding

/-! ## Steps (R6, R47, R57, R60, R77, R87, R404) -/
namespace Sys2Proof.Claims
open Sys2Proof.Machine

/-- The words at virtual addresses from pc + 4 · n on, fetched one after another: each translated, readable with X and resident (R47). -/
inductive Fetches (ctx tag pc : Nat) : Nat → State → List Word → State → Prop where
  | done (n : Nat) (s : State) : Fetches ctx tag pc n s [] s
  | word (n : Nat) (s t u : State) (w : Word) (ws : List Word) :
      s.fetchWord ctx tag (pc + 4 * n) = (.ok w, t) → Fetches ctx tag pc (n + 1) t ws u → Fetches ctx tag pc n s (w :: ws) u

end Sys2Proof.Claims

section Steps
open Sys2Proof Sys2Proof.Machine Sys2Proof.Claims

/-- R47 and R60: where the words fetched at a strand's PC are those of an instruction with its hint words, the strand issues the sequence's next
word: a hint word, which takes its port cycle alone, while one is left; then the instruction, exactly as it runs with the current PC at its
sequence's first word and the current address at its last one. Where a replay waits for a page of its log the strand is STALLED (R258, R412). -/
def Sys2Proof.Claims.StrandRunsDecoded : Prop :=
  ∀ (s t : State) (c k n : Nat) (ws : List Word) (i : Instr),
    let x := (s.group c k).strand n
    Fetches (s.group c k).task.ctx (s.group c k).task.ktag x.pc.toNat 0 { s with cur := { s.cur with core := c } } ws t → decodeWords ws = .ok (i, []) →
    (x.hinted + 1 < ws.length → s.issueStrand c k n = .next (t.issueHint c k n i)) ∧
    (ws.length ≤ x.hinted + 1 →
      (∀ u, t.logHolds (s.group c k).task i = (true, u) → s.issueStrand c k n = .next (u.stallStrand c k n)) ∧
      ∀ u, t.logHolds (s.group c k).task i = (false, u) → s.issueStrand c k n = Machine.exec i { u with
        cur := { core := c, slot := k, strand := n, pc := x.pc, addr := x.pc + BitVec.ofNat 64 (4 * (ws.length - 1)) } })

/-- A step whose turn is a port's runs the decoded instruction of the strand that R87 chooses: the turn's cycles pass, the port's strands are
looked at (R77), the strand at the head of the order issues its next word, and unless it stalls the step ends with what the port keeps of the
issue (R87, R88, R97, R99), unless a lower strand that co-issues with it faults as well, whose fault is then taken first (R327). -/
def Sys2Proof.Claims.StepRunsDecoded : Prop :=
  ∀ (s u : State) (d c p k n : Nat) (held rest : List (Nat × Nat)) (turns : List Turn) (ws : List Word) (i : Instr),
    s.agenda = { delay := d, what := .issue c p held } :: turns →
    let v := ({ s with agenda := turns }.pass d).refresh c p held
    let x := (v.group c k).strand n
    (∀ q, Bank.look (v.core c).ports p = some q → v.coreAt c q.time / 2 ≠ v.cycle c) → v.issueOrder c p = (k, n) :: rest →
    Fetches (v.group c k).task.ctx (v.group c k).task.ktag x.pc.toNat 0 { v with cur := { v.cur with core := c } } ws u → decodeWords ws = .ok (i, []) →
    let kept (t : State) : Prop := ∃ pairs opens whole,
      let q : Port := { time := v.time, slot := k, strand := n, owned := x.owned, pairs := pairs
                        faulted := pairs && (t.slot c k).state != .active }
      ((if q.faulted = true then v.lowerFault c p k n q else none) = none →
        step s = .next ((if opens = true then t.passOver v c p k n else t).afterIssue c p k n q whole))
    (x.hinted + 1 < ws.length → kept (u.issueHint c k n i)) ∧
    ∀ w, ws.length ≤ x.hinted + 1 → u.logHolds (v.group c k).task i = (false, w) →
      let at' := { w with cur := { core := c, slot := k, strand := n, pc := x.pc, addr := x.pc + BitVec.ofNat 64 (4 * (ws.length - 1)) } }
      (∀ t, Machine.exec i at' = .next t → t.notIssued c k n x.pc = false → kept t) ∧
      (∀ t, Machine.exec i at' = .next t → t.notIssued c k n x.pc = true → step s = t.tryStrands c p rest) ∧
      (∀ f, Machine.exec i at' = .fault f → step s = .fault f)

/-- A step whose turn is a unit's runs that unit's step with its operands, the turn's cycles passing first. That what happens next, and when, is
an agenda in State is the model's choice (log entry 6). -/
def Obligations.StepRunsUnit : Prop :=
  ∀ (s : State) (d : Nat) (i : Instr) (a : StepArgs) (turns : List Turn), s.agenda = { delay := d, what := .unit i a } :: turns →
    step s = Machine.exec i { { s with agenda := turns }.pass d with arg := a }

/-- R404 and the reset columns of the register tables: after reset the part is in boot state RESET, every slot is FREE, no kernel, queue,
context, lease or page is in use, every link is DOWN (R348), and every management register reads its reset value. That storage reads as zero
is the model's choice (log entry 1). -/
def Obligations.ResetState : Prop :=
  State.reset.Inv ∧ State.reset.boot = .reset ∧ State.reset.time = 0 ∧ (∀ c k, (State.reset.slot c k).state = .free) ∧
  (∀ r, State.reset.reg r = r.resetVal) ∧ State.reset.kernels = [] ∧ State.reset.leases = [] ∧ State.reset.pages = [] ∧
  State.reset.real = 0 ∧ (∀ n, (State.reset.ctx n).state = .free) ∧ (∀ n, (State.reset.link n).state = .down) ∧ (∀ p, State.reset.byteAt p = 0)

/-- Every step keeps the canonical form of storage: addresses strictly rising, and none listed that reads as an unlisted one does. -/
def Obligations.StepKeepsStorageForm : Prop :=
  ∀ (s t : State), s.Inv → step s = .next t → t.Inv

/-- A strand and a step run the instruction that the bytes at the program counter decode to. The agenda that says whose turn it is (log entry 6)
and the stall of a replayed instruction whose order log has an ABSENT page (log entry 108) are the model's choices. -/
def Obligations.DecodedInstructionRuns : Prop :=
  Claims.StrandRunsDecoded ∧ Claims.StepRunsDecoded

end Steps

/-! ## Steps of a group's life (R75, R76, R80 to R86, R92, R96, R97, R108, R236, R240, R253, R293, R413) -/
namespace Sys2Proof.Claims
open Sys2Proof.Machine

/-- A step of a unit has led to a next state of which something holds. -/
def Leads (i : Instr) (s : State) (p : State → Prop) : Prop := ∃ t, Machine.exec i s = .next t ∧ p t

/-- A group as its task enters it (R76): the arguments in s0 to s7, every other register of every class zero, the generators by R36, one
strand with every lane at an address, and no token, counter or status bit. -/
def Entered (g : Group) (words : List DWord) (id pc : DWord) : Prop :=
  (∀ n, n < 8 → g.sreg n = words.getD (8 + n) 0) ∧ (∀ n, 8 ≤ n → g.sreg n = 0) ∧ (∀ n, n < 15 → g.preg n = 0) ∧ (∀ n, g.qreg n = 0) ∧
    (∀ n, g.kreg n = 0) ∧ (∀ n l, g.vreg n l = 0) ∧ (∀ l, l < 64 → g.gen l = sgenInit id l) ∧ g.flags = 0 ∧ g.exited = 0 ∧
    g.tokens = [] ∧ g.drained = true ∧ (g.strands.map (·.1)) = [0] ∧ (g.strand 0).pc = pc ∧ (g.strand 0).owned = BitVec.allOnes 64 ∧
    (g.strand 0).em = BitVec.allOnes 64 ∧ (g.strand 0).token = none ∧ (g.strand 0).state = .ready

/-- What a record that was binding has become: its task on the q-th of its slots, with a number that a quad's four groups share (the model's own,
for R236 and R240). -/
def EnteredAs (s t : State) (c k q no : Nat) (r : Rec) : Prop :=
  (t.slot c k).state = .active ∧ (t.group c k).task = { r.task (if recQuad r.words then some q else none) with no := no } ∧
    Entered (t.group c k) r.words (recId r.words + BitVec.ofNat 64 (if recQuad r.words then q else 0)) (s.entryPc r) ∧
    (t.group c k).vc = recVc r.words ∧ (t.group c k).tc = recTc r.words ∧ (t.group c k).ac = recAc r.words ∧ (t.group c k).lc = recLc r.words

end Sys2Proof.Claims

section Groups
open Sys2Proof Sys2Proof.Machine Sys2Proof.Claims

/-- R80, R81, R92, R108 and R413: with a claim first and a strand number free, CLAIM_SERVED forms a strand on the lowest free number with the
token's arrived lanes at its continuation, or, for a deferred entry, its own lanes at its target, and frees the entry; COUNTER_RETIRE
lowers a counter whose oldest operation is done and lets a strand go on whose WAIT the counters now meet. -/
def Obligations.ClaimsAndCounters : Prop :=
  (∀ (s : State) (j n : Nat),
    let c := s.arg.core
    let k := s.arg.slot
    let g := s.group c k
    let x := g.token j
    (s.slot c k).state = .active ∨ (s.slot c k).state = .frozen ∨ (s.slot c k).state = .saving →
    g.firstClaim = some j → g.freeStrand = some n →
    Leads .claimServed s fun t => t.group c k = (g.dropToken j).setStrand n
      (if x.kind = .deferred then { pc := x.cont, owned := x.mask, em := x.mask, token := x.parent, since := s.time }
        else { pc := x.cont, owned := x.arrived, em := x.arrivedEm, token := x.parent, since := s.time, notBefore := x.claimAt + 4 })) ∧
  (∀ (s : State) (o : Outst),
    let c := s.arg.core
    let k := s.arg.slot
    let g := s.group c k
    let n := s.arg.code
    let ctr : Ctr := if n = 0 then .ld else if n = 1 then .st else if n = 2 then .cp else if n = 3 then .tl else .ms
    g.outst.find? (fun o => o.ctr == ctr) = some o → o.done = true →
    Leads .counterRetire s fun t =>
      let h := t.group c k
      h.ctr ctr = g.ctr ctr - 1 ∧ (∀ d, d ≠ ctr → h.ctr d = g.ctr d) ∧ h.sregs = g.sregs ∧ h.vregs = g.vregs ∧
      (∀ p, t.byteAt p = s.byteAt p) ∧
      ∀ m x, Bank.look g.strands m = some x →
        let met := x.state = .waiting ∧ x.wait.kind = .wait ∧ h.waitMet x.wait.word.toNat = true
        (met → ∃ y, Bank.look h.strands m = some y ∧ y.state = .ready ∧ y.pc = x.wait.cont) ∧
        (¬met → Bank.look h.strands m = some x))

/-- R75, R76, R203, R238, R240 and R253: SLOT_BIND takes the first candidate that can have its slots and blocks out of its queue and binds it to
them; TASK_ENTRY enters a record with its operands staged, its lease held and its blocks granted; a child of EXEC enters on its caller's slot once the
caller's counters are zero, the caller's task kept in its frame, and sees what the group's engines have written. -/
def Sys2Proof.Claims.BindAndEnter : Prop :=
  (∀ (s : State) (r : Rec) (ks : List Nat) (bs : List Block),
    let c := s.arg.core
    let u := s.reachLogs c
    (u.candidates c).findSome? (fun r => (u.fits c r).map fun g => (r, g)) = some (r, ks, bs) →
    Leads .slotBind s fun t => (t.core c).blocks = bs ∧ (t.core c).deque = (s.core c).deque.filter (fun y => y.id != r.id) ∧
      (t.core c).inbound = (s.core c).inbound.filter (fun y => y.id != r.id) ∧ (∀ k ∈ ks, (t.slot c k).state = .binding) ∧
      ∃ r', (t.core c).binding = (s.core c).binding ++ [.record r' ks] ∧ r'.id = r.id ∧ r'.words = r.words ∧ r'.state = .leasing) ∧
  (∀ (s u : State) (r : Rec) (ks : List Nat),
    let c := s.arg.core
    (s.core c).bindingAt s.arg.slot = some (r, ks) → r.toStage = [] → r.leaseHeld = true → ks.Nodup → s.regrant c ks = some u →
    Leads .taskEntry s fun t => ∃ no, ∀ q k, ks[q]? = some k → EnteredAs s t c k q no r) ∧
  (∀ (s u : State) (r : Rec),
    let c := s.arg.core
    let k := s.arg.slot
    let g := s.group c k
    (s.core c).bindingAt k = none → s.execRec c k = some r → (s.slot c k).state = .active → (s.slot c k).preempt = none → r.toStage = [] →
    r.leaseHeld = true → g.drained = true →
    s.reach g.task.ctx (g.strand g.first).wait.ring.toNat g.saveSize true = (.present, u) →
    Leads .taskEntry s fun t => (t.group c k).task.id = recId r.words ∧ (t.group c k).task.record = r.words ∧
      Entered (t.group c k) r.words (recId r.words) (s.entryPc r) ∧ (g.outst = [] → (t.group c k).unseen = []) ∧
      ∃ f, (t.group c k).frames = f :: g.frames ∧ f.task = g.task ∧ f.dest = (g.strand g.first).wait.dest ∧ f.cont = (g.strand g.first).wait.cont)

/-- R84, R85, R184 and R266: COMPACTION_MOVE freezes the group of the block it chooses, once it is ACTIVE at an instruction boundary, and
the block is MOVING once the group's ld and tl have drained and the engine stands between two segments; COMPACTION_COPY_END leaves the block
at its new place and the group ACTIVE. -/
def Sys2Proof.Claims.Compaction : Prop :=
  (∀ (s : State) (m : Move),
    let c := s.arg.core
    let cls := s.arg.code
    (s.core c).move = none → s.wantsRoom c cls = true → s.nextMove c cls = some m →
    let ready := (s.slot c m.slot).state = .active ∧ (s.group c m.slot).atBoundary = true
    (ready → Leads .compactionMove s fun t => (t.core c).move = some m ∧ (t.slot c m.slot).state = .frozen ∧
      (t.slot c m.slot).cause = .compaction ∧ t.group c m.slot = s.group c m.slot) ∧
    (¬ready → Machine.exec .compactionMove s = .next s)) ∧
  (∀ (s : State) (m : Move),
    let c := s.arg.core
    (s.core c).move = some m → (s.slot c m.slot).state = .frozen → (s.slot c m.slot).cause = .compaction →
    ((s.group c m.slot).ld = 0 → (s.group c m.slot).tl = 0 → (s.core c).midSegment = none →
      Leads .compactionMove s fun t => ∀ b ∈ (s.core c).blocks, m.hits b = true → { b with state := .moving } ∈ (t.core c).blocks) ∧
    ∀ b, (s.core c).blocks.find? (fun b => m.hits b && b.state == .moving) = some b → m.slot < 32 →
      (s.slot c m.slot).preempt = none → (s.group c m.slot).ending = none →
      Leads .compactionCopyEnd s fun t => (t.core c).move = none ∧ (t.slot c m.slot).state = .active ∧
        { t.group c m.slot with unseen := (s.group c m.slot).unseen } = s.group c m.slot ∧
        { b with base := m.dst, state := .bound } ∈ (t.core c).blocks)

/-- R75, R96, R97 and R312: OFF_CORE_PARK saves the group that has been eligible longest; PREEMPT_REQUEST notes a request, or saves at once a
task that stands at its pre-emption point; PREEMPT_TIMEOUT saves it after 2,000 core cycles, at an instruction boundary of its ACTIVE slots. -/
def Sys2Proof.Claims.ParkAndPreempt : Prop :=
  (∀ (s : State) (k : Nat) (rest : List Nat),
    let c := s.arg.core
    let may := (List.range 32).filter fun k =>
      (s.slot c k).state == .active && s.eligible c k && (s.takeBlocks c (taskSlots (s.group c k) k)).isSome
    s.slotWanted c = true → sortBy (fun a b => decide (s.eligibleSince c a < s.eligibleSince c b)
        || (s.eligibleSince c a == s.eligibleSince c b && decide (a ≤ b))) may = k :: rest →
    Leads .offCorePark s fun t => ∀ j ∈ taskSlots (s.group c k) k, (t.slot c j).state = .saving) ∧
  (∀ s : State,
    let c := s.arg.core
    let k := s.arg.slot
    let ks := taskSlots (s.group c k) k
    let asked := ks.foldl (fun s j => s.setSlot c j { s.slot c j with preempt := some s.time }) s
    (∀ j ∈ ks, (s.slot c j).state = .active ∧ (s.slot c j).preempt = none) → (s.takeBlocks c ks).isSome = true → (s.group c k).ending = none →
    ((∃ j ∈ ks, (s.group c j).atPoint = false) →
      Leads .preemptRequest s fun t => ∀ j ∈ ks, (t.slot c j).state = .active ∧ (t.slot c j).preempt = some s.time) ∧
    ((∀ j ∈ ks, (s.group c j).atPoint = true ∧ (s.group c j).entering = false) → (asked.takeBlocks c ks).isSome = true →
      Leads .preemptRequest s fun t => ∀ j ∈ ks, (t.slot c j).state = .saving)) ∧
  (∀ s : State,
    let c := s.arg.core
    let k := s.arg.slot
    let ks := taskSlots (s.group c k) k
    (∀ j ∈ ks, (∃ t0, (s.slot c j).preempt = some t0 ∧ 4000 ≤ s.coreSince c t0) ∧ (s.slot c j).state = .active ∧
      (s.group c j).atBoundary = true ∧ (s.group c j).entering = false) →
    (s.group c k).ending = none → (s.takeBlocks c ks).isSome = true →
    Leads .preemptTimeout s fun t => ∀ j ∈ ks, (t.slot c j).state = .saving)

/-- R75, R86 and R96: SAVE_COMPLETE of a task whose slots are SAVING with nothing under way frees them and keeps their groups;
RESTORE_GROUP gives a saved task that can go on slots and blocks, RESTORING; RESTORE_COMPLETE makes the group that its save block holds
ACTIVE, or ends it where the block is invalid. -/
def Sys2Proof.Claims.SaveAndRestore : Prop :=
  (∀ (s u : State),
    let c := s.arg.core
    let k := s.arg.slot
    let ks := taskSlots (s.group c k) k
    (∀ j ∈ ks, (s.slot c j).state = .saving ∧ s.slotQuiet c j = true ∧ (s.group c j).servable = false) → s.reachBlocks c ks = (.present, u) →
    ((s.kernel (s.group c k).task.ktag).map (·.cancelled)).getD false = false →
    Leads .saveComplete s fun t => (∀ j ∈ ks, (t.slot c j).state = .free) ∧ (t.core c).saved.length = (s.core c).saved.length + ks.length ∧
      ∃ v ∈ (t.core c).saved, { v.group with unseen := (s.group c k).unseen } = s.group c k ∧ v.addr = (s.slot c k).saveAt.getD 0) ∧
  (∀ (s : State) (v : Saved) (ks : List Nat) (bs : List Block),
    let c := s.arg.core
    let all := s.restorable c
    let set := sortBy (fun a b => decide (a.group.task.quad.getD 0 ≤ b.group.task.quad.getD 0)) ((s.core c).savedSet v)
    all[s.arg.id % max 1 all.length]? = some v → ks.Nodup →
    s.chooseSlots c v.group.task.quad.isSome (fun k => classWants k v.group.vc v.group.tc v.group.ac 0) = some (ks, bs) →
    Leads .restoreGroup s fun t => ∀ k u, (k, u) ∈ ks.zip set →
      (t.slot c k).state = .restoring ∧ t.group c k = u.group ∧ .saved u.group u.addr u.size k ∈ (t.core c).binding) ∧
  (∀ (s w u : State) (g : Group) (a n : Nat),
    let c := s.arg.core
    let k := s.arg.slot
    let words := (u.readWords g.task.ctx a (n / 8)).1
    (s.slot c k).state = .restoring → taskSlots (s.group c k) k = [k] → s.regrant c [k] = some w → w.reachSaved c [k] = (true, u) →
    (u.core c).restoring k = some (g, a, n) →
    (blockBad words = false → Leads .restoreComplete s fun t => (t.slot c k).state = .active ∧ t.group c k = g.load words u.time) ∧
    (blockBad words = true → g.frames = [] → g.task.quad = none →
      Leads .restoreComplete s fun t => (t.slot c k).state = .draining))

/-- R236, R253 and R293: TASK_END of a draining task with nothing under way frees its slots, or, for a task that ran in place, gives the
slot back to its caller with the status in the s register named; a task to be relaunched leaves its record to the task unit, one that ran in
place has it staged again; an ending without a slot is completed. -/
def Sys2Proof.Claims.TasksEnd : Prop :=
  (∀ (s u : State),
    let c := s.arg.core
    let k := s.arg.slot
    let g := s.group c k
    let ks := endSlots g k
    s.arg.flag = false → (∀ j ∈ ks, (s.slot c j).state = .draining ∧ s.slotQuiet c j = true) → ks.head? = some k →
    s.endReady c k (s.taskEnding c ks) = (true, u) →
    (s.taskEnding c ks = .relaunch → g.frames = [] →
      Leads .taskEnd s fun t => (∀ j ∈ ks, (t.slot c j).state = .free) ∧
        ∃ r, (t.core c).relaunch = (s.core c).relaunch ++ [r] ∧ r.words = g.task.record ∧ r.relaunches = g.task.relaunches + 1) ∧
    (s.taskEnding c ks = .relaunch → ∀ f rest, g.frames = f :: rest → s.cancelling g.task.ktag = false → g.task.quad = none →
      Leads .taskEnd s fun t => (t.slot c k).state = .active ∧ (t.group c k).task = f.task ∧ (t.group c k).frames = rest ∧
        ∃ r, .record r [] ∈ (t.core c).binding ∧ r.words = g.task.record ∧ r.relaunches = g.task.relaunches + 1) ∧
    (s.taskEnding c ks ≠ .relaunch →
      (g.frames = [] → Leads .taskEnd s fun t => ∀ j ∈ ks, (t.slot c j).state = .free) ∧
      ∀ f rest, g.frames = f :: rest → s.cancelling g.task.ktag = false → g.task.quad = none → f.dest < 63 →
        Leads .taskEnd s fun t => (t.slot c k).state = .active ∧ (t.group c k).task = f.task ∧ (t.group c k).frames = rest ∧
          (t.group c k).sreg f.dest = BitVec.ofNat 64 (s.taskEnding c ks).status)) ∧
  (∀ (s u : State) (r : EndRec) (rest : List EndRec),
    let c := s.arg.core
    s.arg.flag = true → (s.core c).ends = r :: rest →
    s.futureReady c r.record.ctx (recFuture r.record.words) = (true, u) → Leads .taskEnd s fun t => (t.core c).ends = rest)

/-- Records bound and entered, and tasks ended. That a record which ran in place has its caller staged again (log entry 96), and how a task
ends that is on no slot (log entry 43), are the model's choices. -/
def Obligations.TasksEnterAndEnd : Prop :=
  Claims.BindAndEnter ∧ Claims.TasksEnd

/-- Compaction, parking, pre-emption, saving and restoring. -/
def Obligations.GroupsMoveAndPark : Prop :=
  Claims.Compaction ∧ Claims.ParkAndPreempt ∧ Claims.SaveAndRestore

end Groups

/-! ## Accesses on their way and at their homes (R174, R177, R192 to R205, R212 to R216, R219, R226, R227, R337 to R341, R346, R365) -/
namespace Sys2Proof.Claims
open Sys2Proof.Machine

/-- An access has been performed with a value. -/
def Performed (s t : State) (a : Access) (v : Nat) : Prop :=
  ∃ o b, t.opAt s.arg.op s.arg.acc = some (o, b) ∧ b.performed = true ∧ b.value = v ∧ b.held = false ∧ b.target = a.target

/-- The access that a step names is at its home and program order lets it be performed there, memory in its canonical form. -/
def Arrives (s : State) (o : MemOp) (a : Access) : Prop :=
  Memory.wf s.mem = true ∧ s.opAt s.arg.op s.arg.acc = some (o, a) ∧ s.mayPerform o s.arg.acc a = true ∧ a.size ≤ 8

/-- A load that a span with RME sends to a slice of its own die first is served there only from a replica (R338). -/
def AtItsSlice (s : State) (o : MemOp) (a : Access) : Prop :=
  o.kind = .load → s.atReplica a = true → s.replicaHere a (coreDie o.core) = true

/-- What the gate of the target answers to a group's access: the page resident, at a place; or absent; or gone (R337, R341). -/
def Gated (s : State) (o : MemOp) (a : Access) (write : Bool) (g : Gate) (u : State) : Prop :=
  (∀ r n ia, a.target ≠ .peer r n ia) ∧ s.gate a.target true write (some (coreDie o.core)) = (g, u)

/-- What slot m of a TRAP holds (R111): first the header, with the mask, the logical id, the code, the number of slots and the strand; then 8 lanes
to a slot, each active lane's four registers in increasing lane, the rest zero. -/
def SlotHolds (g : Group) (c k n : Nat) (w : Wait) (m v : Nat) : Prop :=
  v < 2 ^ 1024 ∧
  (m = 0 → v = w.lanes.toNat * 2 ^ 128 + g.task.id.toNat * 2 ^ 192 +
    (w.code + (1 + (ones w.lanes + 7) / 8) * 2 ^ 16 + c * 2 ^ 32 + k * 2 ^ 48 + n * 2 ^ 56) % 2 ^ 64 * 2 ^ 256) ∧
  (0 < m → ∀ j, j < 8 → v / 2 ^ (128 * j) % 2 ^ 128 =
    match ((List.range 64).filter fun l => w.lanes.getLsbD l)[8 * (m - 1) + j]? with
    | some l => (g.vreg w.vb l).toNat + (g.vreg (w.vb + 1) l).toNat * 2 ^ 32 + (g.vreg (w.vb + 2) l).toNat * 2 ^ 64 +
        (g.vreg (w.vb + 3) l).toNat * 2 ^ 96
    | none => 0)

/-- The slots of a TRAP from slot m on have been written, one after another, each a release at system scope (R111). -/
inductive RingWritten (c k n : Nat) (w : Wait) : Nat → State → State → Prop where
  | done (m : Nat) (s : State) : (ones w.lanes + 7) / 8 < m → RingWritten c k n w m s s
  | slot (m v : Nat) (s u t : State) (tgt : Target) : m ≤ (ones w.lanes + 7) / 8 → s.ringAt c k (w.slotPtr m) 128 false true = (.ok tgt, u) →
      SlotHolds (u.group c k) c k n w m v →
      RingWritten c k n w (m + 1) (u.storeAt tgt 128 v [{ agent := .group c (u.group c k).uid, scope := 7 }]) t → RingWritten c k n w m s t

/-- The slots of a TRAP from slot m on have been read back, one after another (R111). -/
inductive RingRead (c k : Nat) (w : Wait) : Nat → State → List Nat → State → Prop where
  | done (m : Nat) (s : State) : (ones w.lanes + 7) / 8 < m → RingRead c k w m s [] s
  | slot (m v : Nat) (s u x t : State) (tgt : Target) (l : List Nat) : m ≤ (ones w.lanes + 7) / 8 →
      s.ringAt c k (w.slotPtr m) 128 true false = (.ok tgt, u) → u.readT tgt 0 128 = (v, x) → RingRead c k w (m + 1) x l t →
      RingRead c k w m s (v :: l) t

end Sys2Proof.Claims

section Homes
open Sys2Proof Sys2Proof.Machine Sys2Proof.Claims

/-- R198, R177 and R219: LOAD_COMPLETE of a performed access writes its value to its destination, an s register, or its lane of the register
or pair named, and nothing else of the group's registers; STORE_ACKNOWLEDGE ends an access; an operation whose last access has ended
is done and forgotten. -/
def Sys2Proof.Claims.Completions : Prop :=
  (∀ (s : State) (o : MemOp) (a : Access),
    let g := s.group o.core o.slot
    s.opAt s.arg.op s.arg.acc = some (o, a) → o.kind.returns = true → o.kind ≠ .probe → a.performed = true → a.completed = false →
    s.acquireOpen o a = false →
    Leads .loadComplete s fun t =>
      let h := t.group o.core o.slot
      (∀ p, t.byteAt p = s.byteAt p) ∧ h.strands = g.strands ∧ h.pregs = g.pregs ∧
      (∀ d, o.dest = .uni d → h.sregs = (g.setS d (BitVec.ofNat 64 a.value)).sregs ∧ h.vregs = g.vregs) ∧
      (∀ d n, o.dest = .vec d n → h.sregs = g.sregs ∧ ∀ r l, l < 64 → r ≠ 63 → h.vreg r l =
        if l = a.lane ∧ r = d + a.reg then BitVec.ofNat 32 a.value
        else if l = a.lane ∧ r = d + a.reg + 1 ∧ (a.size = 8 ∨ (a.size = 0 ∧ n = 2)) then BitVec.ofNat 32 (a.value / 2 ^ 32)
        else g.vreg r l)) ∧
  (∀ (s : State) (o : MemOp) (a : Access),
    s.opAt s.arg.op s.arg.acc = some (o, a) → o.kind.returns = false → a.performed = true → a.completed = false →
    Leads .storeAcknowledge s fun t => (∀ p, t.byteAt p = s.byteAt p) ∧ (t.group o.core o.slot).sregs = (s.group o.core o.slot).sregs ∧
      (o.accs.all (fun b => b.completed) = false → o.accs.length = 1 →
        t.ops = s.ops.filter (fun p => p.id != o.id) ∧
        ∀ x ∈ (s.group o.core o.slot).outst, x.id = o.id → { x with done := true } ∈ (t.group o.core o.slot).outst))

/-- R177, R197, R202, R213 and R338: a load or store that arrives at its home with its page resident is performed: the load with the value of
its bytes there, six bits of a 6-bit element, its group having acquired all that its engines wrote (R203); the store with its bytes written
at the address of its access and every other byte as before. Where a registered line protects them the store is BARRIER_PROTECT; where the
page is absent the access waits; where it is gone its task takes LEASE_EXPIRED. A load at a slice without a replica goes on to its home. -/
def Sys2Proof.Claims.LoadsAndStoresAtHome : Prop :=
  (∀ (s u : State) (o : MemOp) (a : Access) (p : Option Place), Arrives s o a → o.kind = .load → AtItsSlice s o a →
    Gated s o a false (.go p) u →
    let w := u.settleAt a.target a.size
    (w.group o.core o.slot).unseen = [] → Leads .memoryRequestAtHome s fun t =>
      Performed s t a (let v := w.readVia a.target p a.size; if a.data = 0 then v else v % 2 ^ a.data) ∧
        ∀ r, t.byteAt r = w.byteAt r) ∧
  (∀ (s : State) (o : MemOp) (a : Access), Arrives s o a → o.kind = .load → (∀ r n ia, a.target ≠ .peer r n ia) → ¬AtItsSlice s o a →
    Leads .memoryRequestAtHome s fun t => (∀ r, t.byteAt r = s.byteAt r) ∧
      ∀ b q, t.opAt s.arg.op s.arg.acc = some (q, b) → b.performed = false ∧ b.goal = s.goalOf a.target) ∧
  (∀ (s u : State) (o : MemOp) (a : Access) (p : Option Place), Arrives s o a → o.kind = .store → Gated s o a true (.go p) u →
    let w := u.settleAt a.target a.size
    (u.lineAt a.target = none → Leads .memoryRequestAtHome s fun t => Performed s t a 0 ∧ Stored w t a.target p a.size a.data) ∧
    ((u.lineAt a.target).isSome = true →
      Machine.exec .memoryRequestAtHome s = .next ((u.countProtect a.target).accessFault o s.arg.acc a 0x0501))) ∧
  (∀ (s u : State) (o : MemOp) (a : Access), Arrives s o a → o.kind = .load ∨ o.kind = .store → AtItsSlice s o a →
    (Gated s o a (o.kind == .store) .wait u → Leads .memoryRequestAtHome s fun t =>
      ∀ b q, t.opAt s.arg.op s.arg.acc = some (q, b) → b.performed = false ∧ b.held = true) ∧
    (Gated s o a (o.kind == .store) .gone u → Machine.exec .memoryRequestAtHome s = .next (u.accessFault o s.arg.acc a 0x0405)))

/-- R204, R212, R219 and R221: an atomic that arrives alone at its home with its page resident, its place in the order log come, and its
line not protected from it, its sum not
wrapping on a registered line, reads its bytes and writes what the operation makes of them, as one step, and its value is what stood
there; a compare that fails writes nothing. -/
def Sys2Proof.Claims.AtomicsAtHome : Prop :=
  ∀ (s u v : State) (o : MemOp) (a : Access) (p : Option Place), Arrives s o a →
    o.kind = .cas ∨ o.kind = .xch ∨ (∃ n, o.kind = .atom n) ∨ (∃ n, o.kind = .amon n) → s.carried s.arg.op s.arg.acc = [] →
    Gated s o a true (.go p) u → u.atomLog o a = (true, v) → v.protects a.target (atomPermitted o.kind a.size (v.loc a.target 0 % 128)) = false →
    let w := v.settleAt a.target a.size
    let old := w.readVia a.target p a.size
    (o.kind = .atom 0 ∨ o.kind = .amon 0 → a.size = 8 → (v.lineAt a.target).isSome = true → old + a.data < 2 ^ 64) →
    Leads .atomicAtHome s fun t => Performed s t a old ∧
      (o.kind = .cas ∧ old ≠ a.cmp → ∀ r, t.byteAt r = w.byteAt r) ∧
      (¬(o.kind = .cas ∧ old ≠ a.cmp) → Stored w t a.target p a.size
        (match o.kind with
          | .atom 0 | .amon 0 => (old + a.data) % 2 ^ (8 * a.size)
          | .atom 1 | .amon 1 => homeFadd a.size old a.data
          | .atom 2 | .amon 2 => old &&& a.data
          | .atom 3 | .amon 3 => old ||| a.data
          | .atom 4 | .amon 4 => if sx (8 * a.size) a.data < sx (8 * a.size) old then a.data else old
          | .atom 5 | .amon 5 => if sx (8 * a.size) old < sx (8 * a.size) a.data then a.data else old
          | .atom 6 | .amon 6 => min old a.data
          | .atom _ | .amon _ => max old a.data
          | _ => a.data))

/-- R226 and R227: two mergeable packets that have left their groups and wait at one router become one; a deterministic add joins the
pending set of its location, performed, in its slice or in the context's spill area, with no byte written until it settles. -/
def Sys2Proof.Claims.AddsGather : Prop :=
  (∀ (s : State) (o q : MemOp) (a b : Access),
    s.opAt s.arg.op s.arg.acc = some (o, a) → s.opAt s.arg.op2 s.arg.acc2 = some (q, b) → (s.arg.op, s.arg.acc) ≠ (s.arg.op2, s.arg.acc2) →
    o.mergeable q = true → s.mayLeave o a = true → s.mayLeave q b = true → a.size = b.size → s.sameLoc a.target b.target = true → a.place = b.place →
    a.place ≠ a.goal → a.performed = false → b.performed = false → a.carrier = none → b.carrier = none →
    let both := s.packetOf s.arg.op s.arg.acc ++ s.packetOf s.arg.op2 s.arg.acc2
    o.kind ≠ .amon 1 ∨ both.length ≤ 4 → s.mayMerge both = true →
    Leads .routerMerge s fun t => (∃ x y, t.opAt s.arg.op2 s.arg.acc2 = some (x, y) ∧ y.carrier = some (s.arg.op, s.arg.acc) ∧ y.performed = false) ∧
      ∀ p, t.byteAt p = s.byteAt p) ∧
  (∀ (s u x : State) (o : MemOp) (a : Access) (p : Option Place), Arrives s o a → o.kind = .det → Gated s o a true (.go p) u →
    u.lineAt a.target = none → u.logMode (u.group o.core o.slot).task ≠ 2 →
    let home := u.homeOf a.target
    let here := u.sliceRoom o.ctx home
    (if here then (.present, u) else u.spillReach home.1 o.ctx) = (Reach.present, x) → x.logMode (x.group o.core o.slot).task ≠ 2 →
    Leads .deterministicAmonArrival s fun t => Performed s t a 0 ∧ (∀ r, t.byteAt r = x.byteAt r) ∧
      ∃ m, t.pending = x.pending ++ [m] ∧ m.target = a.target ∧ m.size = a.size ∧ m.task = o.task ∧ m.lane = a.lane ∧ m.ordinal = a.cmp ∧
        m.operand = a.data ∧ (m.die, m.slice) = home ∧ m.spilled = !here)

/-- R109, R211, R215, R224 and R251: a wait at its home is answered where the word has reached its value, else becomes an entry, or is
refused with 2,048 entries there and sent again after the die's retry time; a woken PARK or BWAIT goes on READY at its continuation
with status 0, or 1 where the barrier broke and no entry before it is still to be woken; where its read synchronises with a release of the word
its group sees all that its engines wrote (R203). -/
def Sys2Proof.Claims.WaitsOnWords : Prop :=
  (∀ (s u : State) (w : WaitReq) (p : Option Place) (c uid n : Nat),
    s.waits.find? (fun w => w.id == s.arg.id) = some w → w.stage = .sent → w.who = .strand c uid n → s.waitClear w = true →
    (∀ r m ia, w.target ≠ .peer r m ia) → s.gate w.target true false (some (coreDie c)) = (.go p, u) →
    let x := (u.settleAt w.target 8).readT w.target 0 8
    let stage := if w.value ≤ x.1 then WaitStage.woken x.1 false
      else if x.2.entriesAt (x.2.homeOf w.target) < 2048 then .entry else .refused
    Leads .waitRequestAtHome s fun t => ∃ y, t.waits.find? (fun y => y.id == s.arg.id) = some y ∧ y.stage = stage ∧ y.who = w.who) ∧
  (∀ (s : State) (w : WaitReq), s.waits.find? (fun w => w.id == s.arg.id) = some w → w.stage = .refused → s.retryTime w.who ≤ s.coreSince w.who.core w.since →
    Leads .waitRequestRetry s fun t => ∃ y, t.waits.find? (fun y => y.id == s.arg.id) = some y ∧ y.stage = .sent ∧ y.who = w.who) ∧
  (∀ (s : State) (w : WaitReq) (c k uid n v : Nat) (broken : Bool),
    s.waits.find? (fun w => w.id == s.arg.id) = some w → w.who = .strand c uid n → w.stage = .woken v broken → s.slotOfGroup c uid = some k →
    let g := s.group c k
    let x := g.strand n
    x.state = .waiting → x.wait.kind = .park ∨ x.wait.kind = .bwait → (broken = true → s.wakeBehind w = false) →
    Leads .wake s fun t => (t.group c k).sregs = (g.setS x.wait.dest (if broken then 1 else 0)).sregs ∧
      ((t.group c k).strand n).state = .ready ∧ ((t.group c k).strand n).pc = x.wait.cont ∧
      t.waits = s.waits.filter (fun y => y.id != w.id) ∧ (t.group c k).vregs = g.vregs ∧
      ((w.heard.any fun r => r.includes (.group c g.uid) w.scope) = true → (t.group c k).unseen = []))

/-- R251 and R111: a woken JOIN reads the status word behind its future's counter, which goes to its s register, and the strand goes on; while that
word's page is not ready it waits on. A woken TRAP for which the ring has room writes its slots, each a release at system scope, sends the notice and
waits for the done counter; one whose done counter was reached reads the slots back: each of its lanes finds its block in vB to vB+3, the header's
status goes to its s register, and the strand goes on. -/
def Sys2Proof.Claims.JoinAndTrapGoOn : Prop :=
  ∀ (s : State) (w : WaitReq) (c k uid n v : Nat),
    s.waits.find? (fun w => w.id == s.arg.id) = some w → w.who = .strand c uid n → w.stage = .woken v false → s.slotOfGroup c uid = some k →
    let g := s.group c k
    let x := g.strand n
    let a := s.acquireWait c k w
    let goesOn (t : State) : Prop := ((t.group c k).strand n).state = .ready ∧ ((t.group c k).strand n).pc = x.wait.cont ∧ ∀ y ∈ t.waits, y.id ≠ w.id
    x.state = .waiting →
    (x.wait.kind = .join → ∀ (tgt : Target) (u : State), s.wholeTarget c k g.task ((x.wait.addr.toNat + 8) % 2 ^ 64) = some tgt →
      (∀ r m ia, tgt ≠ .peer r m ia) →
      (∀ p, a.gate tgt true false (some (coreDie c)) = (.go p, u) →
        Leads .wake s fun t => goesOn t ∧
          (t.group c k).sregs = (g.setS x.wait.dest (BitVec.ofNat 64 ((u.settleAt tgt 8).readT tgt 0 8).1)).sregs ∧ (t.group c k).vregs = g.vregs) ∧
      (a.gate tgt true false (some (coreDie c)) = (.wait, u) → Leads .wake s fun t => (t.group c k).strand n = x ∧ w ∈ t.waits)) ∧
    (x.wait.kind = .trap → x.wait.phase = 0 → w.id < s.nextId → ∀ (u : State) (tgt : Target), RingWritten c k n x.wait 0 a u →
      u.wholeTarget c k g.task (x.wait.slotPtr 0) = some tgt →
      let note := u.notice { addr := x.wait.addr - 24, num := x.wait.head.toNat, ctx := g.task.ctx, kind := 1 }
      Leads .wake s fun t => (∀ p, t.byteAt p = note.byteAt p) ∧ t.notices = note.notices ∧ ((t.group c k).strand n).state = .waiting ∧
        ((t.group c k).strand n).wait.phase = 1 ∧ (t.group c k).sregs = g.sregs ∧ (t.group c k).vregs = g.vregs ∧ (∀ y ∈ t.waits, y.id ≠ w.id) ∧
        ∃ y ∈ t.waits, y.who = w.who ∧ y.target = tgt ∧ y.value = 1 ∧ y.stage = .sent ∧ y.scope = 7) ∧
    (x.wait.kind = .trap → x.wait.phase ≠ 0 → x.wait.vb + 4 ≤ 63 → ∀ (u : State) (header : Nat) (slots : List Nat),
      RingRead c k x.wait 0 a (header :: slots) u →
      let at' (l : Nat) : Nat := ((List.range l).filter fun m => x.wait.lanes.getLsbD m).length
      Leads .wake s fun t => goesOn t ∧ (t.group c k).sregs = (g.setS x.wait.dest (BitVec.ofNat 64 (header / 2 ^ 64))).sregs ∧
        ∀ r l, l < 64 → (t.group c k).vreg r l =
          if x.wait.vb ≤ r ∧ r < x.wait.vb + 4 ∧ x.wait.lanes.getLsbD l = true then
            BitVec.ofNat 32 (slots.getD (at' l / 8) 0 / 2 ^ (128 * (at' l % 8) + 32 * (r - x.wait.vb)))
          else g.vreg r l)

/-- R174: DESCRIPTOR_FETCH of a strand that still stands at its instruction brings the 64 bytes into the core's cache, from where the spans lead that
the core held as the instruction asked for it (R330). -/
def Sys2Proof.Claims.DescriptorsArrive : Prop :=
  ∀ (s u : State) (f : Fetch) (tgt : Target),
    let c := s.arg.core
    let k := s.arg.slot
    let g := s.group c k
    (s.core c).fetches.find? (fun f => f.slot == k && f.strand == s.arg.strand) = some f → (s.slot c k).state = .active →
    (g.strand s.arg.strand).pc = f.pc → s.heldTarget f.spans c k g.task f.ptr = some tgt → (∀ r n ia, tgt ≠ .peer r n ia) →
    s.serve tgt true false c = (Served.done, u) → ((u.settleAt tgt 64).core c).desc.length < 64 →
    let v := ((u.settleAt tgt 64).readT tgt 0 64).1
    Leads .descriptorFetch s fun t => (∃ e ∈ (t.core c).desc, e.ctx = g.task.ctx ∧ e.addr = descKey k f.ptr ∧ e.words = natWords v 8) ∧
      (∀ y ∈ (t.core c).fetches, y ≠ f) ∧ (t.group c k).strands = g.strands

/-- R183, R324, R325, R329, R346 and R365 for the requests of CINV, CWB, PROBE, EVENT and PUBLISH at work: each is performed. CINV.desc drops the
entries of its core's descriptor cache that meet the range; CINV and CWB of a range of global space, found by the spans of their issue (R330), write
its dirty bytes back, so that every byte reads as before and none of the range is dirty, and leave every other dirty byte and every registered line.
EVENT writes its record, of kind 4, as a fault's is written, or is dropped at a full queue. A publication leaves no host byte held and adds 1 to its
window's version word. -/
def Sys2Proof.Claims.UnitRequests : Prop :=
  ∀ (s : State) (o : MemOp) (a : Access), Arrives s o a →
    (∀ n, o.kind = .cache n → Leads .memoryRequestAtHome s fun t => Performed s t a 0) ∧
    (o.kind = .cache 1 →
      let va := (o.words.getD 0 0).toNat
      let n := (o.words.getD 1 0).toNat
      Leads .memoryRequestAtHome s fun t => (∀ r, t.byteAt r = s.byteAt r) ∧
        ∀ e, e ∈ (t.core o.core).desc ↔ e ∈ (s.core o.core).desc ∧ ¬(e.ctx = o.ctx ∧ e.addr < va + n ∧ va < e.addr + 64)) ∧
    (∀ n, o.kind = .cache n → n ≠ 1 → s.pending = [] → (s.l2.map (·.1)).Nodup → ptrSpace (o.words.getD 0 0).toNat = 0 →
      let r := lineRange (o.words.getD 0 0).toNat (o.words.getD 1 0).toNat
      let hit (key : Nat) : Prop := key / 2 ^ 56 = o.ctx ∧ s.rangeHolds o.spans o.ctx (r.1 % 2 ^ 60) r.2 (key % 2 ^ 56) = true
      Leads .memoryRequestAtHome s fun t => (∀ key c, t.byteAt (.line key c) = s.byteAt (.line key c)) ∧
        (∀ x, x ∈ t.l2 ↔ x ∈ s.l2 ∧ ¬hit x.2.1) ∧ t.lines = s.lines) ∧
    (o.kind = .event → (s.ctx o.ctx).recsWaiting = [] → s.faultFull o.ctx = false → ∀ u, s.reach o.ctx (s.faultPlace o.ctx) 64 true = (.present, u) →
      let task := (s.group o.core o.slot).task
      let r : FaultRec :=
        { code := 0x0F00 + (o.words.getD 2 0).toNat, kind := 4, core := o.core, slot := o.slot, strand := o.strand
          region := s.regionOf task.ktag, ktag := task.ktag, task := task.id, pc := o.pc, addr := o.words.getD 0 0, info := o.words.getD 1 0 }
      let x := u.writeRecord o.ctx r
      Leads .memoryRequestAtHome s fun t => Performed s t a 0 ∧ (∀ q, t.byteAt q = x.byteAt q) ∧ t.mgmt = x.mgmt ∧ t.contexts = x.contexts) ∧
    (o.kind = .probe → Leads .memoryRequestAtHome s fun t =>
      Performed s t a ((o.words.getD 1 0).toNat + (s.probePage o.ctx (o.words.getD 0 0).toNat (s.group o.core o.slot).task.det).1)) ∧
    (o.kind = .event → (s.ctx o.ctx).recsWaiting = [] → s.faultFull o.ctx = true →
      Leads .memoryRequestAtHome s fun t => Performed s t a 0 ∧ ∀ r, t.byteAt r = s.byteAt r) ∧
    (o.kind = .publish → s.held = [] →
      let n := (o.words.getD 0 0).toNat
      let at' := hostCell (s.fld (.hwCtl n) 38 38) (s.reg (.hwVer n)).toNat
      Leads .memoryRequestAtHome s fun t => Performed s t a 0 ∧ t.held = [] ∧
        Memory.read t.mem at' 8 = (Memory.read s.mem at' 8 + 1) % 2 ^ 64)

/-- Accesses performed at their homes, and their completions. -/
def Obligations.AccessesAtHome : Prop :=
  Claims.Completions ∧ Claims.LoadsAndStoresAtHome

/-- Atomics at their homes, merged and gathered. That a deterministic add which spills writes no byte and stays in State.pending is the model's
choice (log entry 30). -/
def Obligations.AtomicsServed : Prop :=
  Claims.AtomicsAtHome ∧ Claims.AddsGather

/-- Waits on words, descriptor fetches, and the requests of other units. -/
def Obligations.WaitsAndRequestsAtHome : Prop :=
  Claims.WaitsOnWords ∧ Claims.JoinAndTrapGoOn ∧ Claims.DescriptorsArrive ∧ Claims.UnitRequests

end Homes

/-! ## The copy engine and the tile engine at work (R184 to R190, R263 to R295) -/
namespace Sys2Proof.Claims
open Sys2Proof.Machine

/-- Element (i, j) of an accumulator (R264). -/
def accElem (a : Accum) (i j : Nat) : Word := a.list.getD (64 * i + j) 0

/-- The bytes of a tile's data and of its strip as little-endian numbers (R263). -/
def dataOf (t : Tile) : Nat := bankNat t.data 4096
/-- The strip. -/
def stripOf (t : Tile) : Nat := bankNat t.strip 256

/-- The operation that a step names has run its time on its unit (R267), whose watchdog has not passed (R294). -/
def Ripe (s : State) (o : TileOp) (kind : TileKind) : Prop :=
  (s.core s.arg.core).tileOps.find? (fun o => o.id == s.arg.op) = some o ∧ o.kind = kind ∧ o.started = true ∧
    2 * kind.cycles ≤ s.coreSince s.arg.core o.startedAt ∧ s.engineHung s.arg.core = false

/-- A load or store of the memory path has still all of its box to move, and the turn moves all of it (R267). -/
def Unmoved (s : State) (o : TileOp) : Prop := s.arg.flag = false ∧ s.arg.size = 0 ∧ o.moved = 0 ∧ o.value = 0

/-- It has left the engine, done in its group's count (R92), and no other group of the part and no byte of storage has changed. -/
def Left (s t : State) (o : TileOp) : Prop :=
  (t.core s.arg.core).tileOps = (s.core s.arg.core).tileOps.filter (fun p => p.id != o.id) ∧
    (∀ x ∈ (s.group s.arg.core o.slot).outst, x.id = o.id → { x with done := true } ∈ (t.group s.arg.core o.slot).outst) ∧
    (∀ d k, ¬(d = s.arg.core ∧ k = o.slot) → t.group d k = s.group d k) ∧ ∀ p, t.byteAt p = s.byteAt p

/-- TILE_OP_COMPLETE ends the operation and leaves an accumulator whose elements are a function's, its sparsity slot as it was; every other
register is as before. -/
def Accumulates (s : State) (o : TileOp) (a : Nat) (f : Nat → Nat → Word → Word) : Prop :=
  let g := s.group s.arg.core o.slot
  Leads .tileOpComplete s fun t =>
    let h := t.group s.arg.core o.slot
    Left s t o ∧ (h.accum a).slot = (g.accum a).slot ∧ h.tiles = g.tiles ∧ h.vregs = g.vregs ∧ h.sregs = g.sregs ∧
    (∀ b, b ≠ a → h.accum b = g.accum b) ∧ ∀ i j, i < 64 → j < 64 → accElem (h.accum a) i j = f i j (accElem (g.accum a) i j)

/-- It leaves values in the lanes of a vector register that were active at issue; every other register is as before. -/
def Vectors (s : State) (o : TileOp) (d : Nat) (f : Nat → Word → Prop) : Prop :=
  let g := s.group s.arg.core o.slot
  Leads .tileOpComplete s fun t =>
    let h := t.group s.arg.core o.slot
    Left s t o ∧ h.accums = g.accums ∧ h.tiles = g.tiles ∧ h.sregs = g.sregs ∧
    ∀ r l, l < 64 → (r = d ∧ o.em.getLsbD l = true → f l (h.vreg r l)) ∧ (¬(r = d ∧ o.em.getLsbD l = true) → h.vreg r l = g.vreg r l)

end Sys2Proof.Claims

section Engines
open Sys2Proof Sys2Proof.Machine Sys2Proof.Claims

/-- R184, R187, R190 and R279: a segment whose turn has come, whose source bytes can be read and whose destination can be written lands with
those bytes, the L2 having room for them (R16); a command ends with its last segment. MDLD's bytes land in its accumulator's sparsity slot alone,
all in one turn. Of another command a turn of fewer bytes, which is the model's own (log entry 94), reads those, and writes none before the
segment's last has been read. -/
def Sys2Proof.Claims.SegmentsLand : Prop :=
  ∀ (s u : State) (cmd : CopyCmd) (g : Segment) (v k n : Nat) (pc : DWord) (op : Nat),
    let c := s.arg.core
    let x := s.group c k
    (s.core c).cmds.find? (fun d => d.id == s.arg.id) = some cmd → cmd.segs[s.arg.acc]? = some g → g.landed = false →
    cmd.owner = .group k n pc op → s.arg.flag = false → (s.core c).segTurn cmd.id s.arg.acc = true → s.mdldWaits c k cmd = false →
    let whole := s.arg.size = 0 ∨ cmd.rowsWhole = true
    let m := if s.arg.size = 0 ∨ cmd.rowsWhole = true then g.size - g.got else min s.arg.size (g.size - g.got)
    g.got < g.size → s.segRead c cmd g g.got m = (Served.done, v, u) →
    let u' := u.onCmd c cmd.id fun d => { d with segs := d.segs.modify s.arg.acc fun _ =>
      { g with got := g.got + m, bytes := g.bytes + v * 2 ^ (8 * g.got) } }
    (¬whole → Machine.exec .copySegment s = .next u') ∧
    (whole → g.got = 0 → g.put = 0 → g.bytes = 0 → g.kept = false →
    let ends (t : State) : Prop := cmd.segs = [g] → (t.core c).cmds = (s.core c).cmds.filter (fun d => d.id != cmd.id) ∧
      ∀ y ∈ x.outst, y.id = op → { y with done := true } ∈ (t.group c k).outst
    (∀ w y : State, (∀ a, cmd.kind ≠ .slot a) → cmd.barrier = none →
      let find := State.cmdFind c k cmd
      u'.destReady find true c (rangePieces (g.size / 65536 + 2) g.dst.toNat g.size) = (Served.done, w) →
      w.destRoom find (rangePieces (g.size / 65536 + 2) g.dst.toNat g.size) = true →
      w.writeLines find (linePieces (g.size / 128 + 2) g.dst.toNat g.size) (v % 2 ^ (8 * g.size)) = (false, y) →
      Leads .copySegment s fun t => ends t ∧ (∀ p, t.byteAt p = y.byteAt p) ∧ (t.group c k).sregs = x.sregs ∧ (t.group c k).vregs = x.vregs) ∧
    (∀ a, cmd.kind = .slot a →
      Leads .copySegment s fun t => ends t ∧ (∀ p, t.byteAt p = u.byteAt p) ∧ ((t.group c k).accum a).elems = (x.accum a).elems ∧
        ∀ b, Bank.lookD ((t.group c k).accum a).slot b 0 =
          if g.dst.toNat ≤ b ∧ b < g.dst.toNat + g.size then BitVec.ofNat 8 (v / 256 ^ (b - g.dst.toNat))
          else Bank.lookD (x.accum a).slot b 0))

/-- R185, R188 and R189: the engine reads the next entry of a list, and one whose words and pointers are right starts a copy with the
entry's destination, source, size and scope, or the scope of its KICK where it names none; a write of the kick register with a count starts
a list on an idle core, and on a busy one only sets the error bit; a count of zero does nothing. -/
def Sys2Proof.Claims.CopyLists : Prop :=
  (∀ (s u w : State) (l : CopyList) (tgt : Target) (v a : Nat),
    let c := s.arg.core
    let p := (l.base.toNat + 32 * l.next) % 2 ^ 64
    let x := s.listGroup c l
    (s.core c).lists.find? (fun y => y.id == s.arg.id) = some l → l.stopped = false → l.next < l.count →
    s.ptrStep c x.1 (s.leaseSet x.1.task) { size := 32, align := 32, rd := true, whole := true, leased := x.2.2 } p = 0 →
    s.heldTarget l.spans c x.2.1 x.1.task p = some tgt → s.serve tgt x.2.2 false c = (Served.done, u) → (u.settleAt tgt 32).fetchT tgt 32 = (v, w) →
    entryCode v = 0 → w.entryPtrs c (w.listGroup c l).1 x.2.2 v = (0, a) → l.running = [] → v / 2 ^ 128 % 2 ^ 32 ≠ 0 →
    let segs := segments (v % 2 ^ 64) (v / 2 ^ 64 % 2 ^ 64) (v / 2 ^ 128 % 2 ^ 32)
    (w.piecesIn (fun (s : State) p => s.heldTarget l.spans c x.2.1 (w.listGroup c l).1.task p) (cmdRanges .range segs)).any
      (fun y => w.pageAwaits y.1 y.2) = false →
    Leads .copyListEntry s fun t => ∃ d, (t.core c).cmds = (w.core c).cmds ++ [d] ∧ d.owner = .kick l.id ∧ d.kind = .range ∧ d.segs = segs ∧
      d.scope = (if v / 2 ^ 164 % 8 = 0 then l.scope else v / 2 ^ 164 % 8) ∧ d.barrier = (if v.testBit 160 then some (BitVec.ofNat 64 (v / 2 ^ 192)) else none) ∧
      { l with next := l.next + 1, running := [d.id] } ∈ (t.core c).lists) ∧
  (∀ s : State,
    let c := s.arg.core
    let n := s.arg.v.toNat % 2 ^ 16
    (n = 0 → Machine.exec .cpeKick s = .next s) ∧
    (n ≠ 0 → s.fld (.cpeStat c) 0 0 = 1 → Machine.exec .cpeKick s = .next (s.setFld (.cpeStat c) 2 2 1)) ∧
    (n ≠ 0 → s.fld (.cpeStat c) 0 0 ≠ 1 → Leads .cpeKick s fun t => ∃ l, (t.core c).lists = (s.core c).lists ++ [l] ∧ l.owner = .regs ∧
      l.count = n ∧ l.base = s.reg (.cpeList c) ∧ l.ctx = s.arg.v.toNat / 2 ^ 16 % 64 ∧ t.fld (.cpeStat c) 0 0 = 1))

/-- R267 and R280: an operation that depends on nothing open, first on a free unit, starts; one that has run its time ends. TZERO, TLD and
TCVT write their tile: zeros; the box's bytes in the data or the strip, turned with .t, or its s4 conversion; each element converted
in its place. TST writes its tile's bytes to the box. -/
def Sys2Proof.Claims.TileRegistersWritten : Prop :=
  (∀ (s : State) (o : TileOp),
    (s.core s.arg.core).tileOps.find? (fun o => o.id == s.arg.op) = some o → (s.core s.arg.core).startsNext o = true →
    Leads .tileOpStart s fun t => ∃ p, (t.core s.arg.core).tileOps.find? (fun o => o.id == s.arg.op) = some p ∧ p.started = true ∧
      p.startedAt = s.time ∧ p.kind = o.kind ∧ p.em = o.em) ∧
  (∀ (s : State) (o : TileOp) (n : Nat),
    let c := s.arg.core
    let k := o.slot
    let g := s.group c k
    (Ripe s o (.tzero n) → Leads .tileOpComplete s fun t => Left s t o ∧ (∀ i, ((t.group c k).tile n).line i = 0) ∧
      (∀ i, ((t.group c k).tile n).scale i = 0) ∧ ∀ m, m ≠ n → (t.group c k).tile m = g.tile m) ∧
    (∀ (d : List DWord) (origin : List Int) (tr s4 strip : Bool) (v : Nat) (u : State),
      let e := wordsNat d
      Ripe s o (.tld n d origin tr s4 strip) → Unmoved s o →
      s.boxRead (State.opFind c o) c e origin (descCount e) 0 = (Served.done, v, u) →
      Leads .tileOpComplete s fun t =>
        let y := (t.group c k).tile n
        (s4 = true → y = s4Tile e v) ∧ (s4 = false → strip = true → stripOf y = v % 2 ^ 2048 ∧ y.data = (g.tile n).data) ∧
        (s4 = false → strip = false → dataOf y = (if tr then turned e v else v) % 2 ^ 32768 ∧ y.strip = (g.tile n).strip) ∧
        ∀ m, m ≠ n → (t.group c k).tile m = g.tile m) ∧
    (∀ (d : List DWord) (origin : List Int) (tr strip : Bool) (u : State),
      let e := wordsNat d
      Ripe s o (.tst n d origin tr strip) → Unmoved s o →
      s.boxReady (State.opFind c o) c e origin (List.range (descCount e)) = (Served.done, u) →
      u.boxRoom (State.opFind c o) e origin (List.range (descCount e)) = true →
      Leads .tileOpComplete s fun t => t.group c k = { g with outst := (t.group c k).outst, unseen := (t.group c k).unseen } ∧ ∀ p, t.byteAt p =
        (u.boxWrite (State.opFind c o) e origin
          (if strip then stripOf (g.tile n) else if tr then unturned e (dataOf (g.tile n)) else dataOf (g.tile n))
          (List.range (descCount e))).byteAt p) ∧
    (∀ (a ty hi mode : Nat) (tr sat : Bool), 6 ≤ ty → ty ≤ 12 → hi ≤ 1 → Ripe s o (.tcvt n a ty hi tr mode sat) →
      let el (i j : Nat) : Nat := (convert (Ty.ofCode ty) { mode := mode, sat := sat }
        (.flt (f32.value (if tr then accElem (g.accum a) j i else accElem (g.accum a) i j).toNat))).1
      Leads .tileOpComplete s fun t => Left s t o ∧ ((t.group c k).tile n).strip = (g.tile n).strip ∧ ∀ i p, i < 64 →
        let z := lineElem ty (((t.group c k).tile n).line i) p
        (ty ≤ 7 → p < 32 → z = el i (32 * hi + p)) ∧ (8 ≤ ty → ty ≤ 11 → p < 64 → z = el i p) ∧
        (ty = 12 → p < 64 → lineElem ty (((t.group c k).tile n).line i) (64 * hi + p) = el i p)))

/-- R277, R278, R280, R285, R286 and R287: MMA adds to each element of its accumulator the products of its row of A and its column of B, in
chunks; MMAQ takes its columns from the four groups' tiles; MMAS those that the metadata choose; ASCALE and AEXP change the rows of the
lanes active at issue; AZERO writes zeros. MMAS with invalid metadata writes nothing and is METADATA. -/
def Sys2Proof.Claims.AccumulatorsWritten : Prop :=
  ∀ (s : State) (o : TileOp) (a : Nat),
    let c := s.arg.core
    let g := s.group c o.slot
    (∀ (x y tx ty : Nat) (mx : Bool), Ripe s o (.mma a x y tx ty mx) →
      Accumulates s o a fun i j w => mulElem tx ty mx w ((g.tile x).vector tx i) ((g.tile y).vector ty j)) ∧
    (∀ (x y tx ty n : Nat) (mx : Bool), Ripe s o (.mmaq a x y tx ty mx n) →
      Accumulates s o a fun i j w => mulElem tx ty mx w ((g.tile x).vector tx i) ((o.held.getD (j / 16) {}).vector ty j)) ∧
    (∀ (x y tx ty : Nat) (mx : Bool), Ripe s o (.mmas a x y tx ty mx) →
      let slot := bankNat o.slotBytes 2048
      (slotValid slot (lineCount tx) = true →
        Accumulates s o a fun i j w =>
          let row := sparseRow (g.tile x) slot tx i
          mulElem tx ty mx w row.1 ((sparseColumn (g.tile y) (g.tile (y + 1)) ty j).pick row.2)) ∧
      (slotValid slot (lineCount tx) = false →
        Machine.exec .tileOpComplete s = .next (((s.tileDone c o).bump (.tleStat c) 47 32 1).takeFault c o.slot o.strand o.pc
          { code := 0x0702, kind := 2, mask := o.em }))) ∧
    (∀ v : Lanes, Ripe s o (.ascale a v) → Accumulates s o a fun i _ w => if o.em.getLsbD i then ascaleElem w (v.at i) else w) ∧
    (∀ (v : Lanes) (kap : Word), Ripe s o (.aexp a v kap) →
      Accumulates s o a fun i _ w => if o.em.getLsbD i then aexpElem w kap (v.at i) else w) ∧
    (Ripe s o (.azero a) → Accumulates s o a fun _ _ _ => 0)

/-- R283, R284 and R288: ARD copies a column of an accumulator to the lanes active at issue, AROW reduces each row, and SCOUT gives each lane
the best of its query line's scaled dot products. -/
def Sys2Proof.Claims.EngineVectors : Prop :=
  ∀ (s : State) (o : TileOp) (d : Nat),
    let g := s.group s.arg.core o.slot
    d < 63 →
    (∀ a col, col < 64 → Ripe s o (.ard a col d) → Vectors s o d fun l w => w = accElem (g.accum a) l col) ∧
    (∀ a op, Ripe s o (.arow a op d) → Vectors s o d fun l w =>
      w = BitVec.ofNat 32 (rowReduce op ((List.range 64).map fun j => accElem (g.accum a) l j))) ∧
    (∀ q k x, Ripe s o (.scout q k x d) → Vectors s o d fun l w =>
      w = scoutBits (scoutBest (f32.value x.toNat) (s4Line (g.tile q) l) (s4Scale (g.tile q) l)
        ((List.range 64).map fun j => (s4Line (g.tile k) j, s4Scale (g.tile k) j))))

/-- R266, R292, R293, R294 and R295: the watchdog resets an engine that has completed nothing for its period, and only then; a scrubbed
block is free; a lease that is over or a refusal met in an operand's read relaunches its task or ends it, an uncorrectable error ends it; a
relaunched record goes to the cold end of the deque. -/
def Obligations.EngineRecovery : Prop :=
  (∀ s : State,
    let c := s.arg.core
    let w := s.fld (.tleCfg c) 31 0
    let hangs := w ≠ 0 ∧ (∃ o ∈ (s.core c).tileOps, o.started = true) ∧ 2 * w ≤ s.coreSince c (s.core c).lastTile
    (hangs → Leads .engineWatchdog s fun t => (t.core c).tileOps = []) ∧ (¬hangs → Machine.exec .engineWatchdog s = .next s)) ∧
  (∀ s : State, Leads .blockScrubDone s fun t =>
    let gone (b : Block) : Prop := b.cls = s.arg.code ∧ b.base = s.arg.addr ∧ b.state = .scrub
    ∀ b, b ∈ (t.core s.arg.core).blocks ↔ b ∈ (s.core s.arg.core).blocks ∧ ¬gone b) ∧
  (∀ (s : State) (k n : Nat) (pc : DWord) (f : Flt) (peer : Bool),
    let c := s.arg.core
    let g := s.group c k
    s.fetchCode c s.arg.op = some (k, n, pc, f, peer) → g.faulted = false → g.frames = [] → g.task.quad = none → g.ending = none →
    (s.arg.code = 0x0802 → (s.core c).binding = [] →
      Leads .tileFetchFault s fun t => (t.slot c k).state = .draining ∧ (t.group c k).ending = some (.failed 0x0802)) ∧
    (s.arg.code = f.code → f.code = 0x0405 ∨ f.code = 0x0403 → s.relaunches c g = true → Leads .tileFetchFault s fun t => (t.slot c k).state = .draining ∧ (t.group c k).ending = some .relaunch) ∧
    (s.arg.code = f.code → f.code = 0x0405 ∨ f.code = 0x0403 → s.relaunches c g = false → s.policyOf g = 0 ∨ s.policyOf g = 2 →
      Leads .tileFetchFault s fun t => (t.slot c k).state = .draining ∧ (t.group c k).ending = some (.failed f.code))) ∧
  (∀ (s : State) (r : Rec) (rest : List Rec),
    let x := s.core s.arg.core
    x.relaunch = r :: rest → x.deque.length < 512 →
    Leads .relaunchPush s fun t => (t.core s.arg.core).deque = r :: x.deque ∧ (t.core s.arg.core).relaunch = rest)

/-- The copy engine at work. That an entry with scope code 0 takes its KICK's scope (log entry 95), and that a turn may land fewer bytes than
a segment has (log entry 94), are the model's choices. -/
def Obligations.CopiesLand : Prop :=
  Claims.SegmentsLand ∧ Claims.CopyLists

/-- The tile engine at work, said with the model's own functions mulElem, s4Tile and scoutBits. TLD.s4 with strip (log entry 25), the start from
which MMAQ holds its B tiles (log entry 48) and SCOUT's estimate of zero (log entry 32) are the model's choices. -/
def Obligations.TileEngineResults : Prop :=
  Claims.TileRegistersWritten ∧ Claims.AccumulatorsWritten ∧ Claims.EngineVectors

end Engines

/-! ## The task unit at work (R231, R235, R238 to R245, R250, R254, R340 to R342) -/
section TaskUnit
open Sys2Proof Sys2Proof.Machine Sys2Proof.Claims

/-- R238, R241, R313 and R314: a record of the staging window with operands enters STAGING; its next slot's box becomes a copy command of
the staging engine; with every slot written and its lease held it is STAGED, and a root record enters its core's inbound queue ahead of
all others, its kernel RUNNING with one live task; a fault of its staging fails its future with the code. That the fault meets its region's policy as a
task's does is the model's choice (log entry 56). -/
def Sys2Proof.Claims.Staging : Prop :=
  ∀ (s : State) (r : Rec),
    let c := s.arg.core
    let x := s.core c
    let id := s.arg.id
    x.recOf id = some r →
    ((s.stageWindow c).contains id = true → r.state = .pushed → recOperands r.words ≠ [] →
      Leads .stagingStart s fun t => ∃ r', (t.core c).recOf id = some r' ∧ r'.state = .staging ∧ r'.toStage = recOperands r.words ∧
        r'.words = r.words) ∧
    (∀ (u : State) (d : Nat), r.state = .staging → s.stageTurn c r = true → s.stageLook c r (r.toStage.headD 0) = (.ready d, u) →
      let kind : CopyKind := .box (natWords d 8) (List.replicate 5 0)
      let segs := segments (stageDst (recSlot r.words (r.toStage.headD 0))) 0 (descBytes d)
      (u.piecesIn (fun (s : State) p => s.wholeTarget c 64 (r.task none) p) (cmdRanges kind segs)).any
        (fun y => u.pageAwaits y.1 y.2) = false →
      Leads .stagingStart s fun t => ∃ m, (t.core c).cmds = x.cmds ++ [m] ∧ m.owner = .staging r.id ∧ m.kind = kind ∧ m.segs = segs ∧ m.ctx = r.ctx) ∧
    (r.toStage = [] → r.leaseHeld = true → r.state = .staging → ¬(r.root = true ∧ x.bindSlots id = some []) →
      Leads .stagingComplete s fun t => ∃ r', (t.core c).recOf id = some r' ∧ r'.state = .staged ∧ r'.words = r.words) ∧
    (∀ (u : State) (k : Kernel), r.toStage = [] → r.leaseHeld = true → r.root = true → x.bindSlots id = some [] →
      s.futureReady c r.ctx (recFuture r.words) = (true, u) → s.kernel r.ktag = some k → k.tag = r.ktag → k.cancelHeld = false →
      Leads .stagingComplete s fun t => (∃ r' rest, (t.core c).inbound = r' :: rest ∧ r'.words = r.words ∧ r'.ktag = r.ktag) ∧
        ∃ k', t.kernel r.ktag = some k' ∧ k'.state = .running ∧ k'.live = 1) ∧
    (∀ (code : Nat) (a : DWord), r.root = false → s.stageFault c r = some (code, a) → s.recPolicy r = 0 →
      Leads .stagingFault s fun t => (t.core c).deque = x.deque.filter (fun y => y.id != r.id) ∧
        (t.core c).inbound = x.inbound.filter (fun y => y.id != r.id) ∧
        ∃ n, (t.core c).ends = x.ends ++ [{ record := r, ending := .failed code, counts := n }])

/-- R254, R340, R341 and R342: a request over an unmapped or draining page is refused, LEASE's with 2, and any other is posted; once its pages
are resident and every home has an entry, the lease is held for one period of real time; a renewal, due every half period, extends it to a
period after the last one that was due, unless a page of it drains; and past its expiry a lease lapses on the pages that drain. That a
renewal which comes late makes up the half periods it missed, and that a lease is counted by the pieces of its range, is the model's choice
(log entry 54). -/
def Sys2Proof.Claims.LeasesServed : Prop :=
  (∀ (s : State) (q : LeaseReq), s.leaseReqs.find? (fun q => q.id == s.arg.id) = some q → q.posted = false → q.answer = none →
    (s.leasePages q.ctx q.pieces = .gone → (∃ c k t, q.holder = .task c k t) →
      Leads .leaseRequest s fun t => t.leaseReqs.find? (fun q => q.id == s.arg.id) = some { q with answer := some 2 } ∧ t.leases = s.leases) ∧
    (s.leasePages q.ctx q.pieces ≠ .gone →
      Leads .leaseRequest s fun t => t.leaseReqs.find? (fun q => q.id == s.arg.id) = some { q with posted := true } ∧ t.leases = s.leases)) ∧
  (∀ (s : State) (q : LeaseReq), s.leaseReqs.find? (fun q => q.id == s.arg.id) = some q → q.posted = true → q.answer = none →
    s.leaseHolderHere q.holder = true → s.leasePages q.ctx q.pieces = .resident → s.leaseShort q = none →
    (∀ d ∈ s.leaseDies q.ctx q.pieces, s.leaseRoom q.ctx d = true) →
    Leads .leaseGranted s fun t => (∃ e, t.leases = s.leases ++ [e] ∧ e.holder = q.holder ∧ e.ctx = q.ctx ∧ e.base = q.base ∧
        e.size = q.size ∧ e.pieces = q.pieces ∧ e.granted = s.real ∧ e.renewed = s.real ∧ e.expiry = s.real + s.leasePeriod q.ctx) ∧
      ((∃ c k t, q.holder = .task c k t) → t.leaseReqs.find? (fun q => q.id == s.arg.id) = some { q with answer := some 0 })) ∧
  (∀ (s : State) (e : Lease),
    let half := s.leasePeriod e.ctx / 2
    let last := e.renewed + (s.real - e.renewed) / half * half
    e ∈ s.leases → e.id = s.arg.id → e.renewed + half ≤ s.real →
    (s.leaseDrains e = false →
      Leads .leaseRenewal s fun t => { e with renewed := last, expiry := last + s.leasePeriod e.ctx } ∈ t.leases) ∧
    (s.leaseDrains e = true → Leads .leaseRenewal s fun t => { e with renewed := last } ∈ t.leases)) ∧
  (∀ s : State, Leads .leaseLapse s fun t => t.leases = s.leases ∧ ∀ k p, (k, p) ∈ t.pages ↔
    ∃ q, (k, q) ∈ s.pages ∧ p = { q with lapses := q.lapses.filter fun x => !(x.1 == s.arg.id && decide (x.2 ≤ s.real)) })

/-- R240, R242, R243 and R258: a record is available after HOLD core cycles and aged after AGE times 16; an idle core asks first the core
before it in its cluster, or the victim that its replayed log names; the victim gives the first record from the cold end that may go, or refuses; a granted record joins the thief's hot
end, and a refusal lets the round go on, ended by a backoff. -/
def Sys2Proof.Claims.Steals : Prop :=
  (∀ (s : State) (r : Rec),
    let c := s.arg.core
    r ∈ (s.core c).deque → r.id = s.arg.id →
    (2 * s.fld (.tskCfg c) 15 0 ≤ s.coreSince c r.pushedAt →
      Leads .recordAvailable s fun t => { r with available := true } ∈ (t.core c).deque) ∧
    (2 * (16 * s.fld (.tskCfg c) 47 32) ≤ s.coreSince c r.pushedAt →
      Leads .recordAged s fun t => { r with aged := true } ∈ (t.core c).deque)) ∧
  (∀ s : State,
    let c := s.arg.core
    let u := s.cores.foldl (fun s (v, _) => s.reachLogs v) s
    let y := u.core c
    (u.idle c = true → y.steal = {} → u.loggedVictim c = none → c < 1536 →
      Leads .stealRequest s fun t => (t.core c).steal.victim = some (c / 16 * 16 + (c % 16 + 15) % 16) ∧ (t.core c).lfsr = y.lfsr) ∧
    (∀ st l, u.idle c = true → y.steal.victim = none → y.steal.backoff = none → u.loggedVictim c = none →
      u.nextVictim c 8 y.steal y.lfsr = (none, st, l) →
      Leads .stealRequest s fun t => (t.core c).steal = { backoff := some (u.time + 2 * u.fld (.hlyCfg (coreDie c)) 31 16) }) ∧
    (∀ v, u.idle c = true → y.steal.victim = none → y.steal.backoff = none → u.loggedVictim c = some v → v ∉ y.steal.asked →
      Leads .stealRequest s fun t => (t.core c).steal.victim = some v ∧ (t.core c).lfsr = y.lfsr)) ∧
  (∀ s : State,
    let c := s.arg.core
    let x := s.core c
    ∀ t0, x.steal.backoff = some t0 → t0 ≤ s.time → Leads .stealBackoff s fun t => (t.core c).steal.backoff = none) ∧
  (∀ (s : State) (v : Nat),
    let c := s.arg.core
    (s.core c).steal.victim = some v → (s.core c).steal.answered = false → v ≠ c →
    (s.stealGrant v c = none → Leads .stealRequestAtVictim s fun t => (t.core c).steal.answered = true ∧
      (t.core c).steal.reply = (s.core c).steal.reply ∧ (t.core v).deque = (s.core v).deque) ∧
    ∀ r, s.stealGrant v c = some r → Leads .stealRequestAtVictim s fun t =>
      (t.core v).deque = (s.core v).deque.filter (fun y => y.id != r.id) ∧ (t.core c).steal.answered = true ∧
      ∃ r', (t.core c).steal.reply = some r' ∧ r'.id = r.id ∧ r'.words = r.words ∧ r'.stolen = true ∧ r'.state = .pushed) ∧
  (∀ s : State,
    let c := s.arg.core
    let x := s.core c
    x.steal.answered = true →
    (∀ r, x.steal.reply = some r → x.deque.length < 512 → Leads .stealReply s fun t =>
      (t.core c).deque = x.deque ++ [{ r with pushedAt := s.time }] ∧ (t.core c).steal = {}) ∧
    (x.steal.reply = none → Leads .stealReply s fun t => (t.core c).steal.victim = none ∧ (t.core c).steal.answered = false ∧
      (t.core c).deque = x.deque))

/-- R244, R245 and R250: a record that reaches a core of its live kernel's clusters joins the inbound queue's tail, and with 64 there it is
refused; the reply writes the future's pointer, or 0 for a plain refusal; an entry that frees grants the oldest refused sender, and a
refused .blk sender off the grant list sends again after its retry time, and one that a peer part has granted (log entry 24) sends again at
once. That a .blk sender refused by a peer part may also send again after its retry time is the model's choice (log entry 57). -/
def Sys2Proof.Claims.RemoteRecords : Prop :=
  (∀ (s u : State) (m : SpawnMsg), s.spawns.find? (fun m => m.id == s.arg.id) = some m → s.arg.flag = false → m.arrived = false →
    m.refused = false → m.rank = none → s.kernelLive m.ktag = true → (s.kernelClusters m.ktag).getLsbD (coreBit m.target) = true →
    let x := s.core m.target
    (x.inbound.length < 64 → s.futureReady m.target m.ctx (recFuture m.record.words) = (true, u) →
      Leads .inboundArrival s fun t => (∃ r, (t.core m.target).inbound = x.inbound ++ [r] ∧ r.words = m.record.words ∧ r.ktag = m.record.ktag) ∧
        ∃ y, t.spawns.find? (fun m => m.id == s.arg.id) = some y ∧ y.accepted = true ∧ y.arrived = true) ∧
    (64 ≤ x.inbound.length → Leads .inboundArrival s fun t => (t.core m.target).inbound = x.inbound ∧
      ∃ y, t.spawns.find? (fun m => m.id == s.arg.id) = some y ∧ y.refused = true ∧ y.arrived = true)) ∧
  (∀ (s : State) (m : SpawnMsg), s.spawns.find? (fun m => m.id == s.arg.id) = some m → m.arrived = true →
    let g := s.group m.core m.slot
    let ends (v : DWord) : Prop := Leads .spawnrReply s fun t =>
      (t.group m.core m.slot).sregs = (g.setS m.dest v).sregs ∧ t.spawns = s.spawns.filter (fun y => y.id != m.id) ∧
      ∀ y ∈ g.outst, y.id = m.op → { y with done := true } ∈ (t.group m.core m.slot).outst
    (m.accepted = true → ends m.future) ∧ (m.accepted = false → m.dropped = false → m.blk = false → ends 0)) ∧
  (∀ (s : State) (n : Nat) (rest : List Nat) (m : SpawnMsg),
    let c := s.arg.core
    let x := s.core c
    s.arg.flag = false → x.grants = n :: rest → s.spawns.find? (fun m => m.id == n) = some m → m.blk = true → m.arrived = false →
    x.inbound.length + (s.spawns.filter fun m => m.target == c && m.rank.isNone && m.granted).length < 64 → Bank.look s.peerRefused n = none →
    Leads .inboundGrant s fun t => (t.core c).grants = rest ∧
      t.spawns.find? (fun m => m.id == n) = some { m with granted := true, refused := false }) ∧
  (∀ (s : State) (m : SpawnMsg), s.spawns.find? (fun m => m.id == s.arg.id) = some m → s.arg.flag = true → m.rank ≠ none → m.blk = true →
    m.refused = true → m.arrived = false →
    Leads .inboundGrant s fun t => t.spawns.find? (fun m => m.id == s.arg.id) = some { m with granted := true, refused := false }) ∧
  (∀ (s : State) (m : SpawnMsg), s.spawns.find? (fun m => m.id == s.arg.id) = some m → m.blk = true → m.refused = true → m.arrived = false →
    (s.group m.core m.slot).ending = none → (m.rank ≠ none ∨ (s.core m.target).grants.contains m.id = false) →
    2 * max 1 (s.fld (.tskCfg m.core) 31 16) ≤ s.coreSince m.core m.since →
    Leads .spawnrResend s fun t => t.spawns.find? (fun m => m.id == s.arg.id) = some { m with refused := false })

/-- Records staged and leases served (the choices of log entries 54 and 56 among the clauses). -/
def Obligations.StagingAndLeases : Prop :=
  Claims.Staging ∧ Claims.LeasesServed

/-- Records stolen and sent (the choices of log entries 24 and 57 among the clauses). -/
def Obligations.StealsAndRemoteRecords : Prop :=
  Claims.Steals ∧ Claims.RemoteRecords

end TaskUnit

/-! ## Queues and their packets (R216, R297 to R306, R313, R365) -/
namespace Sys2Proof.Claims
open Sys2Proof.Machine

/-- A queue's current packet is of a type, may start and has no non-zero zero field; v is its 128 bytes (R299 to R302). -/
def Offered (s : State) (q type v : Nat) : Prop :=
  q < 4096 ∧ s.queState q = 2 ∧ (∃ ws, (s.queue q).current = some ws ∧ wordsNat ws = v) ∧ bits v 3 0 = type ∧ s.mayStart q v = true ∧
    packetBad type v = false

/-- A packet starts: from a state in which it has had its effect and its queue holds the entries given besides those it held, the queue
goes on to its next slot (R297, R298). -/
def Passes (i : Instr) (s : State) (more : List Started) (p : State → Prop) : Prop :=
  let q := s.arg.id
  ∃ w, Machine.exec i s = .next (w.advance q) ∧ (w.queue q).started = (s.queue q).started ++ more ∧ (w.queue q).slot = (s.queue q).slot ∧
    p w

/-- What a queue keeps of a packet that starts. -/
def entry (s : State) (q : Nat) (barrier : DWord) (region : Nat) (finished : Bool) : Started :=
  { id := (s.queue q).nextPkt, ctx := s.queCtx q, addr := BitVec.ofNat 64 (s.slotPtr q), barrier := barrier, region := region, finished := finished }

/-- A state in which a packet's entry is made. -/
def withEntry (s : State) (q : Nat) (y : Started) : State :=
  s.setQueue q { s.queue q with started := (s.queue q).started ++ [y], nextPkt := (s.queue q).nextPkt + 1 }

/-- A queue has stopped. -/
def Stops (i : Instr) (s : State) : Prop := Leads i s fun t => t.queState s.arg.id = 3 ∧ (t.queue s.arg.id).current = none

/-- R297 to R299 and R303: QUEUE_ENABLE of a queue with EN 0 and a legal SIZE makes it IDLE at slot 0 with phase 1 and READ 0;
QUEUE_DISABLE leaves it DISABLED, its started packets going on; QUEUE_RUN makes a STOPPED queue read its slot again, as a doorbell does an
IDLE one and an expired poll timer: a slot of the current phase is the current packet of an ACTIVE queue, another leaves it IDLE with its
timer started again; a write of QLINK_CFG clears the link's count. That RUN reads the slot of a started packet a second time is the model's
choice (log entry 97). -/
def QueueRegisters : Prop :=
  (∀ s : State,
    let q := s.arg.id
    let v := s.arg.v
    q < 4096 → s.fld (.queCtl q) 11 11 = 0 → v.getLsbD 11 = true → 6 ≤ bits v.toNat 4 0 → bits v.toNat 4 0 ≤ 16 →
    Leads .queueEnable s fun t => t.queState q = 1 ∧ t.fld (.queStat q) 18 18 = 1 ∧ t.fld (.queStat q) 63 32 = 0 ∧
      t.reg (.queCtl q) = v &&& (Reg.queCtl q).rwMask ∧ (t.queue q).slot = 0 ∧ (t.queue q).started = (s.queue q).started) ∧
  (∀ s : State,
    let q := s.arg.id
    q < 4096 → s.fld (.queCtl q) 11 11 = 1 → s.arg.v.getLsbD 11 = false →
    Leads .queueDisable s fun t => t.queState q = 0 ∧ t.fld (.queCtl q) 11 11 = 0 ∧ (t.queue q).current = none ∧
      (t.queue q).started = (s.queue q).started) ∧
  (∀ s : State,
    let q := s.arg.id
    q < 4096 →
    (s.fld (.queCtl q) 11 11 = 1 → s.arg.v.getLsbD 11 = true → s.arg.v.getLsbD 12 = true → s.queState q = 3 →
      Machine.exec .queueRun s = .next ((s.setQueState q 2).readSlot q)) ∧
    (s.queState q = 1 →
      let r := s.startPoll q
      Machine.exec .queueDoorbell s = .next (r.readSlot q) ∧
      ((s.queue q).reading = false → (s.queue q).poll ≠ 0 → (s.queue q).pollFrom + (s.queue q).poll ≤ s.time → Machine.exec .queuePoll s = .next (r.readSlot q)) ∧
      ∀ v u, s.ctxOpen (s.queCtx q) = true → (s.queue q).current = none → r.frontFault (s.queCtx q) (r.slotPtr q) 128 true false = 0 →
        r.frontRead (s.queCtx q) (r.slotPtr q) 128 = (Served.done, v, u) →
        (bit v 7 = ((u.slotNow q).2 == 1) →
          Leads .queueDoorbell s fun t => t.queState q = 2 ∧ (t.queue q).current = some (natWords v 16)) ∧
        (bit v 7 ≠ ((u.slotNow q).2 == 1) → Leads .queueDoorbell s fun t =>
          t.queState q = 1 ∧ (t.queue q).pollFrom = u.time ∧ (t.queue q).poll = u.fld .queCfg 23 0))) ∧
  (∀ s : State,
    let n := s.arg.id
    n < 256 → Leads .qlinkCfgWrite s fun t => t.fld (.qlinkCnt n) 31 0 = 0 ∧ t.reg (.qlinkCfg n) = s.arg.v &&& (Reg.qlinkCfg n).rwMask)

/-- R301 to R306, R308 and R313: LAUNCH queues its kernel behind the others, unless a pointer, region or lease word of it is refused; a GRAPH
checks its table whole and keeps the nodes without predecessors to be launched in index order; a node's kernel is queued from its image,
a node without an image is done at once, and a graph whose nodes are all done is a packet whose work is over; one that has failed stops its
queue, which RUN makes read the GRAPH packet again. -/
def LaunchPackets : Prop :=
  (∀ (s : State) (v : Nat),
    let q := s.arg.id
    let l := launchOf (.packet q (s.queue q).nextPkt) (s.queCtx q) (BitVec.ofNat 64 (s.slotPtr q)) v
    Offered s q 1 v →
    (s.launchCode l = 0 → Passes .launch s [entry s q (BitVec.ofNat 64 (bits v 639 576)) (bits v 159 128) false] fun w =>
      w.launches = s.launches ++ [l] ∧ l.ctx = s.queCtx q ∧ l.codeBase = BitVec.ofNat 64 (bits v 127 64) ∧ l.region = bits v 159 128 ∧
        l.rootId = BitVec.ofNat 64 (bits v 255 192) ∧ l.record = BitVec.ofNat 64 (bits v 575 512)) ∧
    (s.launchCode l ≠ 0 → Stops .launch s)) ∧
  (∀ (s u : State) (v tab : Nat) (ns : List (DWord × List Nat × Nat)),
    let q := s.arg.id
    let n := bits v 143 128
    let ctx := s.queCtx q
    (s.graphs.find? fun g => g.queue == q && (!g.ready.isEmpty || g.running.isEmpty)) = none → Offered s q 2 v → 0 < n → n ≤ 4096 →
    s.frontFault ctx (bits v 127 64) 64 true false = 0 → bits v 255 192 = 0 →
    s.spansOk (s.ctx ctx).spans ctx (spanAllows true false) 40 (ptrOffset (bits v 127 64)) (64 * n) = true →
    s.frontRead ctx (bits v 127 64) (64 * n) = (Served.done, tab, u) → u.queues = s.queues → u.mgmt = s.mgmt → graphNodes n tab = some ns →
    Passes .graph s [entry s q 0 0xFFFFFFFF false] fun w => ∃ g, w.graphs = u.graphs ++ [g] ∧ g.queue = q ∧ g.ctx = ctx ∧
      g.nodes = ns.map (fun x => (x.1, x.2.1)) ∧ g.counters = ns.map (fun x => x.2.2) ∧ g.running = [] ∧
      ∀ i, i ∈ g.ready ↔ i < n ∧ nth g.counters i = 0) ∧
  (∀ (s : State) (g : GraphRun) (i : Nat) (rest : List Nat),
    let image := (g.nodes.getD i (0, [])).1
    (s.graphs.find? fun g => g.queue == s.arg.id && (!g.ready.isEmpty || g.running.isEmpty)) = some g → s.ctxOpen g.ctx = true →
    g.ready = i :: rest →
    (image = 0 → Leads .graph s fun t => t.graphs = s.graphs.map (fun x => if x.id = g.id then { x with ready := x.ready.drop 1 }.nodeDone i else x)) ∧
    ∀ v u,
      let l := launchOf (.node g.id i) g.ctx image v
      image ≠ 0 → s.frontFault g.ctx image.toNat 8 true false = 0 → s.frontRead g.ctx image.toNat 128 = (Served.done, v, u) → bits v 3 0 = 1 →
      packetBad 1 v = false → u.launchCode l = 0 →
      Leads .graph s fun t => t.launches = u.launches ++ [l] ∧
        t.graphs = u.graphs.map (fun x => if x.id = g.id then { x with ready := x.ready.drop 1, running := x.running ++ [i] } else x)) ∧
  (∀ (s : State) (g : GraphRun),
    (s.graphs.find? fun g => g.queue == s.arg.id && (!g.ready.isEmpty || g.running.isEmpty)) = some g → g.ready = [] →
    g.finished = g.nodes.length →
    Leads .graph s fun t => t.graphs = s.graphs.filter (fun y => y.id != g.id) ∧
      (t.queue g.queue).started = (s.queue g.queue).started.map (fun y => if y.id = g.pkt then { y with finished := true } else y)) ∧
  (∀ (s : State) (g : GraphRun), s.arg.id < 4096 →
    (s.graphs.find? fun g => g.queue == s.arg.id && (!g.ready.isEmpty || g.running.isEmpty)) = some g → g.ready = [] →
    g.finished ≠ g.nodes.length → s.fld (.queCtl g.queue) 11 11 = 1 →
    Leads .graph s fun t => t.queState g.queue = 3 ∧
      (t.queue g.queue).redo.map (·.1) = some ((g.addr.toNat - (s.reg (.queBase g.queue)).toNat) / 128))

/-- R189, R214 to R216, R301 to R304, R313 and R365: COPY gives its list to the core's engine; BARRIER_ADD adds at the packet's scope;
BARRIER_WAIT waits on its word, goes on once it is woken, and stops its queue where the barrier broke; LINK_RELEASE and LINK_WAIT raise and
lower their link's count, which LINK_WAIT waits for; PUBLISH publishes a window; MARKER stores its value as a release at system scope; a
packet of another type stops its queue; a packet whose work is over leaves its queue, its completion barrier raised by 1, and stops it where
the barrier cannot be reached. That this stop names the packet's region and PERMISSION is the model's choice (log entry 52), and so is what
COPY gives the engine (log entries 50 and 51). -/
def OtherPackets : Prop :=
  (∀ (s : State) (v : Nat),
    let q := s.arg.id
    let core := bits v 159 144
    Offered s q 3 v → bits v 143 128 ≠ 0 → core ≤ 1535 → s.frontFault (s.queCtx q) (bits v 127 64) 32 true false = 0 →
    s.fld (.cpeStat core) 0 0 = 0 →
    Passes .copyPacket s [entry s q 0 0xFFFFFFFF false] fun w => w.fld (.cpeStat core) 0 0 = 1 ∧ ∃ l, (w.core core).lists = (s.core core).lists ++ [l] ∧
      l.owner = .packet q (s.queue q).nextPkt ∧ l.ctx = s.queCtx q ∧ l.base = BitVec.ofNat 64 (bits v 127 64) ∧ l.count = bits v 143 128 ∧ l.next = 0) ∧
  (∀ (s u : State) (v : Nat) (tgt : Target),
    let q := s.arg.id
    let y := entry s q 0 0xFFFFFFFF true
    Offered s q 4 v → s.frontFault (s.queCtx q) (bits v 127 64) 128 true true = 0 → s.frontReach (s.queCtx q) (bits v 127 64) true = (Served.done, some tgt, u) →
    u.queues = s.queues → u.mgmt = s.mgmt →
    Machine.exec .barrierAdd s = .next (((((withEntry u q y).settleAt tgt 8).addWord tgt (bits v 191 128)
      (some { agent := .front, scope := bits v 194 192 }) { ctx := s.queCtx q }).2).advance q)) ∧
  (∀ (s : State) (v : Nat),
    let q := s.arg.id
    Offered s q 5 v →
    (∀ tgt, (s.waits.find? fun w => w.who == .queue q) = none → s.frontFault (s.queCtx q) (bits v 127 64) 8 true false = 0 →
      s.ownTarget (s.queCtx q) (bits v 127 64) 8 = some tgt →
      Leads .barrierWait s fun t => (t.queue q).current = (s.queue q).current ∧ ∃ w, t.waits = s.waits ++ [w] ∧ w.who = .queue q ∧ w.target = tgt ∧
        w.value = bits v 191 128 ∧ w.stage = .sent) ∧
    ∀ w n, s.waits.find? (fun w => w.who == .queue q) = some w →
      (w.stage = .woken n false → Passes .barrierWait s [] fun t => t.waits = s.waits.filter (fun w => w.who != .queue q)) ∧
      (w.stage = .woken n true → s.wakeBehind w = false → Leads .barrierWait s fun t => t.queState q = 3 ∧ t.fld (.queStat q) 15 0 = fcBarrierBroken)) ∧
  (∀ (s : State) (v : Nat),
    let q := s.arg.id
    let n := bits v 71 64
    let k := bits v 127 96
    let c := s.fld (.qlinkCnt n) 31 0
    k ≠ 0 → s.fld (.qlinkCfg n) 31 31 = 1 →
    (Offered s q 6 v → s.fld (.qlinkCfg n) 11 0 = q →
      (c + k < 2 ^ 32 → Passes .linkRelease s [] fun w => w.fld (.qlinkCnt n) 31 0 = c + k) ∧ (2 ^ 32 ≤ c + k → Stops .linkRelease s)) ∧
    (Offered s q 7 v → s.fld (.qlinkCfg n) 27 16 = q →
      (k ≤ c → Passes .linkWait s [] fun w => w.fld (.qlinkCnt n) 31 0 = c - k) ∧ (c < k → Machine.exec .linkWait s = .next s))) ∧
  (∀ (s : State) (v : Nat),
    let q := s.arg.id
    let n := bits v 67 64
    Offered s q 8 v → s.fld (.hwCtl n) 39 39 = 1 → s.fld (.hwCtl n) 37 32 = s.queCtx q →
    Passes .publishPacket s [entry s q 0 0xFFFFFFFF true] fun w => w.held = [] ∧
      (s.held = [] → Memory.wf s.mem = true →
        let a := hostCell (s.fld (.hwCtl n) 38 38) (s.reg (.hwVer n)).toNat
        Memory.read w.mem a 8 = (Memory.read s.mem a 8 + 1) % 2 ^ 64)) ∧
  (∀ (s : State) (v : Nat),
    let q := s.arg.id
    let p := bits v 191 128
    Offered s q 9 v →
    (p = 0 → Machine.exec .marker s = .next (s.advance q)) ∧
    ∀ u tgt,
      let y := entry s q 0 0xFFFFFFFF true
      p ≠ 0 → s.frontFault (s.queCtx q) p 8 false true = 0 → s.frontReach (s.queCtx q) p true = (Served.done, some tgt, u) → u.lineAt tgt = none →
      u.queues = s.queues → u.mgmt = s.mgmt →
      Machine.exec .marker s = .next ((((withEntry u q y).settleAt tgt 8).storeAt tgt 8 (bits v 127 64) [{ agent := .front, scope := 7 }]).advance q)) ∧
  (∀ (s : State) (ws : List DWord),
    let q := s.arg.id
    let type := bits (wordsNat ws) 3 0
    q < 4096 → s.queState q = 2 → (s.queue q).current = some ws → type = 0 ∨ 10 ≤ type →
    Leads .invalidPacket s fun t => t.queState q = 3 ∧ t.fld (.queStat q) 15 0 = fcRecordInvalid) ∧
  (∀ (s : State) (y : Started),
    let q := s.arg.id
    let pkt := s.arg.op
    let left (s : State) : State := s.setQueue q { s.queue q with started := (s.queue q).started.filter fun y => y.id != pkt || !y.finished }
    (s.queue q).started.find? (fun y => y.id == pkt && y.finished) = some y →
    (y.barrier = 0 → Machine.exec .packetComplete s = .next (left s)) ∧
    (∀ u tgt, y.barrier ≠ 0 → s.frontReach y.ctx y.barrier.toNat true = (Served.done, some tgt, u) →
      Machine.exec .packetComplete s = .next (left ((u.settleAt tgt 8).addWord tgt 1 (some { agent := .front, scope := 5 })
        { ctx := y.ctx, region := y.region, ktag := y.ktag }).2)) ∧
    ∀ u code o, y.barrier ≠ 0 → s.frontReach y.ctx y.barrier.toNat true = (.bad code, o, u) →
      Machine.exec .packetComplete s = .next ((left u).stopStarted q y.ctx fcPermission y.addr (if y.node then 0xFFFFFFFF else y.region)))

end Sys2Proof.Claims

section Queues
open Sys2Proof Sys2Proof.Machine Sys2Proof.Claims

/-- R189, R214 to R216, R297 to R306, R308, R313 and R365: queues, their packets and the launches and graphs that they start; the model's
choices among the clauses are those of log entries 50, 51, 52 and 97. -/
def Obligations.QueuesAndPackets : Prop := QueueRegisters ∧ LaunchPackets ∧ OtherPackets

end Queues

/-! ## Kernels, regions and contexts (R169, R174, R212, R307 to R325, R330) -/
namespace Sys2Proof.Claims
open Sys2Proof.Machine

/-- A host access comes before every one of port 0 of its cycle that a test accepts: its own port is 0, or no such access is still to come
(R320, R323). -/
def First (s : State) (p : Instr → StepArgs → Bool) : Prop :=
  s.arg.port % 2 = 0 ∨ ∀ x ∈ s.agenda.takeWhile (fun x => x.delay == 0), ∀ i a, x.what = .unit i a → a.port % 2 = 0 → p i a = false

/-- Whether a step is one to the register that the turn's step goes to (R401). -/
def sameReg (s : State) (i j : Instr) (a : StepArgs) : Bool := (hostWrites i s.arg).isSome && hostWrites j a == hostWrites i s.arg

/-- A host's access takes place now: its port takes it (R361; log entry 100), and it comes before port 0's of its cycle to the same register
(R401). -/
def Comes (s : State) (i : Instr) : Prop := portTakes (s.arg.port % 2) s.arg.flag = true ∧ First s (sameReg s i)

/-- An access of port 1 stands back: nothing happens yet. -/
def StandsBack (i : Instr) (s : State) : Prop := Leads i s fun t => ∃ l, t = { s with agenda := l } ∧ l.length = s.agenda.length + 1

/-- What R322 says of clusters that leave a context: their scratchpads and the context's windows of every chip scratchpad hold zeros, their splits
are at the reset value, no L2 line and no entry of their descriptor caches is the context's, and its order-log and spill registers are at
their reset values. -/
def Scrubbed (s t : State) (n : Nat) (left : BitVec 96) : Prop :=
  (∀ c, c < 1536 → left.getLsbD (coreBit c) = true → (∀ o, o < 2 ^ 20 → t.byteAt (.cell (spadCell c o)) = 0) ∧
    t.reg (.spadSplit c) = (Reg.spadSplit c).resetVal ∧ ∀ e ∈ (t.core c).desc, e.ctx ≠ n) ∧
  (∀ d b, d < 8 → 65536 * s.fld (.ctxCsp n) 9 0 ≤ b → b < 65536 * s.fld (.ctxCsp n) 9 0 + 65536 * s.fld (.ctxCsp n) 26 16 →
    t.byteAt (.cell (cspCell d b)) = 0) ∧
  (∀ x ∈ t.l2, x.2.1 / 2 ^ 56 ≠ n) ∧ (∀ r ∈ [Reg.ordBase n, .ordSize n, .ordCtl n, .ordHead n], t.reg r = r.resetVal) ∧
  ∀ d, d < 8 → t.reg (.spillBase d n) = (Reg.spillBase d n).resetVal ∧ t.reg (.spillSize d n) = (Reg.spillSize d n).resetVal

/-- R308, R311 and R313 to R316: the oldest QUEUED kernel takes the lowest free entry with its effective values and, its root record read and
valid, waits for its leases; Spar places the root on the least weighted of five candidates; a DRAINING kernel without live tasks leaves
its entry, its leases and its packet; a RUNNING kernel that is cancelled drains, a LAUNCHING one keeps the cancellation, and those of a
region with its descendants go together, QUEUED ones at once; a region's watchdog writes NO_PROGRESS after its period of real time, in LAUNCHING
too, and starts again. -/
def Kernels : Prop :=
  (∀ (s : State) (l : Launch) (rest : List Launch) (n : Nat),
    let tag := n + 4096 * (Bank.lookD s.reuse n 0 % 16)
    s.launches = l :: rest → s.freeEntry = some n →
    (s.effective l.ctx l.region = none → Leads .kernelEntryTaken s fun t => t.kernel tag = none ∧ t.launches = rest) ∧
    ∀ (e : Effective) (u z : State) (tgt : Target),
      let k : Kernel := { tag := tag, launch := l, eff := e, state := .launching }
      let taken := ({ s with launches := rest, reuse := Bank.put s.reuse n (Bank.lookD s.reuse n 0 + 1) }.setKernel k).watchFrom tag
      s.effective l.ctx l.region = some e → taken.frontReach l.ctx l.record.toNat true = (.done, some tgt, u) →
      let r := (u.settleAt tgt 128).readT tgt 0 128
      r.2.descsReady ((maskCores e.clusters).headD 0) l.ctx (natWords r.1 16) = (true, z) →
      z.recInvalid ((maskCores e.clusters).headD 0) l.ctx tag (natWords r.1 16) = false →
      Leads .kernelEntryTaken s fun t => t.launches = rest ∧ ∃ k, t.kernel tag = some k ∧ k.tag = tag ∧ k.launch = l ∧ k.eff = e ∧
        k.state = .launching ∧ k.root = recWithId (natWords r.1 16) l.rootId ∧ k.det = recDet k.root ∧
        k.leasesLeft = ((l.leases ++ [BitVec.ofNat 64 (recLease k.root)]).filterMap fun w => leaseRange w.toNat).length) ∧
  (∀ (s : State) (k : Kernel) (c : Nat) (cs : List Nat),
    let tag := s.arg.id
    s.kernel tag = some k → k.tag = tag → s.fld .fwStat 4 2 ≠ 2 → k.state = .launching → k.placed = none → k.root ≠ [] → k.leasesLeft = 0 →
    candidatesAt (maskCores (s.kernelClusters tag)) (Bank.lookD s.regions k.launch.region {}).cursor = c :: cs →
    ∃ best ∈ c :: cs, (∀ d ∈ c :: cs, s.placeWeight best ≤ s.placeWeight d) ∧
      Leads .rootPlacement s fun t => t.kernel tag = some { k with placed := some best } ∧
        (Bank.lookD t.regions k.launch.region {}).cursor = (Bank.lookD s.regions k.launch.region {}).cursor + 1 ∧
        ∃ r, (t.core best).binding = (s.core best).binding ++ [.record r []] ∧ r.words = k.root ∧ r.root = true ∧ r.state = .leasing ∧
          r.ktag = tag ∧ r.toStage = recOperands k.root) ∧
  (∀ (s : State) (k : Kernel) (q p : Nat),
    let tag := s.arg.id
    s.kernel tag = some k → k.state = .draining → k.live = 0 → k.cancelled = false → k.launch.source = .packet q p →
    Leads .kernelDone s fun t => t.kernel tag = none ∧ (∀ e ∈ t.leases, e.holder ≠ .kernel tag) ∧
      (t.queue q).started = (s.queue q).started.map (fun y => if y.id = p then { y with finished := true, ktag := tag } else y)) ∧
  (∀ (s : State) (k : Kernel), s.kernel s.arg.id = some k → k.tag = s.arg.id →
    (k.state = .running → (∀ x ∈ (s.ctx k.launch.ctx).handlers, x.ktag ≠ s.arg.id) → Leads .cancelKernel s fun t => t.kernel s.arg.id =
      some { k with state := .draining, cancelled := true, cancelAt := some s.time }) ∧
    (k.state = .launching → Leads .cancelKernel s fun t => t.kernel s.arg.id = some { k with cancelHeld := true }) ∧
    (k.state = .draining → Machine.exec .cancelKernel s = .next s)) ∧
  (∀ s : State, (∀ x ∈ s.kernels, x.2.tag = x.1) →
    let has (path : List Nat) : Bool := path.contains s.arg.id
    Leads .cancelRegion s fun t =>
      t.launches = s.launches.filter (fun l => !(decide (l.ctx < 64) && s.launchIn l.ctx has l)) ∧
      ∀ tag k, s.kernel tag = some k → k.launch.ctx < 64 → has k.eff.path = true → k.state = .running → (s.ctx k.launch.ctx).handlers = [] →
        t.kernel tag = some { k with state := .draining, cancelled := true, cancelAt := some s.time }) ∧
  (∀ (s : State) (tag : Nat) (k : Kernel),
    let r := s.arg.id
    s.kernels.find? (fun x => x.2.launch.region == r) = some (tag, k) → k.eff.watchdog ≠ 0xFFFFFFFF →
    s.regionFrozen r = false → (Bank.lookD s.regions r {}).restarted + realMicro * k.eff.watchdog ≤ s.real →
    let w := s.writeRecord k.launch.ctx { code := fcNoProgress, kind := 3, region := r }
    let u := { w with regions := Bank.alter w.regions r {} fun y => { y with restarted := s.real } }
    (k.eff.policy = 0 → Machine.exec .regionWatchdog s = .next u) ∧
    (k.eff.policy = 1 → Machine.exec .regionWatchdog s = .next (u.endDomain k.tag)) ∧
    (k.eff.policy = 3 → Machine.exec .regionWatchdog s = .next (u.regionHandler r k.eff.handler { code := fcNoProgress, kind := 3, region := r }
      (s.nextSeq k.launch.ctx))))

/-- R169, R174, R212, R319, R320, R322, R330 and R406: CMD 1 opens a FREE context that overlaps none, with its span table, its fault queue's
counters zero and its split on its clusters, and sets OVERLAP otherwise; CMD 2 closes it and cancels its kernels; CMD 3 releases the
clusters named; once they hold nothing of it they are scrubbed and leave its mask; a CLOSING context that has drained loses its waiter
entries, lines and leases, and is FREE once scrubbed; from phase 2 of a hand-over on the commands wait; of two ports' commands of one cycle
port 0's comes first. -/
def Contexts : Prop :=
  (∀ (s : State) (i : Instr), i ∈ [Instr.contextOpen, .contextClose, .clusterRelease] →
    (portTakes (s.arg.port % 2) s.arg.flag = false → Machine.exec i s = .next s) ∧
    (portTakes (s.arg.port % 2) s.arg.flag = true → ¬First s (sameReg s i) → StandsBack i s)) ∧
  (∀ s : State,
    let n := s.arg.ctx
    Comes s .contextOpen → 2 ≤ s.fld .fwStat 4 2 →
    Machine.exec .contextOpen s = .next { s with ctxCmds := s.ctxCmds ++ [(n, 1)] } ∧
      Machine.exec .contextClose s = .next { s with ctxCmds := s.ctxCmds ++ [(n, 2)] } ∧
      Machine.exec .clusterRelease s = .next { s with ctxCmds := s.ctxCmds ++ [(n, 3)] }) ∧
  (∀ s : State,
    let n := s.arg.ctx
    n < 64 → Comes s .contextOpen → s.fld .fwStat 4 2 < 2 →
    ((s.ctx n).state = .free → s.boot = .ready →
      (s.mayOpen n = true → Leads .contextOpen s fun t => (t.ctx n).state = .opened ∧ (t.ctx n).spans = s.spanTable n ∧
        t.reg (.ctxFqHead n) = 0 ∧ t.reg (.ctxFqTail n) = 0 ∧
        ∀ c, c < 1536 → (s.ctxClusters n).getLsbD (coreBit c) = true → t.reg (.spadSplit c) = s.reg (.ctxSpad n)) ∧
      (s.mayOpen n = false → Leads .contextOpen s fun t => (t.ctx n).state = .free ∧ t.fld (.ctxCtl n) 8 8 = 1)) ∧
    (s.ctxOpen n = true → (∀ x ∈ s.kernels, x.2.tag = x.1) → Leads .contextClose s fun t => (t.ctx n).state = .closing ∧
      t.launches = s.launches.filter (fun l => l.ctx != n) ∧
      ∀ tag k, s.kernel tag = some k → k.launch.ctx = n → k.state = .running → (s.ctx n).handlers = [] →
        t.kernel tag = some { k with state := .draining, cancelled := true, cancelAt := some s.time }) ∧
    ((s.ctx n).state = .opened → s.fld (.ctxRel n) 33 32 < 3 → Leads .clusterRelease s fun t =>
      (t.ctx n).state = .releasing ∧ (t.ctx n).spans = (s.ctx n).spans ∧ t.ctxClusters n = s.ctxClusters n ∧
      ∀ i, i < 96 → ((t.ctx n).releasing.getLsbD i ↔ (s.ctxClusters n).getLsbD i ∧ i / 32 = s.fld (.ctxRel n) 33 32 ∧
        (s.reg (.ctxRel n)).getLsbD (i % 32)))) ∧
  (∀ s : State,
    let n := s.arg.ctx
    n < 64 → (s.ctx n).state = .releasing → (∀ c, c < 1536 → (s.ctx n).releasing.getLsbD (coreBit c) = true → s.coreHolds c n = false) →
    Leads .releaseComplete s fun t => (t.ctx n).state = .opened ∧ t.ctxClusters n = s.ctxClusters n &&& ~~~ (s.ctx n).releasing ∧
      Scrubbed s t n (s.ctx n).releasing) ∧
  (∀ s : State,
    let n := s.arg.ctx
    (s.ctx n).state = .closing → s.ctxDrained n = true →
    Leads .contextDrained s fun t => (t.ctx n).state = .scrubbing ∧ t.waits = s.waits.filter (fun w => w.ctx != n) ∧
      t.lines = s.lines.filter (fun l => l.ctx != n) ∧ t.leases = s.leases.filter (fun e => e.ctx != n) ∧
      (∀ c, ∀ e ∈ (t.core c).desc, e.ctx ≠ n) ∧ t.mem = s.mem) ∧
  (∀ s : State,
    let n := s.arg.ctx
    n < 64 → (s.ctx n).state = .scrubbing →
    Leads .scrubComplete s fun t => (t.ctx n).state = .free ∧ Scrubbed s t n (s.ctxClusters n))

/-- R169, R323 and R325: a read of SEM_OWNER takes a free semaphore, or finds it BUSY with its owner, port 0's first of two in one cycle;
the owner's write of 0, or ten seconds of real time without a heartbeat, frees it; SPAD_SPLIT is written only while every slot of its core
is FREE and the sizes fit; a read of CTX_FQ_HEAD returns LOST and clears it. -/
def HostRegisters : Prop :=
  (∀ s : State,
    let p := s.arg.port % 2
    let rest := s.reg .semOwner &&& 4
    let first := Comes s .semAcquire
    (portTakes p s.arg.flag = false → Machine.exec .semAcquire s = .next s ∧ Machine.exec .semRelease s = .next s ∧
      Machine.exec .ctxFqHeadRead s = .next s) ∧
    (portTakes p s.arg.flag = true → ¬First s (sameReg s .semAcquire) → StandsBack .semAcquire s ∧ StandsBack .semRelease s) ∧
    (first → s.semHolder = none → Leads .semAcquire s fun t => t.semHolder = some p ∧ Bank.look t.hostData p = some (rest ||| BitVec.ofNat 64 (2 * p))) ∧
    (∀ q, first → s.semHolder = some q → q ≠ p → Leads .semAcquire s fun t => t.semHolder = some q ∧
      Bank.look t.hostData p = some (rest ||| 1 ||| BitVec.ofNat 64 (2 * q))) ∧
    (Comes s .semRelease → s.semHolder = some p → s.arg.v.getLsbD 0 = false → Leads .semRelease s fun t => t.semHolder = none) ∧
    (s.fld .semOwner 0 0 = 1 → s.semBeat + 10 ^ 7 * realMicro ≤ s.real → Leads .semLapse s fun t => t.fld .semOwner 0 0 = 0)) ∧
  (∀ s : State,
    let c := s.arg.core
    let v := s.arg.v
    let free := ∀ x ∈ (s.core c).slots, x.2.state = .free
    (free → 4096 * bits v.toNat 7 0 + 16384 * bits v.toNat 13 8 ≤ 2 ^ 20 → Leads .spadSplitWrite s fun t =>
      t.reg (.spadSplit c) = v &&& (Reg.spadSplit c).rwMask ∧ t.mem = s.mem) ∧
    (¬(free ∧ 4096 * bits v.toNat 7 0 + 16384 * bits v.toNat 13 8 ≤ 2 ^ 20) → Machine.exec .spadSplitWrite s = .next s)) ∧
  (∀ s : State,
    let r : Reg := .ctxFqHead s.arg.ctx
    portTakes (s.arg.port % 2) s.arg.flag = true → Leads .ctxFqHeadRead s fun t => Bank.look t.hostData (s.arg.port % 2) = some (s.reg r) ∧ t.fld r 63 32 = 0 ∧ t.fld r 31 0 = s.fld r 31 0)

end Sys2Proof.Claims

section KernelsAndContexts
open Sys2Proof Sys2Proof.Machine Sys2Proof.Claims

/-- R308, R311, R313 to R316: kernels from their entry to their end, their cancellation and their regions' watchdogs. -/
def Obligations.KernelsAndRegions : Prop := Claims.Kernels

/-- R169, R174, R212, R319, R320, R322, R323, R325, R330 and R406: contexts, the semaphore of the host ports, the split and the fault queue's
head. What command 3 scrubs of a context that goes on (log entry 58), and that port 1 stands back in a cycle of both ports (log entry 111), are
the model's choices. -/
def Obligations.ContextsOpenAndClose : Prop := Contexts ∧ HostRegisters

end KernelsAndContexts

/-! ## Page commands, links, routers and other agents (R206, R213, R330, R335 to R345, R348, R352 to R356, R358 to R360, R362, R366) -/
namespace Sys2Proof.Claims
open Sys2Proof.Machine

/-- The page command of a step, of an operation, may go on: those before it have started, and its context is open (R343, R344). -/
def Commanded (s : State) (op : Nat) (q : PageCmd) : Prop :=
  s.pageCmds.find? (fun q => q.id == s.arg.id && q.op == op) = some q ∧ s.ctxOpen q.ctx = true ∧ q.started = false ∧
    ∀ x ∈ s.pageCmds.takeWhile (fun x => x.id != s.arg.id), x.started = true

/-- Nothing of a context waits for a page: no fault record, no entry of its order log and no handler (R325, R327, R412). -/
def NothingHeld (s : State) (ctx : Nat) : Prop :=
  (s.ctx ctx).recsWaiting = [] ∧ (s.ctx ctx).logWaiting = [] ∧ (s.ctx ctx).handlers = []

/-- R330, R336, R337 and R344: command 1 finds an aligned resident page without a barrier line, waits while it is referenced, and begins to
migrate it; command 2 does so with the least recently used page of a die; command 3 drains the pages of its range; command 4 forgets the
cached entries of its range; command 5 gives the cores their context's spans, one after the other, and ends with the last; with operands or
pages that do not serve they complete with their result, and a command that has completed posts its entry to the page ring. The result 4 for a frame outside its tier (log entry
14), that a page which migrates or collapses drains afterwards (log entry 60), and command 2's operand (log entry 59) are the model's choices. -/
def PageCommands : Prop :=
  (∀ (s u : State) (q : PageCmd) (l : Leaf),
    let ia := q.a.toNat
    Commanded s 1 q → (s.startCmd s.arg.id).walk q.ctx ia = (some l, u) → (u.page q.ctx l).cmd = none → (u.page q.ctx l).state ≠ some .migrating →
    (ia % l.size = 0 → q.frameOk l = true → u.movable q.ctx l = true → u.holdsLine q.ctx l = false →
      Leads .pageMigrate s fun t => t.pageCmds = u.pageCmds ∧ (t.page q.ctx l).cmd = some s.arg.id ∧
        (t.page q.ctx l).state = if u.referenced q.ctx l then (u.page q.ctx l).state else some .migrating) ∧
    (ia % l.size ≠ 0 ∨ q.frameOk l = false → Machine.exec .pageMigrate s = .next (u.endCmd q ia 4 0)) ∧
    (ia % l.size = 0 → q.frameOk l = true → u.movable q.ctx l = false → Machine.exec .pageMigrate s = .next (u.endCmd q ia 1 0)) ∧
    (ia % l.size = 0 → q.frameOk l = true → u.movable q.ctx l = true → u.holdsLine q.ctx l = true →
      Machine.exec .pageMigrate s = .next (u.endCmd q ia 3 0))) ∧
  (∀ (s u : State) (q : PageCmd),
    let ia := q.a.toNat
    Commanded s 1 q → (s.startCmd s.arg.id).walk q.ctx ia = (none, u) →
    let ok := ia % 65536 = 0 ∧ q.frameOk { level := 0, base := ia, size := 65536, entry := 0, entryAddr := 0 } = true
    (ok → Machine.exec .pageMigrate s = .next (u.endCmd q ia 1 0)) ∧ (¬ok → Machine.exec .pageMigrate s = .next (u.endCmd q ia 4 0))) ∧
  (∀ (s : State) (q : PageCmd),
    let u := s.startCmd s.arg.id
    Commanded s 2 q → bits q.b.toNat 15 0 = 0 →
    (∀ l, u.victim q.ctx (bits q.a.toNat 2 0) = some l → q.frameOk l = true →
      Leads .pageEvict s fun t => (t.page q.ctx l).state = some .migrating ∧ (t.page q.ctx l).cmd = some s.arg.id) ∧
    (u.victim q.ctx (bits q.a.toNat 2 0) = none → Machine.exec .pageEvict s = .next (u.endCmd q 0 2 0))) ∧
  (∀ (s : State) (q : PageCmd),
    let u := s.startCmd s.arg.id
    let ls := u.cmdLeaves q
    Commanded s 3 q → q.a.toNat % 65536 = 0 → q.b.toNat % 65536 = 0 →
    (∀ l ∈ ls, q.a.toNat ≤ l.base ∧ l.base + l.size ≤ q.a.toNat + q.b.toNat) →
    (ls = [] → Machine.exec .pageUnmap s = .next (u.endCmd q q.a.toNat 0 0)) ∧
    (ls ≠ [] → NothingHeld s q.ctx → Leads .pageUnmap s fun t => t.pageCmds = u.pageCmds ∧
      ∀ l ∈ ls, (t.page q.ctx l).state = some .draining ∨
        ((t.page q.ctx l).drainNext = true ∧ ((t.page q.ctx l).state = some .migrating ∨ (t.page q.ctx l).state = some .collapsing)))) ∧
  (∀ (s : State) (q : PageCmd), Commanded s 4 q → NothingHeld s q.ctx →
    Leads .pageSync s fun t => t.pageCmds = (s.startCmd s.arg.id).pageCmds.filter (fun x => x.id != q.id) ∧
      ∀ level ia, level ≤ 3 → ia < 2 ^ 56 → q.a.toNat ≤ ia → ia < q.a.toNat + q.b.toNat → Bank.look t.ptCache (pteKey q.ctx level ia) = none) ∧
  (∀ (s : State) (q : PageCmd), Commanded s 5 q →
    Leads .spansCommand s fun t => (t.ctx q.ctx).spans = s.spanTable q.ctx ∧
      ∀ c, c < 1536 → (s.ctxClusters q.ctx).getLsbD (coreBit c) = true → t.coreSpans c q.ctx = s.coreSpans c q.ctx) ∧
  (∀ (s : State) (q : PageCmd),
    let c := s.arg.core
    s.pageCmds.find? (fun q => q.id == s.arg.id && q.op == 5) = some q → q.started = true → s.ctxOpen q.ctx = true →
    Leads .spansCommand s fun t => t.coreSpans c q.ctx = (s.ctx q.ctx).spans ∧ (∀ d, d ≠ c → t.coreSpans d q.ctx = s.coreSpans d q.ctx) ∧
      ((∀ x ∈ (s.ctx q.ctx).lag, x.1 = c) → t.pageCmds = (s.startCmd s.arg.id).pageCmds.filter (fun x => x.id != q.id) ∧
        (s.ringHeld = [] → s.ringRoom = true → Memory.wf s.mem = true →
          let h := s.fld .pgeRingHead 31 0
          t.fld .pgeRingHead 31 0 = (h + 1) % 2 ^ 32 ∧
            Memory.read t.mem (bits (s.reg .pgeRing).toNat 55 12 * 4096 + 32 * (h % 2 ^ s.fld .pgeRing 4 0)) 32
              = wordsNat [0, q.tag, 0, BitVec.ofNat 64 (q.ctx + 1024)])))

/-- R335, R337 to R339, R341 and R344: a page whose replicas are gone is RESIDENT again, its count risen, and read-mostly no longer at 4; a
page that migrates has its bytes at the new frame and its entry names it; a DRAINING page whose leases have lapsed and that nothing
refers to is UNMAPPED. That a DRAINING page whose replicas a write has met goes on draining, its count risen, is the model's choice (log
entry 113). -/
def PageMoves : Prop :=
  (∀ (s u : State) (l : Leaf),
    let n := s.arg.ctx
    Memory.wf s.mem = true → s.walk n s.arg.ia = (some l, u) → (u.page n l).state = some .collapsing → NothingHeld u n →
    Leads .collapseComplete s fun t =>
      let e := Memory.read t.mem (hbmCell l.entryAddr) 8
      bits e 59 56 = min 15 (l.cnt + 1) ∧ bit e 2 = (l.rm && decide (l.cnt + 1 < 4)) ∧ (t.page n l).replicas = [] ∧
        (t.page n l).state = if (u.page n l).drainNext then some .draining else none) ∧
  (∀ (s u : State) (l : Leaf),
    let n := s.arg.ctx
    Memory.wf s.mem = true → s.walk n s.arg.ia = (some l, u) → (u.page n l).state = some .draining → (u.page n l).collapse = true →
    Leads .collapseComplete s fun t => bits (Memory.read t.mem (hbmCell l.entryAddr) 8) 59 56 = min 15 (l.cnt + 1) ∧
      (t.page n l).replicas = [] ∧ (t.page n l).collapse = false ∧ (t.page n l).state = some .draining) ∧
  (∀ (s u : State) (l : Leaf) (q : PageCmd),
    let n := s.arg.ctx
    let old := l.cell l.base
    let new := { l with entry := q.leaf l.entry }.cell l.base
    s.walk n s.arg.ia = (some l, u) → (u.page n l).state = some .migrating → u.pageCmds.find? (fun q => (u.page n l).cmd == some q.id) = some q →
    Memory.wf u.mem = true → NothingHeld u n → l.base % l.size = 0 → l.base < 2 ^ 56 →
    ∃ w : State, Machine.exec .migrationDone s = .next (w.endCmd q l.base 0 (if q.op = 2 then BitVec.ofNat 64 l.frame else 0)) ∧
      (∀ x ∈ w.l2, ¬(l2Key n l.base ≤ x.2.1 ∧ x.2.1 < l2Key n l.base + l.size)) ∧
      Memory.read w.mem (hbmCell l.entryAddr) 8 = (q.leaf l.entry).toNat ∧
      (w.page n l).state = (if (u.page n l).drainNext then some .draining else none) ∧
      ((∀ x ∈ u.l2, ¬(l2Key n l.base ≤ x.2.1 ∧ x.2.1 < l2Key n l.base + l.size)) → old + l.size ≤ new ∨ new + l.size ≤ old →
        ∀ o, o < l.size → new + o < hbmCell l.entryAddr ∨ hbmCell l.entryAddr + 8 ≤ new + o →
          Memory.byte w.mem (new + o) = Memory.byte u.mem (old + o))) ∧
  (∀ (s u : State) (l : Leaf),
    let n := s.arg.ctx
    Memory.wf s.mem = true → s.walk n s.arg.ia = (some l, u) → (u.page n l).state = some .draining → u.allLapsed n l = true → u.referenced n l = false →
    (∀ q ∈ u.pageCmds, ¬(q.op = 3 ∧ q.started = true ∧ q.ctx = n)) →
    Leads .drainDone s fun t => Memory.read t.mem (hbmCell l.entryAddr) 8 = (l.entry &&& ~~~ 1).toNat ∧ (t.page n l).state = none ∧
      ∀ x ∈ t.l2, ¬(l2Key n l.base ≤ x.2.1 ∧ x.2.1 < l2Key n l.base + l.size))

/-- R348, R355, R357, R358 and R360: a DOWN link that is enabled trains, is UP once trained within its time, and DOWN after it or when
disabled; a link of the package that has failed trains no more; a bad flit puts an UP link into RETRY, the resent flits counted, which ends
with whole flits, or DOWN after RETRY_MAX resends of one flit; a codeword that FEC corrects is counted alone. -/
def LinkStates : Prop :=
  ∀ s : State,
    let n := s.arg.id
    let x := s.link n
    let lost (s : State) : Prop := ∃ r, r < 256 ∧ (s.reg (.lnkRoute r)).getLsbD n = true ∧ (s.setLink n { state := .down }).rankPorts r = []
    let bad := s.arg.flag = false ∨ 48 ≤ n
    (x.state = .down → s.boot ≠ .reset → linkReal n = true → n < 50 ∨ Bank.look s.links n = none →
      Leads .linkTrainStart s fun t => t.link n = { state := .training, since := s.time } ∧ (n < 48 → t.fld (.portCtl (n / 6) (n % 6)) 0 0 = 1)) ∧
    (50 ≤ n → (Bank.look s.links n).isSome = true → Machine.exec .linkTrainStart s = .next s) ∧
    (x.state = .training → s.time < x.since + 2 * 10 ^ 7 → Leads .linkTrained s fun t => t.link n = { state := .up }) ∧
    (n < 48 → x.state = .training → x.since + 2 * 10 ^ 7 ≤ s.time → ¬lost s → Leads .linkTrainTimeout s fun t =>
      t.link n = { state := .down } ∧ t.fld (.portCtl (n / 6) (n % 6)) 4 4 = 1) ∧
    (48 ≤ n → n < 50 → x.state = .training → x.since + 2 * 10 ^ 7 ≤ s.time → Leads .linkTrainTimeout s fun t => t.link n = { state := .down }) ∧
    (n < 48 → ¬lost s → Leads .linkDisable s fun t => t.fld (.portCtl (n / 6) (n % 6)) 0 0 = 0 ∧
      (x.state = .up → t.link n = { state := .down })) ∧
    (bad → x.state = .up → Leads .badFlit s fun t => (t.link n).state = .retry ∧ (t.link n).resends = 1 ∧ (t.link n).bad = s.arg.acc % 4096 ∧
      (n < 48 → t.fld (.portStat (n / 6) (n % 6)) 15 0 =
        min (s.fld (.portStat (n / 6) (n % 6)) 15 0 + max 1 (min 512 s.arg.size)) 65535)) ∧
    (s.arg.flag = true → n < 48 → x.state = .up ∨ x.state = .retry →
      Machine.exec .badFlit s = .next (s.bump (.portStat (n / 6) (n % 6)) 31 16 1)) ∧
    (x.state = .retry →
      (bad → x.bad ≠ s.arg.acc % 4096 → Leads .badFlit s fun t => (t.link n).state = .retry ∧ (t.link n).resends = 1) ∧
      (bad → x.bad = s.arg.acc % 4096 → x.resends < max 1 (s.fld (.nocCfg (linkDie n)) 47 40) →
        Leads .badFlit s fun t => (t.link n).state = .retry ∧ (t.link n).resends = x.resends + 1) ∧
      (bad → x.bad = s.arg.acc % 4096 → max 1 (s.fld (.nocCfg (linkDie n)) 47 40) ≤ x.resends → n < 50 → (n < 48 → ¬lost s) →
        Leads .badFlit s fun t => t.link n = { state := .down }) ∧
      (Leads .retryDone s fun t => t.link n = { state := .up }) ∧
      (n < 48 → ¬lost s → max 1 (s.fld (.nocCfg (n / 6)) 47 40) ≤ x.resends → Leads .retryExhausted s fun t => t.link n = { state := .down }))

/-- R354: at an output a promoted VC that waits goes first, the lowest number among several; without one a VC of weight 0 goes only where no
other waits, and a VC sends no more packets in its turn than its weight says. -/
def Arbitration : Prop :=
  ∀ (w : Nat → Nat) (waiting promoted : List Nat) (cur sent : Nat), cur < 4 →
    let p := nextVc w waiting promoted cur sent
    (∀ v, v < 4 → v ∈ waiting → v ∈ promoted → (∀ u, u < v → ¬(u ∈ waiting ∧ u ∈ promoted)) → p.1 = v) ∧
    ((∀ v, v < 4 → ¬(v ∈ waiting ∧ v ∈ promoted)) → (∃ v, v < 4 ∧ v ∈ waiting ∧ w v ≠ 0) → p.1 ∈ waiting ∧ w p.1 ≠ 0 ∧ p.2 ≤ w p.1)

/-- R18, R200, R350, R352 to R356: a request packet that the arbitration picks, the first of its source to its destination on
its plane, crosses one link in dimension order between routers that are ON, its VC's age at that output and plane ending; where another VC
goes first it ages by the cycles of that one's packet; an output where no request packet waits carries those of VC1 to VC3 by the same rule;
a VC of full age is promoted; an idle router powers down, a flit that comes in that cycle wins, and a wake brings it back. -/
def Routers : Prop :=
  (∀ (s : State) (o : MemOp) (a : Access) (r : Router) (out l : Nat),
    let x := s.router a.place
    let key := 16 * out + 4 * planeOf a.target a.goal
    let goes := s.mayLeave o a = true ∧ s.firstSent o a = true
    let waiting := (if goes then [0] else []) ++ [1, 2, 3].filter fun v => bit s.arg.code v
    let turn := Bank.lookD x.turns (key / 4) (3, 0)
    let pick := nextVc (s.vcWeight a.place.die) waiting ([0, 1, 2, 3].filter fun v => x.promoted.contains (key + v)) turn.1 turn.2
    s.hopAt s.arg.op s.arg.acc = some (o, a, r, out, l) → x.power = 0 → (s.router r).power = 0 → (s.link l).state = .up →
    (∀ v ∈ waiting, s.fld (.nocCfg a.place.die) 7 0 ≤ Bank.lookD x.ages (key + v) 0 → x.promoted.contains (key + v) = true) →
    (pick.1 = 0 → goes →
      Leads .routerForward s fun t => (∃ b n, t.opAt s.arg.op s.arg.acc = some ({ o with accs := b }, { a with place := r, sent := n })) ∧
        Bank.look (t.router a.place).ages key = none) ∧
    (waiting = [] → Machine.exec .routerForward s = .next s) ∧
    (pick.1 ≠ 0 → waiting ≠ [] → Leads .routerForward s fun t => t.ops = s.ops ∧
      Bank.lookD (t.router a.place).ages key 0 = Bank.lookD x.ages key 0 + if goes then max 1 (min 5 s.arg.size) else 0)) ∧
  (∀ (s : State) (next : Router) (l : Nat),
    let r := routerOf (s.arg.id % 384)
    let key := 4 * (s.arg.slot % 20)
    let x := s.router r
    let waiting := [1, 2, 3].filter fun v => bit s.arg.code v
    let turn := Bank.lookD x.turns (key / 4) (3, 0)
    let pick := nextVc (s.vcWeight r.die) waiting ([0, 1, 2, 3].filter fun v => x.promoted.contains (key + v)) turn.1 turn.2
    s.hopAt s.arg.op s.arg.acc = none → outputTo r (key / 16) = some (next, l) → x.power = 0 → (s.router next).power = 0 →
    (s.link l).state = .up → waiting ≠ [] →
    (∀ v ∈ waiting, s.fld (.nocCfg r.die) 7 0 ≤ Bank.lookD x.ages (key + v) 0 → x.promoted.contains (key + v) = true) →
    Leads .routerForward s fun t => t.ops = s.ops ∧ Bank.lookD (t.router r).turns (key / 4) (3, 0) = pick ∧
      Bank.look (t.router r).ages (key + pick.1) = none) ∧
  (∀ s : State,
    let n := s.arg.id
    let r := routerOf n
    let x := s.router r
    (s.fld (.nocCfg r.die) 7 0 ≤ Bank.lookD x.ages s.arg.code 0 → x.promoted.contains s.arg.code = false →
      Leads .vcPromote s fun t => (t.router r).promoted = x.promoted ++ [s.arg.code]) ∧
    (x.power = 0 → s.fld (.nocCfg r.die) 39 24 ≠ 0 → x.idleFrom + s.fld (.nocCfg r.die) 39 24 ≤ s.time → x.hold ≤ s.time →
      s.routerWanted r = false → Leads .routerPowerDown s fun t => (t.router r).power = 1) ∧
    (x.power = 0 → s.routerWanted r = true ∨ s.arg.flag = true → s.fld (.nocCfg r.die) 39 24 ≠ 0 →
      x.idleFrom + s.fld (.nocCfg r.die) 39 24 ≤ s.time → x.hold ≤ s.time →
      Leads .routerWake s fun t => (t.router r).power = 0 ∧ (t.router r).hold = s.time + 256) ∧
    (x.power = 1 → s.routerWanted r = true ∨ s.arg.flag = true → Leads .routerWake s fun t => (t.router r).power = 2 ∧ (t.router r).hold = s.time + 32) ∧
    (x.power = 2 → x.hold ≤ s.time → Leads .routerWakeDone s fun t => (t.router r).power = 0 ∧ (t.router r).hold = s.time + 256))

/-- R206, R210, R213, R357, R359 and R360: a packet of a peer is applied once for each end-to-end tag; one for another rank goes on through a port
of that rank, but for a fifth hop or without one; one for this part is refused unless its context is OPEN, and waits for its page; a load
is answered with its bytes, a store writes its own with the release that it carries, BINIT and BDROP are answered with their status. -/
def Peers : Prop :=
  ∀ s : State,
    let a := s.arg
    let tgt : Target := .global a.ctx (a.ia % 2 ^ 56) false
    (s.tagKnown a.id a.op = true ∨ peerForm a = false → Machine.exec .peerAccess s = .next s) ∧
    (s.tagKnown a.id a.op = false → peerForm a = true → a.rank ≠ s.fld .lnkDom 7 0 →
      let stuck := 4 ≤ a.hops ∨ (s.rankPort a.rank (homeHash a.ia)).isNone = true
      (¬stuck → Machine.exec .peerAccess s = .next (s.tagged a.id a.op)) ∧
      (stuck → Machine.exec .peerAccess s = .next ((s.tagged a.id a.op).peerReply a.id 0 fcLinkDown))) ∧
    (s.tagKnown a.id a.op = false → peerForm a = true → a.rank = s.fld .lnkDom 7 0 →
      ((s.ctx a.ctx).state ≠ .opened → Machine.exec .peerAccess s = .next ((s.tagged a.id a.op).peerReply a.id 0 fcPermission)) ∧
      ((s.ctx a.ctx).state = .opened → ∀ p u,
        (s.rangeGate tgt a.size true (a.code != 0 && a.code != 2) = (.wait, u) → Machine.exec .peerAccess s = .next u) ∧
        (s.rangeGate tgt a.size true (a.code != 0 && a.code != 2) = (.go p, u) →
          let v := u.tagged a.id a.op
          let w := v.settleAt tgt a.size
          let r := w.readT tgt 0 a.size
          let x := if 8 < a.size then a.data % 2 ^ (8 * a.size) else a.v.toNat % 2 ^ (8 * a.size)
          let line := v.binitAt tgt a.v { agent := .peer a.id, scope := a.slot } { ctx := a.ctx } {}
          let drop := v.bdropAt tgt { ctx := a.ctx }
          (a.code = 0 → Leads .peerAccess s fun t => Bank.look t.hostData (256 + a.id) = some (BitVec.ofNat 64 r.1) ∧
            Bank.look t.hostData (512 + a.id) = some 0 ∧ ∀ q, t.byteAt q = r.2.byteAt q) ∧
          (a.code = 1 → r.2.protectsRange tgt a.size = false → Machine.exec .peerAccess s = .next
            ((r.2.storeAt tgt a.size x (if a.flag then [{ agent := .peer a.id, scope := a.slot }] else [])).peerReply a.id 0 0)) ∧
          (a.code = 3 → Machine.exec .peerAccess s = .next (line.2.peerReply a.id (BitVec.ofNat 64 line.1) 0)) ∧
          (a.code = 4 → Machine.exec .peerAccess s = .next (drop.2.peerReply a.id (BitVec.ofNat 64 drop.1) 0)))))

/-- R206, R213, R361, R362 and R366: a port with IDE configured takes no access without it; a host's read of up to a line answers its bytes, and
all ones where it is refused; a write is a release at device scope, and one whose page is not resident stands in its port's queue; an error of
a context's memory is an UNCORRECTABLE record. -/
def Hosts : Prop :=
  (∀ s : State,
    let port := s.arg.port % 2
    let n := s.arg.size
    (portTakes port s.arg.flag = false → Machine.exec .hostApertureRead s = .next s ∧ Machine.exec .hostApertureWrite s = .next s) ∧
    (portTakes port s.arg.flag = true → 0 < n → n ≤ 128 → Bank.look s.hostQ port = none →
      (s.aperture port s.arg.addr n false = none →
        Leads .hostApertureRead s fun t => Bank.look t.hostData port = some (BitVec.allOnes 64) ∧ t.mem = s.mem) ∧
      ∀ ctx ia p u,
        let tgt : Target := .global ctx ia false
        (s.aperture port s.arg.addr n false = some (ctx, ia) → s.rangeGate tgt n false false = (.go p, u) →
          Leads .hostApertureRead s fun t => Bank.look t.hostData port = some (BitVec.ofNat 64 ((u.settleAt tgt n).readT tgt 0 n).1)) ∧
        (s.aperture port s.arg.addr n true = some (ctx, ia) → s.rangeGate tgt n false true = (.go p, u) → u.protectsRange tgt n = false →
          let r := (u.settleAt tgt n).storeAt tgt n (s.arg.hostValue % 2 ^ (8 * n)) [{ agent := .lanyard port, scope := 5 }]
          Machine.exec .hostApertureWrite s = .next { r with hostQ := Bank.drop r.hostQ port }) ∧
        (s.aperture port s.arg.addr n true = some (ctx, ia) → s.rangeGate tgt n false true = (.wait, u) →
          Leads .hostApertureWrite s fun t => Bank.look t.hostQ port = some [(s.arg.addr, n, s.arg.hostValue)]))) ∧
  (∀ s : State, s.arg.code = 1 → s.ctxOpen s.arg.ctx = true →
    Machine.exec .uncorrectable s =
      .next (s.writeRecord s.arg.ctx { code := fcUncorrectable, kind := 3, addr := BitVec.ofNat 64 s.arg.ia }))

end Sys2Proof.Claims

section PagesAndLinks
open Sys2Proof Sys2Proof.Machine Sys2Proof.Claims

/-- R330, R335 to R339, R341, R343 to R345: page commands and what becomes of pages (the choices of log entries 14, 59, 60 and 113 among the
clauses). -/
def Obligations.PagesAndCommands : Prop := PageCommands ∧ PageMoves

/-- Links, routers, peers, hosts and errors of storage. The links' numbers (log entry 34), a peer's answers and forms (69, 99), an access
without IDE (100) and one of up to 128 bytes (110) are the model's choices. -/
def Obligations.LinksAndAgents : Prop := LinkStates ∧ Arbitration ∧ Routers ∧ Peers ∧ Hosts

end PagesAndLinks

/-! ## The part, the debugger and the management registers (R99, R261, R307, R323, R326, R328, R401 to R411) -/
namespace Sys2Proof.Claims
open Sys2Proof.Machine

/-- R323, R328 and R402 to R409: power brings up the image that verifies, the main one unless Forestay is asked for, and HALTED stays
without one; a reset keeps storage and flash; BIST leads to READY, or HALTED with the unit's path; a hand-over takes an image in, commits
once no message is under way, and ends with a read in phase 4; each request for attestation is answered by one report; a link's messages
take and return permits, of which one kept for 1 ms of real time is a FIRMWARE record for each open context; Reef's clock follows the
average current; a droop event counts for 1 µs. -/
def PartLife : Prop :=
  (∀ s : State, s.boot = .reset →
    let main := imageVerifies (s.flashImage 0)
    let fore := imageVerifies (s.flashImage forestayBase)
    let wanted := s.arg.flag = false ∧ s.fld .fwCtl 1 1 = 0
    (wanted → main = true → Leads .powerGood s fun t => t.boot = .bist ∧ t.fld .fwStat 1 0 = 1 ∧ t.digest = imageDigest (s.flashImage 0)) ∧
    (¬(wanted ∧ main = true) → fore = true → Leads .powerGood s fun t => t.boot = .bist ∧ t.fld .fwStat 1 0 = 2) ∧
    (¬(wanted ∧ main = true) → fore = false → Leads .powerGood s fun t => t.boot = .halted)) ∧
  (∀ s : State,
    let port := s.arg.port % 2
    let denied := Host.Outcome.next (s.setFld .semOwner 2 2 1)
    (∀ i ∈ [Instr.partReset, .handoverStart, .fwImageWrite, .dbgDetach],
      (portTakes port s.arg.flag = false → Machine.exec i s = .next s) ∧
      (portTakes port s.arg.flag = true → ¬First s (sameReg s i) → StandsBack i s) ∧
      (Comes s i → s.semHolder ≠ some port → Machine.exec i s = denied)) ∧
    (s.semHolder = some port →
      (Comes s .partReset → Leads .partReset s fun t => t.mem = s.mem ∧ t.flash = s.flash ∧ t.kernels = [] ∧ t.cores = [] ∧ t.contexts = [] ∧
        (s.boot = .halted → t.boot = .reset) ∧ (s.boot ≠ .halted → t.boot = .bist ∨ t.boot = .halted)) ∧
      (Comes s .handoverStart → s.running = true → s.fld .fwStat 4 2 = 0 → Leads .handoverStart s fun t => t.fld .fwStat 4 2 = 1 ∧ t.incoming = []) ∧
      (Comes s .fwImageWrite → s.running = true → s.fld .fwStat 4 2 = 1 →
        let b := imageBytes (s.incoming ++ [s.arg.v])
        let whole := 8192 ≤ b.length ∧ imageSize b ≤ b.length
        (¬whole → Leads .fwImageWrite s fun t => t.incoming = s.incoming ++ [s.arg.v] ∧ t.fld .fwStat 4 2 = 1) ∧
        (whole → imageVerifies b = true → Leads .fwImageWrite s fun t => t.fld .fwStat 4 2 = 2 ∧ t.inDigest = imageDigest b) ∧
        (whole → imageVerifies b = false → Leads .fwImageWrite s fun t => t.fld .fwStat 4 2 = 0 ∧ t.fld .fwStat 5 5 = 1)))) ∧
  (∀ s : State, s.boot = .bist →
    (s.arg.flag = false → Leads .bistComplete s fun t => t.boot = .ready) ∧
    (s.arg.flag = true → bistPath s.arg.code = true → Leads .bistComplete s fun t => t.boot = .halted ∧ t.fld .bistRes 15 0 = s.arg.code ∧ t.fld .bistRes 16 16 = 1)) ∧
  (∀ s : State,
    (s.fld .fwStat 4 2 = 2 → (∀ x ∈ s.permits, x.2.sent = []) → Leads .handoverCommit s fun t => t.fld .fwStat 4 2 = 4 ∧ t.fld .fwStat 1 0 = 1) ∧
    (portTakes (s.arg.port % 2) s.arg.flag = true → s.fld .fwStat 4 2 = 4 → s.ctxCmds = [] → Leads .fwStatRead s fun t => t.fld .fwStat 4 2 = 0 ∧ t.digest = s.inDigest ∧
      Bank.look t.hostData (s.arg.port % 2) = some s.fwStatValue) ∧
    (s.boot = .bist ∨ s.boot = .ready → Leads .attestationRequest s fun t => ∃ r, t.reports = s.reports ++ [r] ∧ r.outgoing = s.digest ∧
      r.nonce = s.arg.addr % 2 ^ 256 ∧ (r.byIncoming = true ↔ s.fld .fwStat 4 2 = 4))) ∧
  (∀ s : State,
    let l := s.arg.id
    let x := Bank.lookD s.permits l {}
    let quiet := s.fld .fwStat 4 2 = 2
    (192 ≤ l ∨ s.boot ≠ .ready → Machine.exec .commandMessage s = .next s) ∧
    (l < 192 → s.boot = .ready →
      (s.arg.flag = true → x.sent.length < 8 → x.held = [] → ¬quiet → Leads .commandMessage s fun t =>
        (Bank.lookD t.permits l {}).sent = x.sent ++ [s.nextId] ∧ (Bank.lookD t.permits l {}).held = []) ∧
      (s.arg.flag = true → x.sent.length = 8 ∨ quiet → Leads .commandMessage s fun t =>
        (Bank.lookD t.permits l {}).sent = x.sent ∧ (Bank.lookD t.permits l {}).held = x.held ++ [s.nextId]) ∧
      (∀ m rest, s.arg.flag = false → x.sent = m :: rest → ¬quiet → Leads .commandMessage s fun t =>
        (Bank.lookD t.permits l {}).sent = rest ++ x.held.take (8 - rest.length) ∧ (Bank.lookD t.permits l {}).since = s.real)) ∧
    (x.sent ≠ [] → x.since + 1000 * realMicro ≤ s.real → (∀ c, c < 64 → s.ctxOpen c = false) →
      Leads .firmwareTimeout s fun t => Bank.lookD t.permits l {} = { x with since := s.real }) ∧
    (∀ c, x.sent ≠ [] → x.since + 1000 * realMicro ≤ s.real → c < 64 → (∀ d, d < 64 → (s.ctxOpen d = true ↔ d = c)) →
      Machine.exec .firmwareTimeout s = .next
        ({ s with permits := Bank.put s.permits l { x with since := s.real } }.writeRecord c { code := fcFirmware, kind := 3 }))) ∧
  (∀ s : State, s.reefAt + 2 * 10 ^ 6 ≤ s.time → s.arg.flag = false →
    let avg := s.arg.v.toNat % 2 ^ 12
    let limit := s.fld .reefLimit 11 0
    let clk := s.fld .reefStat 27 16
    Leads .reefInterval s fun t => t.fld .reefStat 11 0 = avg ∧ t.reefAt = s.time ∧ t.fld .reefStat 27 16 =
      if limit < avg then max 500 (clk - 50) else if 100 * avg ≤ 95 * limit then min 1000 (clk + 50) else clk) ∧
  (∀ s : State,
    (s.arg.size < 480 → s.arg.core < 1536 → Leads .droopEvent s fun t => t.droops = s.droops ++ [(s.arg.core, s.time)] ∧
      t.fld (.coreSens s.arg.core) 27 16 = s.arg.size ∧
      ((∀ w ∈ s.slow, w.1 ≠ coreBit s.arg.core) → ∀ n, n ≤ 1000 → t.coreAt s.arg.core (s.time + 2 * n) = s.time + n)) ∧
    ((∀ x ∈ s.droops, coreBit x.1 = s.arg.id → x.2 + 2000 ≤ s.time) →
      Leads .droopHoldEnd s fun t => t.droops = s.droops.filter (fun x => coreBit x.1 != s.arg.id)))

/-- The debugger's command of an operation may take effect: written by the owner of the semaphore, about a slot of an attached context, with
no other in progress (R323, R410), and no earlier one of port 0 in its cycle (R401). -/
def Debugs (s : State) (op c k : Nat) : Prop :=
  portTakes (s.arg.port % 2) s.arg.flag = true ∧ (First s fun j a => hostWrites j a == some .dbgCmd) ∧
  s.dbgCmd = none ∧ dbgOp s.arg.v = op ∧ s.semHolder = some (s.arg.port % 2) ∧ s.dbgMine s.arg.v = true ∧ dbgCore s.arg.v = c ∧ dbgSlot s.arg.v = k

/-- R75, R86, R99, R326 and R410: halt asks a group to stop, which it has at an instruction boundary, with an event of kind 4; release lets it
issue on; step lets one strand issue one instruction, with an event of kind 3, and a step that still waits can be cancelled; dump writes
the group's words at DBG_BUF and load reads them; a read of DBG_EVT takes the oldest event; a context that is detached has its halted groups
resumed. -/
def Debugger : Prop :=
  (∀ (s : State) (c k : Nat),
    let x := s.slot c k
    (Debugs s 1 c k → x.state = .active → Leads .dbgHalt s fun t => (t.slot c k).halting = true ∧ (t.slot c k).state = .active ∧
      t.dbgCmd = some s.arg.v ∧ t.group c k = x.group) ∧
    (Debugs s 2 c k → x.debugged = true → x.preempt = none → x.group.ending = none → Leads .dbgRelease s fun t => (t.slot c k).state = .active ∧ (t.group c k).strands = x.group.strands ∧
      t.dbgCmd = none ∧ t.fld .dbgStat 3 1 = 0) ∧
    (Debugs s 2 c k → x.debugged = false → Leads .dbgRelease s fun t => t.slot c k = x ∧ t.fld .dbgStat 3 1 = 2) ∧
    (∀ n, Debugs s 3 c k → x.debugged = true → x.group.step = none → dbgStrand s.arg.v x.group = some n → Leads .dbgStep s fun t =>
      (t.group c k).step = some { strand := n, waits := (x.group.strand n).state == .waiting, issued := false } ∧
        (t.group c k).strands = x.group.strands ∧ t.fld .dbgStat 3 1 = 0) ∧
    (∀ d, Debugs s 4 c k → x.group.step = some d → d.waits = true → (x.group.strand d.strand).state = .waiting →
      Leads .dbgCancelStep s fun t => (t.group c k).step = none ∧ (t.group c k).strands = x.group.strands ∧ t.fld .dbgStat 3 1 = 4) ∧
    (∀ u w, x.debugged = true → s.slotQuiet c k = true → s.reach x.group.task.ctx s.dbgBase x.group.saveSize w = (.present, u) →
      u.cores = s.cores → u.mgmt = s.mgmt →
      (Debugs s 5 c k → w = true → Machine.exec .dbgDump s = .next ((u.writeWords x.group.task.ctx s.dbgBase (x.group.saveWords k)).dbgResult 0)) ∧
      (Debugs s 6 c k → w = false → Leads .dbgLoad s fun t => t.fld .dbgStat 3 1 = 0 ∧
        t.group c k = x.group.loadDebug (u.readWords x.group.task.ctx s.dbgBase (x.group.saveSize / 8)).1))) ∧
  (∀ s : State,
    let c := s.arg.core
    let k := s.arg.slot
    let x := s.slot c k
    let g := s.group c k
    s.dbgEvents.length < 64 →
    (x.halting = true → x.state = .active → x.group.atBoundary = true → Leads .haltComplete s fun t => (t.slot c k).state = .frozen ∧ (t.slot c k).cause = .halt ∧
      (t.slot c k).halting = false ∧ t.group c k = g ∧
      t.dbgEvents = s.dbgEvents ++ [{ kind := 4, core := c, slot := k, strand := 0, code := 0, ctx := g.task.ctx }]) ∧
    (∀ d, g.step = some d → d.waits = false → d.issued = true → Leads .stepEnded s fun t => (t.group c k).step = none ∧
      (t.group c k).strands = g.strands ∧
      t.dbgEvents = s.dbgEvents ++ [{ kind := 3, core := c, slot := k, strand := d.strand, code := 0, ctx := g.task.ctx }])) ∧
  (∀ s : State, portTakes (s.arg.port % 2) s.arg.flag = true →
    (∀ e rest, s.dbgEvents = e :: rest → Leads .dbgEvtRead s fun t => t.dbgEvents = rest ∧
      Bank.look t.hostData (s.arg.port % 2) = some (BitVec.ofNat 64
        (1 + 2 * e.kind + 2 ^ 4 * e.core + 2 ^ 15 * e.slot + 2 ^ 20 * e.strand + 2 ^ 23 * e.code + 2 ^ 29 * e.ctx))) ∧
    (First s (sameReg s .dbgDetach) → s.semHolder = some (s.arg.port % 2) → (∀ c k, (s.slot c k).cause ≠ .policy) → Leads .dbgDetach s fun t => t.reg .dbgAttach = s.arg.v ∧
      ∀ c k,
        let x := s.slot c k
        x.debugged = true → x.halting = false → x.preempt = none → x.group.ending = none → (s.reg .dbgAttach &&& ~~~ s.arg.v).getLsbD x.group.task.ctx = true →
          (t.slot c k).state = .active ∧ (t.group c k).strands = x.group.strands))

/-- A read has returned a register's value, cleared its RC fields and left every other register (R411). -/
def Returns (s t : State) (r : Reg) : Prop :=
  Bank.look t.hostData (s.arg.port % 2) = some (s.regValue r) ∧ t.reg r = s.reg r &&& ~~~ r.rcMask ∧ ∀ q : Reg, q.addr ≠ r.addr → t.reg q = s.reg q

/-- The registers whose writes have no rule but their fields' codes, and take effect from either port. -/
def plainReg : Reg → Bool
  | .cpeList _ | .tskCfg _ | .tleCfg _ | .barCfg _ | .hlyXcluMin _ | .hlyXdieMin _ | .hlyCfg _ | .spillBase _ _ | .spillSize _ _
  | .aptIa _ _ | .aptCtl _ _ | .nqBase _ | .ordBase _ | .ordSize _ | .queCfg | .rgnBase | .rgnCnt | .sparPlace | .ctxRel _ | .ctxFqTail _
  | .spanVa _ _ | .spanIa _ _ | .spanCtl _ _ | .pgeCmdA | .pgeCmdB | .pgeCmdTag | .pgeRing | .lnkDom | .lnkRoute _ | .lnyRoute
  | .hwBase _ | .hwCtl _ | .hwVer _ => true
  | _ => false

/-- R319, R323, R401 and R411: a read of a status register returns it and clears its RC fields; an aligned 8-byte write changes a register's RW
bits and clears the WC bits written one; a write of another size, or where no register stands, has no effect, nor has one of a
context's register outside FREE; a control register's needs the semaphore; of two ports' writes to one register in a cycle port 0's comes
first; a port with IDE refuses what comes without it; a read that is not of 8 bytes, or where no register stands, returns all ones. -/
def RegisterAccess : Prop :=
  (∀ s : State, portTakes (s.arg.port % 2) s.arg.flag = false →
    ∀ i ∈ [Instr.barStatRead, .tskStatRead, .tleStatRead, .nocStatRead, .krnStatRead, .lnkPortStatRead, .lnyStatRead, .fwStatRead, .dbgEvtRead, .registerWrite],
      Machine.exec i s = .next s) ∧
  (∀ (s : State) (d p a n : Nat) (ide : Bool) (rest : List Turn), s.agenda = { delay := d, what := .read p a n ide } :: rest →
    let u := ({ s with agenda := rest } : State).pass d
    (portTakes (p % 2) ide = false → step s = .next u) ∧
    (portTakes (p % 2) ide = true →
      (n ≠ 8 ∨ Reg.ofAddr a = none → ∃ t, step s = .next t ∧ Bank.look t.hostData (p % 2) = some (BitVec.allOnes 64) ∧ t.mgmt = u.mgmt) ∧
      ∀ r, n = 8 → Reg.ofAddr a = some r → r ∉ [Reg.semOwner, .fwStat, .dbgEvt] →
        ∃ t, step s = .next t ∧ Bank.look t.hostData (p % 2) = some (u.regValue r) ∧ t.reg r = u.reg r &&& ~~~ r.rcMask)) ∧
  (∀ s : State, portTakes (s.arg.port % 2) s.arg.flag = true →
    (Leads .barStatRead s fun t => Returns s t (.barStat (s.arg.id % 8))) ∧
    (Leads .tskStatRead s fun t => Returns s t (.tskStat (s.arg.core % 1536))) ∧
    (Leads .tleStatRead s fun t => Returns s t (.tleStat (s.arg.core % 1536))) ∧
    (Leads .nocStatRead s fun t => Returns s t (.nocStat (s.arg.id % 8))) ∧
    (Leads .krnStatRead s fun t => Returns s t .krnStat) ∧
    (Leads .lnkPortStatRead s fun t => Returns s t (.portStat (s.arg.id % 48 / 6) (s.arg.id % 48 % 6))) ∧
    (Leads .lnyStatRead s fun t => Returns s t (.lnyStat (s.arg.id % 2)))) ∧
  (∀ s : State, portTakes (s.arg.port % 2) s.arg.flag = true → ¬First s (sameReg s .registerWrite) → StandsBack .registerWrite s) ∧
  (∀ s : State,
    let v := s.arg.v
    let r := Reg.ofAddr s.arg.addr
    Comes s .registerWrite →
    (s.arg.size ≠ 8 ∨ r = none → Machine.exec .registerWrite s = .next s) ∧
    (∀ q, s.arg.size = 8 → r = some q →
      (plainReg q = true → Leads .registerWrite s fun t => t.reg q = ((s.reg q &&& ~~~ q.rwMask) ||| (v &&& q.rwMask)) &&& ~~~(v &&& q.wcMask) ∧
        (∀ p : Reg, p.addr ≠ q.addr → t.reg p = s.reg p) ∧ t.mem = s.mem ∧ t.cores = s.cores) ∧
      (q.control = true → s.semHolder ≠ some (s.arg.port % 2) → Machine.exec .registerWrite s = .next (s.setFld .semOwner 2 2 1)) ∧
      ∀ n, q = .ctxIa n ∨ q = .ctxIaSize n ∨ q = .ctxPt n ∨ q = .ctxFq n ∨ q = .ctxCsp n ∨ q = .ctxSpad n →
        (s.ctx n).state ≠ .free → Machine.exec .registerWrite s = .next s))

end Sys2Proof.Claims

section ThePart
open Sys2Proof Sys2Proof.Machine Sys2Proof.Claims

/-- R323, R328 and R402 to R409: the part from power to a hand-over, its messages, clock and droop events. Storage that a reset keeps (log entry
36), HALTED to RESET (log entry 39), the digest (log entry 65), what a message holds (log entry 37), and the sensors and the droop window (log
entry 66) are the model's choices. -/
def Obligations.PartFromPower : Prop := PartLife

/-- R75, R86, R99, R319, R323, R326, R401, R410 and R411: the debugger and the registers of the management block. The results of a command that
finds a slot in another state or a step cancelled (log entry 68), and port 1's standing back (log entry 111), are the model's choices. -/
def Obligations.DebuggerAndRegisters : Prop := Debugger ∧ RegisterAccess

end ThePart
end

