-- ==== Sys2Proof/Laws/Bank.lean ====
section
/-! SUPPORT. Banks: what a look finds after a put or a drop, and a bank of all lanes. -/
namespace Sys2Proof.Machine

variable {α : Type}

@[simp] theorem Bank.look_nil (k : Nat) : Bank.look ([] : Bank α) k = none := rfl

@[simp] theorem Bank.look_put_same (b : Bank α) (k : Nat) (v : α) : Bank.look (Bank.put b k v) k = some v := by
  induction b with
  | nil => simp [Bank.put, Bank.look]
  | cons p t ih =>
    obtain ⟨j, w⟩ := p
    simp only [Bank.put]
    split
    · simp [Bank.look]
    · split
      · simp [Bank.look]
      · next h => simp [Bank.look, h, ih]

@[simp] theorem Bank.look_put_other (b : Bank α) (k n : Nat) (v : α) (h : n ≠ k) :
    Bank.look (Bank.put b k v) n = Bank.look b n := by
  induction b with
  | nil => simp [Bank.put, Bank.look, Ne.symm h]
  | cons p t ih =>
    obtain ⟨j, w⟩ := p
    simp only [Bank.put]
    split
    · simp [Bank.look, Ne.symm h]
    · split
      · next e => subst e; simp [Bank.look, Ne.symm h]
      · simp only [Bank.look, ih]

theorem Bank.look_put (b : Bank α) (k n : Nat) (v : α) :
    Bank.look (Bank.put b k v) n = if n = k then some v else Bank.look b n := by
  by_cases h : n = k
  · subst h; simp
  · simp [h]

@[simp] theorem Bank.lookD_put_same (b : Bank α) (k : Nat) (v d : α) : Bank.lookD (Bank.put b k v) k d = v := by
  simp [Bank.lookD]

@[simp] theorem Bank.lookD_put_other (b : Bank α) (k n : Nat) (v d : α) (h : n ≠ k) :
    Bank.lookD (Bank.put b k v) n d = Bank.lookD b n d := by
  simp [Bank.lookD, h]

theorem Bank.lookD_put (b : Bank α) (k n : Nat) (v d : α) :
    Bank.lookD (Bank.put b k v) n d = if n = k then v else Bank.lookD b n d := by
  by_cases h : n = k
  · subst h; simp
  · simp [h]

@[simp] theorem Bank.look_drop_same (b : Bank α) (k : Nat) : Bank.look (Bank.drop b k) k = none := by
  induction b with
  | nil => rfl
  | cons p t ih =>
    obtain ⟨j, w⟩ := p
    simp only [Bank.drop]
    split
    · exact ih
    · next h => simp only [Bank.look, if_neg h, ih]

@[simp] theorem Bank.look_drop_other (b : Bank α) (k n : Nat) (h : n ≠ k) : Bank.look (Bank.drop b k) n = Bank.look b n := by
  induction b with
  | nil => rfl
  | cons p t ih =>
    obtain ⟨j, w⟩ := p
    simp only [Bank.drop]
    split
    · next e => subst e; simp [Bank.look, Ne.symm h, ih]
    · simp only [Bank.look, ih]

theorem Bank.put_put_same (b : Bank α) (k : Nat) (v w : α) : Bank.put (Bank.put b k v) k w = Bank.put b k w := by
  induction b with
  | nil => simp [Bank.put]
  | cons p t ih =>
    obtain ⟨j, x⟩ := p
    simp only [Bank.put]
    split
    · simp [Bank.put]
    · split
      · simp [Bank.put]
      · simp [Bank.put, *]

theorem Bank.look_map_pair (l : List Nat) (f : Nat → α) (n : Nat) :
    Bank.look (l.map fun i => (i, f i)) n = if n ∈ l then some (f n) else none := by
  induction l with
  | nil => simp
  | cons a t ih =>
    simp only [List.map_cons, Bank.look, ih, List.mem_cons]
    by_cases h : a = n
    · subst h; simp
    · simp [h, Ne.symm h]

/-- A lane's value among values given for all lanes. -/
@[simp] theorem Lanes.at_of (f : Nat → Word) (l : Nat) : Lanes.at (Lanes.of f) l = if l < 64 then f l else 0 := by
  simp only [Lanes.at, Lanes.of, Bank.lookD, Bank.look_map_pair, allLanes, List.mem_range]
  split <;> rfl

@[simp] theorem Lanes64.at_of (f : Nat → DWord) (l : Nat) : Lanes64.at (Lanes64.of f) l = if l < 64 then f l else 0 := by
  simp only [Lanes64.at, Lanes64.of, Bank.lookD, Bank.look_map_pair, allLanes, List.mem_range]
  split <;> rfl

end Sys2Proof.Machine
end

