-- ==== Sys2Proof/Laws/Group.lean ====
section
/-! SUPPORT. What each update of a group leaves as it was and what it changes: registers of every class, strands, flags. -/
namespace Sys2Proof.Machine

variable (g : Group)

/-! ## setStrand -/

@[simp] theorem Group.setStrand_task (n : Nat) (x : Strand) : (g.setStrand n x).task = g.task := rfl
@[simp] theorem Group.setStrand_vc (n : Nat) (x : Strand) : (g.setStrand n x).vc = g.vc := rfl
@[simp] theorem Group.setStrand_tc (n : Nat) (x : Strand) : (g.setStrand n x).tc = g.tc := rfl
@[simp] theorem Group.setStrand_ac (n : Nat) (x : Strand) : (g.setStrand n x).ac = g.ac := rfl
@[simp] theorem Group.setStrand_lc (n : Nat) (x : Strand) : (g.setStrand n x).lc = g.lc := rfl
@[simp] theorem Group.setStrand_exited (n : Nat) (x : Strand) : (g.setStrand n x).exited = g.exited := rfl
@[simp] theorem Group.setStrand_flags (n : Nat) (x : Strand) : (g.setStrand n x).flags = g.flags := rfl
@[simp] theorem Group.setStrand_gens (n : Nat) (x : Strand) : (g.setStrand n x).gens = g.gens := rfl
@[simp] theorem Group.setStrand_sregs (n : Nat) (x : Strand) : (g.setStrand n x).sregs = g.sregs := rfl
@[simp] theorem Group.setStrand_pregs (n : Nat) (x : Strand) : (g.setStrand n x).pregs = g.pregs := rfl
@[simp] theorem Group.setStrand_qregs (n : Nat) (x : Strand) : (g.setStrand n x).qregs = g.qregs := rfl
@[simp] theorem Group.setStrand_kregs (n : Nat) (x : Strand) : (g.setStrand n x).kregs = g.kregs := rfl
@[simp] theorem Group.setStrand_vregs (n : Nat) (x : Strand) : (g.setStrand n x).vregs = g.vregs := rfl
@[simp] theorem Group.setStrand_tiles (n : Nat) (x : Strand) : (g.setStrand n x).tiles = g.tiles := rfl
@[simp] theorem Group.setStrand_accums (n : Nat) (x : Strand) : (g.setStrand n x).accums = g.accums := rfl
@[simp] theorem Group.setStrand_tokens (n : Nat) (x : Strand) : (g.setStrand n x).tokens = g.tokens := rfl
@[simp] theorem Group.setStrand_made (n : Nat) (x : Strand) : (g.setStrand n x).made = g.made := rfl
@[simp] theorem Group.setStrand_outst (n : Nat) (x : Strand) : (g.setStrand n x).outst = g.outst := rfl
@[simp] theorem Group.setStrand_ld (n : Nat) (x : Strand) : (g.setStrand n x).ld = g.ld := rfl
@[simp] theorem Group.setStrand_st (n : Nat) (x : Strand) : (g.setStrand n x).st = g.st := rfl
@[simp] theorem Group.setStrand_cp (n : Nat) (x : Strand) : (g.setStrand n x).cp = g.cp := rfl
@[simp] theorem Group.setStrand_tl (n : Nat) (x : Strand) : (g.setStrand n x).tl = g.tl := rfl
@[simp] theorem Group.setStrand_ms (n : Nat) (x : Strand) : (g.setStrand n x).ms = g.ms := rfl
@[simp] theorem Group.setStrand_frames (n : Nat) (x : Strand) : (g.setStrand n x).frames = g.frames := rfl
@[simp] theorem Group.setStrand_ending (n : Nat) (x : Strand) : (g.setStrand n x).ending = g.ending := rfl
@[simp] theorem Group.setStrand_faulted (n : Nat) (x : Strand) : (g.setStrand n x).faulted = g.faulted := rfl
@[simp] theorem Group.setStrand_step (n : Nat) (x : Strand) : (g.setStrand n x).step = g.step := rfl
@[simp] theorem Group.setStrand_mmaqs (n : Nat) (x : Strand) : (g.setStrand n x).mmaqs = g.mmaqs := rfl
@[simp] theorem Group.setStrand_mmaqBad (n : Nat) (x : Strand) : (g.setStrand n x).mmaqBad = g.mmaqBad := rfl
@[simp] theorem Group.setStrand_uid (n : Nat) (x : Strand) : (g.setStrand n x).uid = g.uid := rfl
@[simp] theorem Group.setStrand_heard (n : Nat) (x : Strand) : (g.setStrand n x).heard = g.heard := rfl
@[simp] theorem Group.setStrand_unseen (n : Nat) (x : Strand) : (g.setStrand n x).unseen = g.unseen := rfl

/-! ## setToken -/

@[simp] theorem Group.setToken_task (n : Nat) (x : Token) : (g.setToken n x).task = g.task := rfl
@[simp] theorem Group.setToken_vc (n : Nat) (x : Token) : (g.setToken n x).vc = g.vc := rfl
@[simp] theorem Group.setToken_tc (n : Nat) (x : Token) : (g.setToken n x).tc = g.tc := rfl
@[simp] theorem Group.setToken_ac (n : Nat) (x : Token) : (g.setToken n x).ac = g.ac := rfl
@[simp] theorem Group.setToken_lc (n : Nat) (x : Token) : (g.setToken n x).lc = g.lc := rfl
@[simp] theorem Group.setToken_exited (n : Nat) (x : Token) : (g.setToken n x).exited = g.exited := rfl
@[simp] theorem Group.setToken_flags (n : Nat) (x : Token) : (g.setToken n x).flags = g.flags := rfl
@[simp] theorem Group.setToken_gens (n : Nat) (x : Token) : (g.setToken n x).gens = g.gens := rfl
@[simp] theorem Group.setToken_sregs (n : Nat) (x : Token) : (g.setToken n x).sregs = g.sregs := rfl
@[simp] theorem Group.setToken_pregs (n : Nat) (x : Token) : (g.setToken n x).pregs = g.pregs := rfl
@[simp] theorem Group.setToken_qregs (n : Nat) (x : Token) : (g.setToken n x).qregs = g.qregs := rfl
@[simp] theorem Group.setToken_kregs (n : Nat) (x : Token) : (g.setToken n x).kregs = g.kregs := rfl
@[simp] theorem Group.setToken_vregs (n : Nat) (x : Token) : (g.setToken n x).vregs = g.vregs := rfl
@[simp] theorem Group.setToken_tiles (n : Nat) (x : Token) : (g.setToken n x).tiles = g.tiles := rfl
@[simp] theorem Group.setToken_accums (n : Nat) (x : Token) : (g.setToken n x).accums = g.accums := rfl
@[simp] theorem Group.setToken_strands (n : Nat) (x : Token) : (g.setToken n x).strands = g.strands := rfl
@[simp] theorem Group.setToken_made (n : Nat) (x : Token) : (g.setToken n x).made = g.made := rfl
@[simp] theorem Group.setToken_outst (n : Nat) (x : Token) : (g.setToken n x).outst = g.outst := rfl
@[simp] theorem Group.setToken_ld (n : Nat) (x : Token) : (g.setToken n x).ld = g.ld := rfl
@[simp] theorem Group.setToken_st (n : Nat) (x : Token) : (g.setToken n x).st = g.st := rfl
@[simp] theorem Group.setToken_cp (n : Nat) (x : Token) : (g.setToken n x).cp = g.cp := rfl
@[simp] theorem Group.setToken_tl (n : Nat) (x : Token) : (g.setToken n x).tl = g.tl := rfl
@[simp] theorem Group.setToken_ms (n : Nat) (x : Token) : (g.setToken n x).ms = g.ms := rfl
@[simp] theorem Group.setToken_frames (n : Nat) (x : Token) : (g.setToken n x).frames = g.frames := rfl
@[simp] theorem Group.setToken_ending (n : Nat) (x : Token) : (g.setToken n x).ending = g.ending := rfl
@[simp] theorem Group.setToken_faulted (n : Nat) (x : Token) : (g.setToken n x).faulted = g.faulted := rfl
@[simp] theorem Group.setToken_step (n : Nat) (x : Token) : (g.setToken n x).step = g.step := rfl
@[simp] theorem Group.setToken_mmaqs (n : Nat) (x : Token) : (g.setToken n x).mmaqs = g.mmaqs := rfl
@[simp] theorem Group.setToken_mmaqBad (n : Nat) (x : Token) : (g.setToken n x).mmaqBad = g.mmaqBad := rfl
@[simp] theorem Group.setToken_uid (n : Nat) (x : Token) : (g.setToken n x).uid = g.uid := rfl
@[simp] theorem Group.setToken_heard (n : Nat) (x : Token) : (g.setToken n x).heard = g.heard := rfl
@[simp] theorem Group.setToken_unseen (n : Nat) (x : Token) : (g.setToken n x).unseen = g.unseen := rfl

/-! ## setQ -/

@[simp] theorem Group.setQ_task (n : Nat) (v : Half) : (g.setQ n v).task = g.task := rfl
@[simp] theorem Group.setQ_vc (n : Nat) (v : Half) : (g.setQ n v).vc = g.vc := rfl
@[simp] theorem Group.setQ_tc (n : Nat) (v : Half) : (g.setQ n v).tc = g.tc := rfl
@[simp] theorem Group.setQ_ac (n : Nat) (v : Half) : (g.setQ n v).ac = g.ac := rfl
@[simp] theorem Group.setQ_lc (n : Nat) (v : Half) : (g.setQ n v).lc = g.lc := rfl
@[simp] theorem Group.setQ_exited (n : Nat) (v : Half) : (g.setQ n v).exited = g.exited := rfl
@[simp] theorem Group.setQ_flags (n : Nat) (v : Half) : (g.setQ n v).flags = g.flags := rfl
@[simp] theorem Group.setQ_gens (n : Nat) (v : Half) : (g.setQ n v).gens = g.gens := rfl
@[simp] theorem Group.setQ_sregs (n : Nat) (v : Half) : (g.setQ n v).sregs = g.sregs := rfl
@[simp] theorem Group.setQ_pregs (n : Nat) (v : Half) : (g.setQ n v).pregs = g.pregs := rfl
@[simp] theorem Group.setQ_kregs (n : Nat) (v : Half) : (g.setQ n v).kregs = g.kregs := rfl
@[simp] theorem Group.setQ_vregs (n : Nat) (v : Half) : (g.setQ n v).vregs = g.vregs := rfl
@[simp] theorem Group.setQ_tiles (n : Nat) (v : Half) : (g.setQ n v).tiles = g.tiles := rfl
@[simp] theorem Group.setQ_accums (n : Nat) (v : Half) : (g.setQ n v).accums = g.accums := rfl
@[simp] theorem Group.setQ_strands (n : Nat) (v : Half) : (g.setQ n v).strands = g.strands := rfl
@[simp] theorem Group.setQ_tokens (n : Nat) (v : Half) : (g.setQ n v).tokens = g.tokens := rfl
@[simp] theorem Group.setQ_made (n : Nat) (v : Half) : (g.setQ n v).made = g.made := rfl
@[simp] theorem Group.setQ_outst (n : Nat) (v : Half) : (g.setQ n v).outst = g.outst := rfl
@[simp] theorem Group.setQ_ld (n : Nat) (v : Half) : (g.setQ n v).ld = g.ld := rfl
@[simp] theorem Group.setQ_st (n : Nat) (v : Half) : (g.setQ n v).st = g.st := rfl
@[simp] theorem Group.setQ_cp (n : Nat) (v : Half) : (g.setQ n v).cp = g.cp := rfl
@[simp] theorem Group.setQ_tl (n : Nat) (v : Half) : (g.setQ n v).tl = g.tl := rfl
@[simp] theorem Group.setQ_ms (n : Nat) (v : Half) : (g.setQ n v).ms = g.ms := rfl
@[simp] theorem Group.setQ_frames (n : Nat) (v : Half) : (g.setQ n v).frames = g.frames := rfl
@[simp] theorem Group.setQ_ending (n : Nat) (v : Half) : (g.setQ n v).ending = g.ending := rfl
@[simp] theorem Group.setQ_faulted (n : Nat) (v : Half) : (g.setQ n v).faulted = g.faulted := rfl
@[simp] theorem Group.setQ_step (n : Nat) (v : Half) : (g.setQ n v).step = g.step := rfl
@[simp] theorem Group.setQ_mmaqs (n : Nat) (v : Half) : (g.setQ n v).mmaqs = g.mmaqs := rfl
@[simp] theorem Group.setQ_mmaqBad (n : Nat) (v : Half) : (g.setQ n v).mmaqBad = g.mmaqBad := rfl
@[simp] theorem Group.setQ_uid (n : Nat) (v : Half) : (g.setQ n v).uid = g.uid := rfl
@[simp] theorem Group.setQ_heard (n : Nat) (v : Half) : (g.setQ n v).heard = g.heard := rfl
@[simp] theorem Group.setQ_unseen (n : Nat) (v : Half) : (g.setQ n v).unseen = g.unseen := rfl

/-! ## setK -/

@[simp] theorem Group.setK_task (n : Nat) (v : DWord) : (g.setK n v).task = g.task := rfl
@[simp] theorem Group.setK_vc (n : Nat) (v : DWord) : (g.setK n v).vc = g.vc := rfl
@[simp] theorem Group.setK_tc (n : Nat) (v : DWord) : (g.setK n v).tc = g.tc := rfl
@[simp] theorem Group.setK_ac (n : Nat) (v : DWord) : (g.setK n v).ac = g.ac := rfl
@[simp] theorem Group.setK_lc (n : Nat) (v : DWord) : (g.setK n v).lc = g.lc := rfl
@[simp] theorem Group.setK_exited (n : Nat) (v : DWord) : (g.setK n v).exited = g.exited := rfl
@[simp] theorem Group.setK_flags (n : Nat) (v : DWord) : (g.setK n v).flags = g.flags := rfl
@[simp] theorem Group.setK_gens (n : Nat) (v : DWord) : (g.setK n v).gens = g.gens := rfl
@[simp] theorem Group.setK_sregs (n : Nat) (v : DWord) : (g.setK n v).sregs = g.sregs := rfl
@[simp] theorem Group.setK_pregs (n : Nat) (v : DWord) : (g.setK n v).pregs = g.pregs := rfl
@[simp] theorem Group.setK_qregs (n : Nat) (v : DWord) : (g.setK n v).qregs = g.qregs := rfl
@[simp] theorem Group.setK_vregs (n : Nat) (v : DWord) : (g.setK n v).vregs = g.vregs := rfl
@[simp] theorem Group.setK_tiles (n : Nat) (v : DWord) : (g.setK n v).tiles = g.tiles := rfl
@[simp] theorem Group.setK_accums (n : Nat) (v : DWord) : (g.setK n v).accums = g.accums := rfl
@[simp] theorem Group.setK_strands (n : Nat) (v : DWord) : (g.setK n v).strands = g.strands := rfl
@[simp] theorem Group.setK_tokens (n : Nat) (v : DWord) : (g.setK n v).tokens = g.tokens := rfl
@[simp] theorem Group.setK_made (n : Nat) (v : DWord) : (g.setK n v).made = g.made := rfl
@[simp] theorem Group.setK_outst (n : Nat) (v : DWord) : (g.setK n v).outst = g.outst := rfl
@[simp] theorem Group.setK_ld (n : Nat) (v : DWord) : (g.setK n v).ld = g.ld := rfl
@[simp] theorem Group.setK_st (n : Nat) (v : DWord) : (g.setK n v).st = g.st := rfl
@[simp] theorem Group.setK_cp (n : Nat) (v : DWord) : (g.setK n v).cp = g.cp := rfl
@[simp] theorem Group.setK_tl (n : Nat) (v : DWord) : (g.setK n v).tl = g.tl := rfl
@[simp] theorem Group.setK_ms (n : Nat) (v : DWord) : (g.setK n v).ms = g.ms := rfl
@[simp] theorem Group.setK_frames (n : Nat) (v : DWord) : (g.setK n v).frames = g.frames := rfl
@[simp] theorem Group.setK_ending (n : Nat) (v : DWord) : (g.setK n v).ending = g.ending := rfl
@[simp] theorem Group.setK_faulted (n : Nat) (v : DWord) : (g.setK n v).faulted = g.faulted := rfl
@[simp] theorem Group.setK_step (n : Nat) (v : DWord) : (g.setK n v).step = g.step := rfl
@[simp] theorem Group.setK_mmaqs (n : Nat) (v : DWord) : (g.setK n v).mmaqs = g.mmaqs := rfl
@[simp] theorem Group.setK_mmaqBad (n : Nat) (v : DWord) : (g.setK n v).mmaqBad = g.mmaqBad := rfl
@[simp] theorem Group.setK_uid (n : Nat) (v : DWord) : (g.setK n v).uid = g.uid := rfl
@[simp] theorem Group.setK_heard (n : Nat) (v : DWord) : (g.setK n v).heard = g.heard := rfl
@[simp] theorem Group.setK_unseen (n : Nat) (v : DWord) : (g.setK n v).unseen = g.unseen := rfl

/-! ## setTile -/

@[simp] theorem Group.setTile_task (n : Nat) (x : Tile) : (g.setTile n x).task = g.task := rfl
@[simp] theorem Group.setTile_vc (n : Nat) (x : Tile) : (g.setTile n x).vc = g.vc := rfl
@[simp] theorem Group.setTile_tc (n : Nat) (x : Tile) : (g.setTile n x).tc = g.tc := rfl
@[simp] theorem Group.setTile_ac (n : Nat) (x : Tile) : (g.setTile n x).ac = g.ac := rfl
@[simp] theorem Group.setTile_lc (n : Nat) (x : Tile) : (g.setTile n x).lc = g.lc := rfl
@[simp] theorem Group.setTile_exited (n : Nat) (x : Tile) : (g.setTile n x).exited = g.exited := rfl
@[simp] theorem Group.setTile_flags (n : Nat) (x : Tile) : (g.setTile n x).flags = g.flags := rfl
@[simp] theorem Group.setTile_gens (n : Nat) (x : Tile) : (g.setTile n x).gens = g.gens := rfl
@[simp] theorem Group.setTile_sregs (n : Nat) (x : Tile) : (g.setTile n x).sregs = g.sregs := rfl
@[simp] theorem Group.setTile_pregs (n : Nat) (x : Tile) : (g.setTile n x).pregs = g.pregs := rfl
@[simp] theorem Group.setTile_qregs (n : Nat) (x : Tile) : (g.setTile n x).qregs = g.qregs := rfl
@[simp] theorem Group.setTile_kregs (n : Nat) (x : Tile) : (g.setTile n x).kregs = g.kregs := rfl
@[simp] theorem Group.setTile_vregs (n : Nat) (x : Tile) : (g.setTile n x).vregs = g.vregs := rfl
@[simp] theorem Group.setTile_accums (n : Nat) (x : Tile) : (g.setTile n x).accums = g.accums := rfl
@[simp] theorem Group.setTile_strands (n : Nat) (x : Tile) : (g.setTile n x).strands = g.strands := rfl
@[simp] theorem Group.setTile_tokens (n : Nat) (x : Tile) : (g.setTile n x).tokens = g.tokens := rfl
@[simp] theorem Group.setTile_made (n : Nat) (x : Tile) : (g.setTile n x).made = g.made := rfl
@[simp] theorem Group.setTile_outst (n : Nat) (x : Tile) : (g.setTile n x).outst = g.outst := rfl
@[simp] theorem Group.setTile_ld (n : Nat) (x : Tile) : (g.setTile n x).ld = g.ld := rfl
@[simp] theorem Group.setTile_st (n : Nat) (x : Tile) : (g.setTile n x).st = g.st := rfl
@[simp] theorem Group.setTile_cp (n : Nat) (x : Tile) : (g.setTile n x).cp = g.cp := rfl
@[simp] theorem Group.setTile_tl (n : Nat) (x : Tile) : (g.setTile n x).tl = g.tl := rfl
@[simp] theorem Group.setTile_ms (n : Nat) (x : Tile) : (g.setTile n x).ms = g.ms := rfl
@[simp] theorem Group.setTile_frames (n : Nat) (x : Tile) : (g.setTile n x).frames = g.frames := rfl
@[simp] theorem Group.setTile_ending (n : Nat) (x : Tile) : (g.setTile n x).ending = g.ending := rfl
@[simp] theorem Group.setTile_faulted (n : Nat) (x : Tile) : (g.setTile n x).faulted = g.faulted := rfl
@[simp] theorem Group.setTile_step (n : Nat) (x : Tile) : (g.setTile n x).step = g.step := rfl
@[simp] theorem Group.setTile_mmaqs (n : Nat) (x : Tile) : (g.setTile n x).mmaqs = g.mmaqs := rfl
@[simp] theorem Group.setTile_mmaqBad (n : Nat) (x : Tile) : (g.setTile n x).mmaqBad = g.mmaqBad := rfl
@[simp] theorem Group.setTile_uid (n : Nat) (x : Tile) : (g.setTile n x).uid = g.uid := rfl
@[simp] theorem Group.setTile_heard (n : Nat) (x : Tile) : (g.setTile n x).heard = g.heard := rfl
@[simp] theorem Group.setTile_unseen (n : Nat) (x : Tile) : (g.setTile n x).unseen = g.unseen := rfl

/-! ## setAccum -/

@[simp] theorem Group.setAccum_task (n : Nat) (x : Accum) : (g.setAccum n x).task = g.task := rfl
@[simp] theorem Group.setAccum_vc (n : Nat) (x : Accum) : (g.setAccum n x).vc = g.vc := rfl
@[simp] theorem Group.setAccum_tc (n : Nat) (x : Accum) : (g.setAccum n x).tc = g.tc := rfl
@[simp] theorem Group.setAccum_ac (n : Nat) (x : Accum) : (g.setAccum n x).ac = g.ac := rfl
@[simp] theorem Group.setAccum_lc (n : Nat) (x : Accum) : (g.setAccum n x).lc = g.lc := rfl
@[simp] theorem Group.setAccum_exited (n : Nat) (x : Accum) : (g.setAccum n x).exited = g.exited := rfl
@[simp] theorem Group.setAccum_flags (n : Nat) (x : Accum) : (g.setAccum n x).flags = g.flags := rfl
@[simp] theorem Group.setAccum_gens (n : Nat) (x : Accum) : (g.setAccum n x).gens = g.gens := rfl
@[simp] theorem Group.setAccum_sregs (n : Nat) (x : Accum) : (g.setAccum n x).sregs = g.sregs := rfl
@[simp] theorem Group.setAccum_pregs (n : Nat) (x : Accum) : (g.setAccum n x).pregs = g.pregs := rfl
@[simp] theorem Group.setAccum_qregs (n : Nat) (x : Accum) : (g.setAccum n x).qregs = g.qregs := rfl
@[simp] theorem Group.setAccum_kregs (n : Nat) (x : Accum) : (g.setAccum n x).kregs = g.kregs := rfl
@[simp] theorem Group.setAccum_vregs (n : Nat) (x : Accum) : (g.setAccum n x).vregs = g.vregs := rfl
@[simp] theorem Group.setAccum_tiles (n : Nat) (x : Accum) : (g.setAccum n x).tiles = g.tiles := rfl
@[simp] theorem Group.setAccum_strands (n : Nat) (x : Accum) : (g.setAccum n x).strands = g.strands := rfl
@[simp] theorem Group.setAccum_tokens (n : Nat) (x : Accum) : (g.setAccum n x).tokens = g.tokens := rfl
@[simp] theorem Group.setAccum_made (n : Nat) (x : Accum) : (g.setAccum n x).made = g.made := rfl
@[simp] theorem Group.setAccum_outst (n : Nat) (x : Accum) : (g.setAccum n x).outst = g.outst := rfl
@[simp] theorem Group.setAccum_ld (n : Nat) (x : Accum) : (g.setAccum n x).ld = g.ld := rfl
@[simp] theorem Group.setAccum_st (n : Nat) (x : Accum) : (g.setAccum n x).st = g.st := rfl
@[simp] theorem Group.setAccum_cp (n : Nat) (x : Accum) : (g.setAccum n x).cp = g.cp := rfl
@[simp] theorem Group.setAccum_tl (n : Nat) (x : Accum) : (g.setAccum n x).tl = g.tl := rfl
@[simp] theorem Group.setAccum_ms (n : Nat) (x : Accum) : (g.setAccum n x).ms = g.ms := rfl
@[simp] theorem Group.setAccum_frames (n : Nat) (x : Accum) : (g.setAccum n x).frames = g.frames := rfl
@[simp] theorem Group.setAccum_ending (n : Nat) (x : Accum) : (g.setAccum n x).ending = g.ending := rfl
@[simp] theorem Group.setAccum_faulted (n : Nat) (x : Accum) : (g.setAccum n x).faulted = g.faulted := rfl
@[simp] theorem Group.setAccum_step (n : Nat) (x : Accum) : (g.setAccum n x).step = g.step := rfl
@[simp] theorem Group.setAccum_mmaqs (n : Nat) (x : Accum) : (g.setAccum n x).mmaqs = g.mmaqs := rfl
@[simp] theorem Group.setAccum_mmaqBad (n : Nat) (x : Accum) : (g.setAccum n x).mmaqBad = g.mmaqBad := rfl
@[simp] theorem Group.setAccum_uid (n : Nat) (x : Accum) : (g.setAccum n x).uid = g.uid := rfl
@[simp] theorem Group.setAccum_heard (n : Nat) (x : Accum) : (g.setAccum n x).heard = g.heard := rfl
@[simp] theorem Group.setAccum_unseen (n : Nat) (x : Accum) : (g.setAccum n x).unseen = g.unseen := rfl

/-! ## raise -/

@[simp] theorem Group.raise_task (fl : Nat) : (g.raise fl).task = g.task := rfl
@[simp] theorem Group.raise_vc (fl : Nat) : (g.raise fl).vc = g.vc := rfl
@[simp] theorem Group.raise_tc (fl : Nat) : (g.raise fl).tc = g.tc := rfl
@[simp] theorem Group.raise_ac (fl : Nat) : (g.raise fl).ac = g.ac := rfl
@[simp] theorem Group.raise_lc (fl : Nat) : (g.raise fl).lc = g.lc := rfl
@[simp] theorem Group.raise_exited (fl : Nat) : (g.raise fl).exited = g.exited := rfl
@[simp] theorem Group.raise_gens (fl : Nat) : (g.raise fl).gens = g.gens := rfl
@[simp] theorem Group.raise_sregs (fl : Nat) : (g.raise fl).sregs = g.sregs := rfl
@[simp] theorem Group.raise_pregs (fl : Nat) : (g.raise fl).pregs = g.pregs := rfl
@[simp] theorem Group.raise_qregs (fl : Nat) : (g.raise fl).qregs = g.qregs := rfl
@[simp] theorem Group.raise_kregs (fl : Nat) : (g.raise fl).kregs = g.kregs := rfl
@[simp] theorem Group.raise_vregs (fl : Nat) : (g.raise fl).vregs = g.vregs := rfl
@[simp] theorem Group.raise_tiles (fl : Nat) : (g.raise fl).tiles = g.tiles := rfl
@[simp] theorem Group.raise_accums (fl : Nat) : (g.raise fl).accums = g.accums := rfl
@[simp] theorem Group.raise_strands (fl : Nat) : (g.raise fl).strands = g.strands := rfl
@[simp] theorem Group.raise_tokens (fl : Nat) : (g.raise fl).tokens = g.tokens := rfl
@[simp] theorem Group.raise_made (fl : Nat) : (g.raise fl).made = g.made := rfl
@[simp] theorem Group.raise_outst (fl : Nat) : (g.raise fl).outst = g.outst := rfl
@[simp] theorem Group.raise_ld (fl : Nat) : (g.raise fl).ld = g.ld := rfl
@[simp] theorem Group.raise_st (fl : Nat) : (g.raise fl).st = g.st := rfl
@[simp] theorem Group.raise_cp (fl : Nat) : (g.raise fl).cp = g.cp := rfl
@[simp] theorem Group.raise_tl (fl : Nat) : (g.raise fl).tl = g.tl := rfl
@[simp] theorem Group.raise_ms (fl : Nat) : (g.raise fl).ms = g.ms := rfl
@[simp] theorem Group.raise_frames (fl : Nat) : (g.raise fl).frames = g.frames := rfl
@[simp] theorem Group.raise_ending (fl : Nat) : (g.raise fl).ending = g.ending := rfl
@[simp] theorem Group.raise_faulted (fl : Nat) : (g.raise fl).faulted = g.faulted := rfl
@[simp] theorem Group.raise_step (fl : Nat) : (g.raise fl).step = g.step := rfl
@[simp] theorem Group.raise_mmaqs (fl : Nat) : (g.raise fl).mmaqs = g.mmaqs := rfl
@[simp] theorem Group.raise_mmaqBad (fl : Nat) : (g.raise fl).mmaqBad = g.mmaqBad := rfl
@[simp] theorem Group.raise_uid (fl : Nat) : (g.raise fl).uid = g.uid := rfl
@[simp] theorem Group.raise_heard (fl : Nat) : (g.raise fl).heard = g.heard := rfl
@[simp] theorem Group.raise_unseen (fl : Nat) : (g.raise fl).unseen = g.unseen := rfl

/-! ## setS -/

@[simp] theorem Group.setS_task (n : Nat) (v : DWord) : (g.setS n v).task = g.task := by
  unfold Group.setS; split <;> rfl
@[simp] theorem Group.setS_vc (n : Nat) (v : DWord) : (g.setS n v).vc = g.vc := by
  unfold Group.setS; split <;> rfl
@[simp] theorem Group.setS_tc (n : Nat) (v : DWord) : (g.setS n v).tc = g.tc := by
  unfold Group.setS; split <;> rfl
@[simp] theorem Group.setS_ac (n : Nat) (v : DWord) : (g.setS n v).ac = g.ac := by
  unfold Group.setS; split <;> rfl
@[simp] theorem Group.setS_lc (n : Nat) (v : DWord) : (g.setS n v).lc = g.lc := by
  unfold Group.setS; split <;> rfl
@[simp] theorem Group.setS_exited (n : Nat) (v : DWord) : (g.setS n v).exited = g.exited := by
  unfold Group.setS; split <;> rfl
@[simp] theorem Group.setS_flags (n : Nat) (v : DWord) : (g.setS n v).flags = g.flags := by
  unfold Group.setS; split <;> rfl
@[simp] theorem Group.setS_gens (n : Nat) (v : DWord) : (g.setS n v).gens = g.gens := by
  unfold Group.setS; split <;> rfl
@[simp] theorem Group.setS_pregs (n : Nat) (v : DWord) : (g.setS n v).pregs = g.pregs := by
  unfold Group.setS; split <;> rfl
@[simp] theorem Group.setS_qregs (n : Nat) (v : DWord) : (g.setS n v).qregs = g.qregs := by
  unfold Group.setS; split <;> rfl
@[simp] theorem Group.setS_kregs (n : Nat) (v : DWord) : (g.setS n v).kregs = g.kregs := by
  unfold Group.setS; split <;> rfl
@[simp] theorem Group.setS_vregs (n : Nat) (v : DWord) : (g.setS n v).vregs = g.vregs := by
  unfold Group.setS; split <;> rfl
@[simp] theorem Group.setS_tiles (n : Nat) (v : DWord) : (g.setS n v).tiles = g.tiles := by
  unfold Group.setS; split <;> rfl
@[simp] theorem Group.setS_accums (n : Nat) (v : DWord) : (g.setS n v).accums = g.accums := by
  unfold Group.setS; split <;> rfl
@[simp] theorem Group.setS_strands (n : Nat) (v : DWord) : (g.setS n v).strands = g.strands := by
  unfold Group.setS; split <;> rfl
@[simp] theorem Group.setS_tokens (n : Nat) (v : DWord) : (g.setS n v).tokens = g.tokens := by
  unfold Group.setS; split <;> rfl
@[simp] theorem Group.setS_made (n : Nat) (v : DWord) : (g.setS n v).made = g.made := by
  unfold Group.setS; split <;> rfl
@[simp] theorem Group.setS_outst (n : Nat) (v : DWord) : (g.setS n v).outst = g.outst := by
  unfold Group.setS; split <;> rfl
@[simp] theorem Group.setS_ld (n : Nat) (v : DWord) : (g.setS n v).ld = g.ld := by
  unfold Group.setS; split <;> rfl
@[simp] theorem Group.setS_st (n : Nat) (v : DWord) : (g.setS n v).st = g.st := by
  unfold Group.setS; split <;> rfl
@[simp] theorem Group.setS_cp (n : Nat) (v : DWord) : (g.setS n v).cp = g.cp := by
  unfold Group.setS; split <;> rfl
@[simp] theorem Group.setS_tl (n : Nat) (v : DWord) : (g.setS n v).tl = g.tl := by
  unfold Group.setS; split <;> rfl
@[simp] theorem Group.setS_ms (n : Nat) (v : DWord) : (g.setS n v).ms = g.ms := by
  unfold Group.setS; split <;> rfl
@[simp] theorem Group.setS_frames (n : Nat) (v : DWord) : (g.setS n v).frames = g.frames := by
  unfold Group.setS; split <;> rfl
@[simp] theorem Group.setS_ending (n : Nat) (v : DWord) : (g.setS n v).ending = g.ending := by
  unfold Group.setS; split <;> rfl
@[simp] theorem Group.setS_faulted (n : Nat) (v : DWord) : (g.setS n v).faulted = g.faulted := by
  unfold Group.setS; split <;> rfl
@[simp] theorem Group.setS_step (n : Nat) (v : DWord) : (g.setS n v).step = g.step := by
  unfold Group.setS; split <;> rfl
@[simp] theorem Group.setS_mmaqs (n : Nat) (v : DWord) : (g.setS n v).mmaqs = g.mmaqs := by
  unfold Group.setS; split <;> rfl
@[simp] theorem Group.setS_mmaqBad (n : Nat) (v : DWord) : (g.setS n v).mmaqBad = g.mmaqBad := by
  unfold Group.setS; split <;> rfl
@[simp] theorem Group.setS_uid (n : Nat) (v : DWord) : (g.setS n v).uid = g.uid := by
  unfold Group.setS; split <;> rfl
@[simp] theorem Group.setS_heard (n : Nat) (v : DWord) : (g.setS n v).heard = g.heard := by
  unfold Group.setS; split <;> rfl
@[simp] theorem Group.setS_unseen (n : Nat) (v : DWord) : (g.setS n v).unseen = g.unseen := by
  unfold Group.setS; split <;> rfl

/-! ## setP -/

@[simp] theorem Group.setP_task (n : Nat) (v : DWord) : (g.setP n v).task = g.task := by
  unfold Group.setP; split <;> rfl
@[simp] theorem Group.setP_vc (n : Nat) (v : DWord) : (g.setP n v).vc = g.vc := by
  unfold Group.setP; split <;> rfl
@[simp] theorem Group.setP_tc (n : Nat) (v : DWord) : (g.setP n v).tc = g.tc := by
  unfold Group.setP; split <;> rfl
@[simp] theorem Group.setP_ac (n : Nat) (v : DWord) : (g.setP n v).ac = g.ac := by
  unfold Group.setP; split <;> rfl
@[simp] theorem Group.setP_lc (n : Nat) (v : DWord) : (g.setP n v).lc = g.lc := by
  unfold Group.setP; split <;> rfl
@[simp] theorem Group.setP_exited (n : Nat) (v : DWord) : (g.setP n v).exited = g.exited := by
  unfold Group.setP; split <;> rfl
@[simp] theorem Group.setP_flags (n : Nat) (v : DWord) : (g.setP n v).flags = g.flags := by
  unfold Group.setP; split <;> rfl
@[simp] theorem Group.setP_gens (n : Nat) (v : DWord) : (g.setP n v).gens = g.gens := by
  unfold Group.setP; split <;> rfl
@[simp] theorem Group.setP_sregs (n : Nat) (v : DWord) : (g.setP n v).sregs = g.sregs := by
  unfold Group.setP; split <;> rfl
@[simp] theorem Group.setP_qregs (n : Nat) (v : DWord) : (g.setP n v).qregs = g.qregs := by
  unfold Group.setP; split <;> rfl
@[simp] theorem Group.setP_kregs (n : Nat) (v : DWord) : (g.setP n v).kregs = g.kregs := by
  unfold Group.setP; split <;> rfl
@[simp] theorem Group.setP_vregs (n : Nat) (v : DWord) : (g.setP n v).vregs = g.vregs := by
  unfold Group.setP; split <;> rfl
@[simp] theorem Group.setP_tiles (n : Nat) (v : DWord) : (g.setP n v).tiles = g.tiles := by
  unfold Group.setP; split <;> rfl
@[simp] theorem Group.setP_accums (n : Nat) (v : DWord) : (g.setP n v).accums = g.accums := by
  unfold Group.setP; split <;> rfl
@[simp] theorem Group.setP_strands (n : Nat) (v : DWord) : (g.setP n v).strands = g.strands := by
  unfold Group.setP; split <;> rfl
@[simp] theorem Group.setP_tokens (n : Nat) (v : DWord) : (g.setP n v).tokens = g.tokens := by
  unfold Group.setP; split <;> rfl
@[simp] theorem Group.setP_made (n : Nat) (v : DWord) : (g.setP n v).made = g.made := by
  unfold Group.setP; split <;> rfl
@[simp] theorem Group.setP_outst (n : Nat) (v : DWord) : (g.setP n v).outst = g.outst := by
  unfold Group.setP; split <;> rfl
@[simp] theorem Group.setP_ld (n : Nat) (v : DWord) : (g.setP n v).ld = g.ld := by
  unfold Group.setP; split <;> rfl
@[simp] theorem Group.setP_st (n : Nat) (v : DWord) : (g.setP n v).st = g.st := by
  unfold Group.setP; split <;> rfl
@[simp] theorem Group.setP_cp (n : Nat) (v : DWord) : (g.setP n v).cp = g.cp := by
  unfold Group.setP; split <;> rfl
@[simp] theorem Group.setP_tl (n : Nat) (v : DWord) : (g.setP n v).tl = g.tl := by
  unfold Group.setP; split <;> rfl
@[simp] theorem Group.setP_ms (n : Nat) (v : DWord) : (g.setP n v).ms = g.ms := by
  unfold Group.setP; split <;> rfl
@[simp] theorem Group.setP_frames (n : Nat) (v : DWord) : (g.setP n v).frames = g.frames := by
  unfold Group.setP; split <;> rfl
@[simp] theorem Group.setP_ending (n : Nat) (v : DWord) : (g.setP n v).ending = g.ending := by
  unfold Group.setP; split <;> rfl
@[simp] theorem Group.setP_faulted (n : Nat) (v : DWord) : (g.setP n v).faulted = g.faulted := by
  unfold Group.setP; split <;> rfl
@[simp] theorem Group.setP_step (n : Nat) (v : DWord) : (g.setP n v).step = g.step := by
  unfold Group.setP; split <;> rfl
@[simp] theorem Group.setP_mmaqs (n : Nat) (v : DWord) : (g.setP n v).mmaqs = g.mmaqs := by
  unfold Group.setP; split <;> rfl
@[simp] theorem Group.setP_mmaqBad (n : Nat) (v : DWord) : (g.setP n v).mmaqBad = g.mmaqBad := by
  unfold Group.setP; split <;> rfl
@[simp] theorem Group.setP_uid (n : Nat) (v : DWord) : (g.setP n v).uid = g.uid := by
  unfold Group.setP; split <;> rfl
@[simp] theorem Group.setP_heard (n : Nat) (v : DWord) : (g.setP n v).heard = g.heard := by
  unfold Group.setP; split <;> rfl
@[simp] theorem Group.setP_unseen (n : Nat) (v : DWord) : (g.setP n v).unseen = g.unseen := by
  unfold Group.setP; split <;> rfl

/-! ## setV -/

@[simp] theorem Group.setV_task (n : Nat) (m : DWord) (f : Nat → Word) : (g.setV n m f).task = g.task := by
  unfold Group.setV; split <;> rfl
@[simp] theorem Group.setV_vc (n : Nat) (m : DWord) (f : Nat → Word) : (g.setV n m f).vc = g.vc := by
  unfold Group.setV; split <;> rfl
@[simp] theorem Group.setV_tc (n : Nat) (m : DWord) (f : Nat → Word) : (g.setV n m f).tc = g.tc := by
  unfold Group.setV; split <;> rfl
@[simp] theorem Group.setV_ac (n : Nat) (m : DWord) (f : Nat → Word) : (g.setV n m f).ac = g.ac := by
  unfold Group.setV; split <;> rfl
@[simp] theorem Group.setV_lc (n : Nat) (m : DWord) (f : Nat → Word) : (g.setV n m f).lc = g.lc := by
  unfold Group.setV; split <;> rfl
@[simp] theorem Group.setV_exited (n : Nat) (m : DWord) (f : Nat → Word) : (g.setV n m f).exited = g.exited := by
  unfold Group.setV; split <;> rfl
@[simp] theorem Group.setV_flags (n : Nat) (m : DWord) (f : Nat → Word) : (g.setV n m f).flags = g.flags := by
  unfold Group.setV; split <;> rfl
@[simp] theorem Group.setV_gens (n : Nat) (m : DWord) (f : Nat → Word) : (g.setV n m f).gens = g.gens := by
  unfold Group.setV; split <;> rfl
@[simp] theorem Group.setV_sregs (n : Nat) (m : DWord) (f : Nat → Word) : (g.setV n m f).sregs = g.sregs := by
  unfold Group.setV; split <;> rfl
@[simp] theorem Group.setV_pregs (n : Nat) (m : DWord) (f : Nat → Word) : (g.setV n m f).pregs = g.pregs := by
  unfold Group.setV; split <;> rfl
@[simp] theorem Group.setV_qregs (n : Nat) (m : DWord) (f : Nat → Word) : (g.setV n m f).qregs = g.qregs := by
  unfold Group.setV; split <;> rfl
@[simp] theorem Group.setV_kregs (n : Nat) (m : DWord) (f : Nat → Word) : (g.setV n m f).kregs = g.kregs := by
  unfold Group.setV; split <;> rfl
@[simp] theorem Group.setV_tiles (n : Nat) (m : DWord) (f : Nat → Word) : (g.setV n m f).tiles = g.tiles := by
  unfold Group.setV; split <;> rfl
@[simp] theorem Group.setV_accums (n : Nat) (m : DWord) (f : Nat → Word) : (g.setV n m f).accums = g.accums := by
  unfold Group.setV; split <;> rfl
@[simp] theorem Group.setV_strands (n : Nat) (m : DWord) (f : Nat → Word) : (g.setV n m f).strands = g.strands := by
  unfold Group.setV; split <;> rfl
@[simp] theorem Group.setV_tokens (n : Nat) (m : DWord) (f : Nat → Word) : (g.setV n m f).tokens = g.tokens := by
  unfold Group.setV; split <;> rfl
@[simp] theorem Group.setV_made (n : Nat) (m : DWord) (f : Nat → Word) : (g.setV n m f).made = g.made := by
  unfold Group.setV; split <;> rfl
@[simp] theorem Group.setV_outst (n : Nat) (m : DWord) (f : Nat → Word) : (g.setV n m f).outst = g.outst := by
  unfold Group.setV; split <;> rfl
@[simp] theorem Group.setV_ld (n : Nat) (m : DWord) (f : Nat → Word) : (g.setV n m f).ld = g.ld := by
  unfold Group.setV; split <;> rfl
@[simp] theorem Group.setV_st (n : Nat) (m : DWord) (f : Nat → Word) : (g.setV n m f).st = g.st := by
  unfold Group.setV; split <;> rfl
@[simp] theorem Group.setV_cp (n : Nat) (m : DWord) (f : Nat → Word) : (g.setV n m f).cp = g.cp := by
  unfold Group.setV; split <;> rfl
@[simp] theorem Group.setV_tl (n : Nat) (m : DWord) (f : Nat → Word) : (g.setV n m f).tl = g.tl := by
  unfold Group.setV; split <;> rfl
@[simp] theorem Group.setV_ms (n : Nat) (m : DWord) (f : Nat → Word) : (g.setV n m f).ms = g.ms := by
  unfold Group.setV; split <;> rfl
@[simp] theorem Group.setV_frames (n : Nat) (m : DWord) (f : Nat → Word) : (g.setV n m f).frames = g.frames := by
  unfold Group.setV; split <;> rfl
@[simp] theorem Group.setV_ending (n : Nat) (m : DWord) (f : Nat → Word) : (g.setV n m f).ending = g.ending := by
  unfold Group.setV; split <;> rfl
@[simp] theorem Group.setV_faulted (n : Nat) (m : DWord) (f : Nat → Word) : (g.setV n m f).faulted = g.faulted := by
  unfold Group.setV; split <;> rfl
@[simp] theorem Group.setV_step (n : Nat) (m : DWord) (f : Nat → Word) : (g.setV n m f).step = g.step := by
  unfold Group.setV; split <;> rfl
@[simp] theorem Group.setV_mmaqs (n : Nat) (m : DWord) (f : Nat → Word) : (g.setV n m f).mmaqs = g.mmaqs := by
  unfold Group.setV; split <;> rfl
@[simp] theorem Group.setV_mmaqBad (n : Nat) (m : DWord) (f : Nat → Word) : (g.setV n m f).mmaqBad = g.mmaqBad := by
  unfold Group.setV; split <;> rfl
@[simp] theorem Group.setV_uid (n : Nat) (m : DWord) (f : Nat → Word) : (g.setV n m f).uid = g.uid := by
  unfold Group.setV; split <;> rfl
@[simp] theorem Group.setV_heard (n : Nat) (m : DWord) (f : Nat → Word) : (g.setV n m f).heard = g.heard := by
  unfold Group.setV; split <;> rfl
@[simp] theorem Group.setV_unseen (n : Nat) (m : DWord) (f : Nat → Word) : (g.setV n m f).unseen = g.unseen := by
  unfold Group.setV; split <;> rfl

/-! ## Reading registers after a write -/

theorem Group.sreg_setS (n m : Nat) (v : DWord) : (g.setS n v).sreg m = if m = n ∧ n ≠ 63 then v else g.sreg m := by
  unfold Group.setS Group.sreg
  by_cases hn : n = 63
  · simp [hn]
  · by_cases hm : m = 63
    · subst hm; simp [Ne.symm hn]
    · simp [hn, hm, Bank.lookD_put]

theorem Group.preg_setP (n m : Nat) (v : DWord) : (g.setP n v).preg m = if m = n ∧ n ≠ 15 then v else g.preg m := by
  unfold Group.setP Group.preg
  by_cases hn : n = 15
  · simp [hn]
  · by_cases hm : m = 15
    · subst hm; simp [Ne.symm hn]
    · simp [hn, hm, Bank.lookD_put]

theorem Group.vreg_setV (n m l : Nat) (msk : DWord) (f : Nat → Word) (h : l < 64) :
    (g.setV n msk f).vreg m l = if m = n ∧ n ≠ 63 ∧ msk.getLsbD l = true then f l else g.vreg m l := by
  unfold Group.setV Group.vreg
  by_cases hn : n = 63
  · simp [hn]
  · by_cases hm : m = 63
    · subst hm; simp [Ne.symm hn]
    · by_cases e : m = n
      · subst e; simp [hn, h]
      · simp [hn, hm, e]

@[simp] theorem Group.qreg_setQ_same (n : Nat) (v : Half) (h : n ≠ 0) : (g.setQ n v).qreg n = v := by
  simp [Group.qreg, Group.setQ, h]

@[simp] theorem Group.kreg_setK_same (n : Nat) (v : DWord) : (g.setK n v).kreg n = v := by
  simp [Group.kreg, Group.setK]

@[simp] theorem Group.tile_setTile_same (n : Nat) (x : Tile) : (g.setTile n x).tile n = x := by
  simp [Group.tile, Group.setTile]

@[simp] theorem Group.accum_setAccum_same (n : Nat) (x : Accum) : (g.setAccum n x).accum n = x := by
  simp [Group.accum, Group.setAccum]

@[simp] theorem Group.strand_setStrand_same (n : Nat) (x : Strand) : (g.setStrand n x).strand n = x := by
  simp [Group.strand, Group.setStrand]

@[simp] theorem Group.strand_setStrand_other (n m : Nat) (x : Strand) (h : m ≠ n) : (g.setStrand n x).strand m = g.strand m := by
  simp [Group.strand, Group.setStrand, h]

@[simp] theorem Group.setStrand_setStrand (n : Nat) (x y : Strand) : (g.setStrand n x).setStrand n y = g.setStrand n y := by
  simp [Group.setStrand, Bank.put_put_same]

/-- A register of any class reads the same in groups whose banks of that class are equal. -/
theorem Group.sreg_congr {g g' : Group} (h : g.sregs = g'.sregs) (n : Nat) : g.sreg n = g'.sreg n := by simp [Group.sreg, h]
theorem Group.preg_congr {g g' : Group} (h : g.pregs = g'.pregs) (n : Nat) : g.preg n = g'.preg n := by simp [Group.preg, h]
theorem Group.vreg_congr {g g' : Group} (h : g.vregs = g'.vregs) (n l : Nat) : g.vreg n l = g'.vreg n l := by simp [Group.vreg, h]

end Sys2Proof.Machine
end

