-- ==== Sys2Proof/Laws/State.lean ====
section
/-! SUPPORT. What each update of State leaves as it was, field by field, and what it changes: no later proof unfolds a record update. -/
namespace Sys2Proof.Machine

variable (s : State)

/-! ## setCore -/

@[simp] theorem State.setCore_time (c : Nat) (x : CoreState) : (s.setCore c x).time = s.time := rfl
@[simp] theorem State.setCore_agenda (c : Nat) (x : CoreState) : (s.setCore c x).agenda = s.agenda := rfl
@[simp] theorem State.setCore_arg (c : Nat) (x : CoreState) : (s.setCore c x).arg = s.arg := rfl
@[simp] theorem State.setCore_cur (c : Nat) (x : CoreState) : (s.setCore c x).cur = s.cur := rfl
@[simp] theorem State.setCore_draws (c : Nat) (x : CoreState) : (s.setCore c x).draws = s.draws := rfl
@[simp] theorem State.setCore_nextId (c : Nat) (x : CoreState) : (s.setCore c x).nextId = s.nextId := rfl
@[simp] theorem State.setCore_mem (c : Nat) (x : CoreState) : (s.setCore c x).mem = s.mem := rfl
@[simp] theorem State.setCore_l2 (c : Nat) (x : CoreState) : (s.setCore c x).l2 = s.l2 := rfl
@[simp] theorem State.setCore_held (c : Nat) (x : CoreState) : (s.setCore c x).held = s.held := rfl
@[simp] theorem State.setCore_releases (c : Nat) (x : CoreState) : (s.setCore c x).releases = s.releases := rfl
@[simp] theorem State.setCore_mgmt (c : Nat) (x : CoreState) : (s.setCore c x).mgmt = s.mgmt := rfl
@[simp] theorem State.setCore_ops (c : Nat) (x : CoreState) : (s.setCore c x).ops = s.ops := rfl
@[simp] theorem State.setCore_waits (c : Nat) (x : CoreState) : (s.setCore c x).waits = s.waits := rfl
@[simp] theorem State.setCore_lines (c : Nat) (x : CoreState) : (s.setCore c x).lines = s.lines := rfl
@[simp] theorem State.setCore_pending (c : Nat) (x : CoreState) : (s.setCore c x).pending = s.pending := rfl
@[simp] theorem State.setCore_spawns (c : Nat) (x : CoreState) : (s.setCore c x).spawns = s.spawns := rfl
@[simp] theorem State.setCore_contexts (c : Nat) (x : CoreState) : (s.setCore c x).contexts = s.contexts := rfl
@[simp] theorem State.setCore_kernels (c : Nat) (x : CoreState) : (s.setCore c x).kernels = s.kernels := rfl
@[simp] theorem State.setCore_launches (c : Nat) (x : CoreState) : (s.setCore c x).launches = s.launches := rfl
@[simp] theorem State.setCore_reuse (c : Nat) (x : CoreState) : (s.setCore c x).reuse = s.reuse := rfl
@[simp] theorem State.setCore_queues (c : Nat) (x : CoreState) : (s.setCore c x).queues = s.queues := rfl
@[simp] theorem State.setCore_graphs (c : Nat) (x : CoreState) : (s.setCore c x).graphs = s.graphs := rfl
@[simp] theorem State.setCore_regions (c : Nat) (x : CoreState) : (s.setCore c x).regions = s.regions := rfl
@[simp] theorem State.setCore_saves (c : Nat) (x : CoreState) : (s.setCore c x).saves = s.saves := rfl
@[simp] theorem State.setCore_pages (c : Nat) (x : CoreState) : (s.setCore c x).pages = s.pages := rfl
@[simp] theorem State.setCore_leases (c : Nat) (x : CoreState) : (s.setCore c x).leases = s.leases := rfl
@[simp] theorem State.setCore_leaseReqs (c : Nat) (x : CoreState) : (s.setCore c x).leaseReqs = s.leaseReqs := rfl
@[simp] theorem State.setCore_pageCmds (c : Nat) (x : CoreState) : (s.setCore c x).pageCmds = s.pageCmds := rfl
@[simp] theorem State.setCore_ptCache (c : Nat) (x : CoreState) : (s.setCore c x).ptCache = s.ptCache := rfl
@[simp] theorem State.setCore_code (c : Nat) (x : CoreState) : (s.setCore c x).code = s.code := rfl
@[simp] theorem State.setCore_pageUse (c : Nat) (x : CoreState) : (s.setCore c x).pageUse = s.pageUse := rfl
@[simp] theorem State.setCore_ringHeld (c : Nat) (x : CoreState) : (s.setCore c x).ringHeld = s.ringHeld := rfl
@[simp] theorem State.setCore_notices (c : Nat) (x : CoreState) : (s.setCore c x).notices = s.notices := rfl
@[simp] theorem State.setCore_logSeq (c : Nat) (x : CoreState) : (s.setCore c x).logSeq = s.logSeq := rfl
@[simp] theorem State.setCore_ordMode (c : Nat) (x : CoreState) : (s.setCore c x).ordMode = s.ordMode := rfl
@[simp] theorem State.setCore_links (c : Nat) (x : CoreState) : (s.setCore c x).links = s.links := rfl
@[simp] theorem State.setCore_routers (c : Nat) (x : CoreState) : (s.setCore c x).routers = s.routers := rfl
@[simp] theorem State.setCore_boot (c : Nat) (x : CoreState) : (s.setCore c x).boot = s.boot := rfl
@[simp] theorem State.setCore_strap (c : Nat) (x : CoreState) : (s.setCore c x).strap = s.strap := rfl
@[simp] theorem State.setCore_flash (c : Nat) (x : CoreState) : (s.setCore c x).flash = s.flash := rfl
@[simp] theorem State.setCore_incoming (c : Nat) (x : CoreState) : (s.setCore c x).incoming = s.incoming := rfl
@[simp] theorem State.setCore_digest (c : Nat) (x : CoreState) : (s.setCore c x).digest = s.digest := rfl
@[simp] theorem State.setCore_inDigest (c : Nat) (x : CoreState) : (s.setCore c x).inDigest = s.inDigest := rfl
@[simp] theorem State.setCore_reports (c : Nat) (x : CoreState) : (s.setCore c x).reports = s.reports := rfl
@[simp] theorem State.setCore_permits (c : Nat) (x : CoreState) : (s.setCore c x).permits = s.permits := rfl
@[simp] theorem State.setCore_ctxCmds (c : Nat) (x : CoreState) : (s.setCore c x).ctxCmds = s.ctxCmds := rfl
@[simp] theorem State.setCore_semBeat (c : Nat) (x : CoreState) : (s.setCore c x).semBeat = s.semBeat := rfl
@[simp] theorem State.setCore_dbgEvents (c : Nat) (x : CoreState) : (s.setCore c x).dbgEvents = s.dbgEvents := rfl
@[simp] theorem State.setCore_dbgCmd (c : Nat) (x : CoreState) : (s.setCore c x).dbgCmd = s.dbgCmd := rfl
@[simp] theorem State.setCore_droops (c : Nat) (x : CoreState) : (s.setCore c x).droops = s.droops := rfl
@[simp] theorem State.setCore_slow (c : Nat) (x : CoreState) : (s.setCore c x).slow = s.slow := rfl
@[simp] theorem State.setCore_reefAt (c : Nat) (x : CoreState) : (s.setCore c x).reefAt = s.reefAt := rfl
@[simp] theorem State.setCore_hostData (c : Nat) (x : CoreState) : (s.setCore c x).hostData = s.hostData := rfl
@[simp] theorem State.setCore_tags (c : Nat) (x : CoreState) : (s.setCore c x).tags = s.tags := rfl
@[simp] theorem State.setCore_real (c : Nat) (x : CoreState) : (s.setCore c x).real = s.real := rfl
@[simp] theorem State.setCore_hostQ (c : Nat) (x : CoreState) : (s.setCore c x).hostQ = s.hostQ := rfl
@[simp] theorem State.setCore_owners (c : Nat) (x : CoreState) : (s.setCore c x).owners = s.owners := rfl
@[simp] theorem State.setCore_peerRefused (c : Nat) (x : CoreState) : (s.setCore c x).peerRefused = s.peerRefused := rfl

/-! ## setSlot -/

@[simp] theorem State.setSlot_time (c k : Nat) (x : Slot) : (s.setSlot c k x).time = s.time := rfl
@[simp] theorem State.setSlot_agenda (c k : Nat) (x : Slot) : (s.setSlot c k x).agenda = s.agenda := rfl
@[simp] theorem State.setSlot_arg (c k : Nat) (x : Slot) : (s.setSlot c k x).arg = s.arg := rfl
@[simp] theorem State.setSlot_cur (c k : Nat) (x : Slot) : (s.setSlot c k x).cur = s.cur := rfl
@[simp] theorem State.setSlot_draws (c k : Nat) (x : Slot) : (s.setSlot c k x).draws = s.draws := rfl
@[simp] theorem State.setSlot_nextId (c k : Nat) (x : Slot) : (s.setSlot c k x).nextId = s.nextId := rfl
@[simp] theorem State.setSlot_mem (c k : Nat) (x : Slot) : (s.setSlot c k x).mem = s.mem := rfl
@[simp] theorem State.setSlot_l2 (c k : Nat) (x : Slot) : (s.setSlot c k x).l2 = s.l2 := rfl
@[simp] theorem State.setSlot_held (c k : Nat) (x : Slot) : (s.setSlot c k x).held = s.held := rfl
@[simp] theorem State.setSlot_releases (c k : Nat) (x : Slot) : (s.setSlot c k x).releases = s.releases := rfl
@[simp] theorem State.setSlot_mgmt (c k : Nat) (x : Slot) : (s.setSlot c k x).mgmt = s.mgmt := rfl
@[simp] theorem State.setSlot_ops (c k : Nat) (x : Slot) : (s.setSlot c k x).ops = s.ops := rfl
@[simp] theorem State.setSlot_waits (c k : Nat) (x : Slot) : (s.setSlot c k x).waits = s.waits := rfl
@[simp] theorem State.setSlot_lines (c k : Nat) (x : Slot) : (s.setSlot c k x).lines = s.lines := rfl
@[simp] theorem State.setSlot_pending (c k : Nat) (x : Slot) : (s.setSlot c k x).pending = s.pending := rfl
@[simp] theorem State.setSlot_spawns (c k : Nat) (x : Slot) : (s.setSlot c k x).spawns = s.spawns := rfl
@[simp] theorem State.setSlot_contexts (c k : Nat) (x : Slot) : (s.setSlot c k x).contexts = s.contexts := rfl
@[simp] theorem State.setSlot_kernels (c k : Nat) (x : Slot) : (s.setSlot c k x).kernels = s.kernels := rfl
@[simp] theorem State.setSlot_launches (c k : Nat) (x : Slot) : (s.setSlot c k x).launches = s.launches := rfl
@[simp] theorem State.setSlot_reuse (c k : Nat) (x : Slot) : (s.setSlot c k x).reuse = s.reuse := rfl
@[simp] theorem State.setSlot_queues (c k : Nat) (x : Slot) : (s.setSlot c k x).queues = s.queues := rfl
@[simp] theorem State.setSlot_graphs (c k : Nat) (x : Slot) : (s.setSlot c k x).graphs = s.graphs := rfl
@[simp] theorem State.setSlot_regions (c k : Nat) (x : Slot) : (s.setSlot c k x).regions = s.regions := rfl
@[simp] theorem State.setSlot_saves (c k : Nat) (x : Slot) : (s.setSlot c k x).saves = s.saves := rfl
@[simp] theorem State.setSlot_pages (c k : Nat) (x : Slot) : (s.setSlot c k x).pages = s.pages := rfl
@[simp] theorem State.setSlot_leases (c k : Nat) (x : Slot) : (s.setSlot c k x).leases = s.leases := rfl
@[simp] theorem State.setSlot_leaseReqs (c k : Nat) (x : Slot) : (s.setSlot c k x).leaseReqs = s.leaseReqs := rfl
@[simp] theorem State.setSlot_pageCmds (c k : Nat) (x : Slot) : (s.setSlot c k x).pageCmds = s.pageCmds := rfl
@[simp] theorem State.setSlot_ptCache (c k : Nat) (x : Slot) : (s.setSlot c k x).ptCache = s.ptCache := rfl
@[simp] theorem State.setSlot_code (c k : Nat) (x : Slot) : (s.setSlot c k x).code = s.code := rfl
@[simp] theorem State.setSlot_pageUse (c k : Nat) (x : Slot) : (s.setSlot c k x).pageUse = s.pageUse := rfl
@[simp] theorem State.setSlot_ringHeld (c k : Nat) (x : Slot) : (s.setSlot c k x).ringHeld = s.ringHeld := rfl
@[simp] theorem State.setSlot_notices (c k : Nat) (x : Slot) : (s.setSlot c k x).notices = s.notices := rfl
@[simp] theorem State.setSlot_logSeq (c k : Nat) (x : Slot) : (s.setSlot c k x).logSeq = s.logSeq := rfl
@[simp] theorem State.setSlot_ordMode (c k : Nat) (x : Slot) : (s.setSlot c k x).ordMode = s.ordMode := rfl
@[simp] theorem State.setSlot_links (c k : Nat) (x : Slot) : (s.setSlot c k x).links = s.links := rfl
@[simp] theorem State.setSlot_routers (c k : Nat) (x : Slot) : (s.setSlot c k x).routers = s.routers := rfl
@[simp] theorem State.setSlot_boot (c k : Nat) (x : Slot) : (s.setSlot c k x).boot = s.boot := rfl
@[simp] theorem State.setSlot_strap (c k : Nat) (x : Slot) : (s.setSlot c k x).strap = s.strap := rfl
@[simp] theorem State.setSlot_flash (c k : Nat) (x : Slot) : (s.setSlot c k x).flash = s.flash := rfl
@[simp] theorem State.setSlot_incoming (c k : Nat) (x : Slot) : (s.setSlot c k x).incoming = s.incoming := rfl
@[simp] theorem State.setSlot_digest (c k : Nat) (x : Slot) : (s.setSlot c k x).digest = s.digest := rfl
@[simp] theorem State.setSlot_inDigest (c k : Nat) (x : Slot) : (s.setSlot c k x).inDigest = s.inDigest := rfl
@[simp] theorem State.setSlot_reports (c k : Nat) (x : Slot) : (s.setSlot c k x).reports = s.reports := rfl
@[simp] theorem State.setSlot_permits (c k : Nat) (x : Slot) : (s.setSlot c k x).permits = s.permits := rfl
@[simp] theorem State.setSlot_ctxCmds (c k : Nat) (x : Slot) : (s.setSlot c k x).ctxCmds = s.ctxCmds := rfl
@[simp] theorem State.setSlot_semBeat (c k : Nat) (x : Slot) : (s.setSlot c k x).semBeat = s.semBeat := rfl
@[simp] theorem State.setSlot_dbgEvents (c k : Nat) (x : Slot) : (s.setSlot c k x).dbgEvents = s.dbgEvents := rfl
@[simp] theorem State.setSlot_dbgCmd (c k : Nat) (x : Slot) : (s.setSlot c k x).dbgCmd = s.dbgCmd := rfl
@[simp] theorem State.setSlot_droops (c k : Nat) (x : Slot) : (s.setSlot c k x).droops = s.droops := rfl
@[simp] theorem State.setSlot_slow (c k : Nat) (x : Slot) : (s.setSlot c k x).slow = s.slow := rfl
@[simp] theorem State.setSlot_reefAt (c k : Nat) (x : Slot) : (s.setSlot c k x).reefAt = s.reefAt := rfl
@[simp] theorem State.setSlot_hostData (c k : Nat) (x : Slot) : (s.setSlot c k x).hostData = s.hostData := rfl
@[simp] theorem State.setSlot_tags (c k : Nat) (x : Slot) : (s.setSlot c k x).tags = s.tags := rfl
@[simp] theorem State.setSlot_real (c k : Nat) (x : Slot) : (s.setSlot c k x).real = s.real := rfl
@[simp] theorem State.setSlot_hostQ (c k : Nat) (x : Slot) : (s.setSlot c k x).hostQ = s.hostQ := rfl
@[simp] theorem State.setSlot_owners (c k : Nat) (x : Slot) : (s.setSlot c k x).owners = s.owners := rfl
@[simp] theorem State.setSlot_peerRefused (c k : Nat) (x : Slot) : (s.setSlot c k x).peerRefused = s.peerRefused := rfl

/-! ## setGroup -/

@[simp] theorem State.setGroup_time (c k : Nat) (g : Group) : (s.setGroup c k g).time = s.time := rfl
@[simp] theorem State.setGroup_agenda (c k : Nat) (g : Group) : (s.setGroup c k g).agenda = s.agenda := rfl
@[simp] theorem State.setGroup_arg (c k : Nat) (g : Group) : (s.setGroup c k g).arg = s.arg := rfl
@[simp] theorem State.setGroup_cur (c k : Nat) (g : Group) : (s.setGroup c k g).cur = s.cur := rfl
@[simp] theorem State.setGroup_draws (c k : Nat) (g : Group) : (s.setGroup c k g).draws = s.draws := rfl
@[simp] theorem State.setGroup_nextId (c k : Nat) (g : Group) : (s.setGroup c k g).nextId = s.nextId := rfl
@[simp] theorem State.setGroup_mem (c k : Nat) (g : Group) : (s.setGroup c k g).mem = s.mem := rfl
@[simp] theorem State.setGroup_l2 (c k : Nat) (g : Group) : (s.setGroup c k g).l2 = s.l2 := rfl
@[simp] theorem State.setGroup_held (c k : Nat) (g : Group) : (s.setGroup c k g).held = s.held := rfl
@[simp] theorem State.setGroup_releases (c k : Nat) (g : Group) : (s.setGroup c k g).releases = s.releases := rfl
@[simp] theorem State.setGroup_mgmt (c k : Nat) (g : Group) : (s.setGroup c k g).mgmt = s.mgmt := rfl
@[simp] theorem State.setGroup_ops (c k : Nat) (g : Group) : (s.setGroup c k g).ops = s.ops := rfl
@[simp] theorem State.setGroup_waits (c k : Nat) (g : Group) : (s.setGroup c k g).waits = s.waits := rfl
@[simp] theorem State.setGroup_lines (c k : Nat) (g : Group) : (s.setGroup c k g).lines = s.lines := rfl
@[simp] theorem State.setGroup_pending (c k : Nat) (g : Group) : (s.setGroup c k g).pending = s.pending := rfl
@[simp] theorem State.setGroup_spawns (c k : Nat) (g : Group) : (s.setGroup c k g).spawns = s.spawns := rfl
@[simp] theorem State.setGroup_contexts (c k : Nat) (g : Group) : (s.setGroup c k g).contexts = s.contexts := rfl
@[simp] theorem State.setGroup_kernels (c k : Nat) (g : Group) : (s.setGroup c k g).kernels = s.kernels := rfl
@[simp] theorem State.setGroup_launches (c k : Nat) (g : Group) : (s.setGroup c k g).launches = s.launches := rfl
@[simp] theorem State.setGroup_reuse (c k : Nat) (g : Group) : (s.setGroup c k g).reuse = s.reuse := rfl
@[simp] theorem State.setGroup_queues (c k : Nat) (g : Group) : (s.setGroup c k g).queues = s.queues := rfl
@[simp] theorem State.setGroup_graphs (c k : Nat) (g : Group) : (s.setGroup c k g).graphs = s.graphs := rfl
@[simp] theorem State.setGroup_regions (c k : Nat) (g : Group) : (s.setGroup c k g).regions = s.regions := rfl
@[simp] theorem State.setGroup_saves (c k : Nat) (g : Group) : (s.setGroup c k g).saves = s.saves := rfl
@[simp] theorem State.setGroup_pages (c k : Nat) (g : Group) : (s.setGroup c k g).pages = s.pages := rfl
@[simp] theorem State.setGroup_leases (c k : Nat) (g : Group) : (s.setGroup c k g).leases = s.leases := rfl
@[simp] theorem State.setGroup_leaseReqs (c k : Nat) (g : Group) : (s.setGroup c k g).leaseReqs = s.leaseReqs := rfl
@[simp] theorem State.setGroup_pageCmds (c k : Nat) (g : Group) : (s.setGroup c k g).pageCmds = s.pageCmds := rfl
@[simp] theorem State.setGroup_ptCache (c k : Nat) (g : Group) : (s.setGroup c k g).ptCache = s.ptCache := rfl
@[simp] theorem State.setGroup_code (c k : Nat) (g : Group) : (s.setGroup c k g).code = s.code := rfl
@[simp] theorem State.setGroup_pageUse (c k : Nat) (g : Group) : (s.setGroup c k g).pageUse = s.pageUse := rfl
@[simp] theorem State.setGroup_ringHeld (c k : Nat) (g : Group) : (s.setGroup c k g).ringHeld = s.ringHeld := rfl
@[simp] theorem State.setGroup_notices (c k : Nat) (g : Group) : (s.setGroup c k g).notices = s.notices := rfl
@[simp] theorem State.setGroup_logSeq (c k : Nat) (g : Group) : (s.setGroup c k g).logSeq = s.logSeq := rfl
@[simp] theorem State.setGroup_ordMode (c k : Nat) (g : Group) : (s.setGroup c k g).ordMode = s.ordMode := rfl
@[simp] theorem State.setGroup_links (c k : Nat) (g : Group) : (s.setGroup c k g).links = s.links := rfl
@[simp] theorem State.setGroup_routers (c k : Nat) (g : Group) : (s.setGroup c k g).routers = s.routers := rfl
@[simp] theorem State.setGroup_boot (c k : Nat) (g : Group) : (s.setGroup c k g).boot = s.boot := rfl
@[simp] theorem State.setGroup_strap (c k : Nat) (g : Group) : (s.setGroup c k g).strap = s.strap := rfl
@[simp] theorem State.setGroup_flash (c k : Nat) (g : Group) : (s.setGroup c k g).flash = s.flash := rfl
@[simp] theorem State.setGroup_incoming (c k : Nat) (g : Group) : (s.setGroup c k g).incoming = s.incoming := rfl
@[simp] theorem State.setGroup_digest (c k : Nat) (g : Group) : (s.setGroup c k g).digest = s.digest := rfl
@[simp] theorem State.setGroup_inDigest (c k : Nat) (g : Group) : (s.setGroup c k g).inDigest = s.inDigest := rfl
@[simp] theorem State.setGroup_reports (c k : Nat) (g : Group) : (s.setGroup c k g).reports = s.reports := rfl
@[simp] theorem State.setGroup_permits (c k : Nat) (g : Group) : (s.setGroup c k g).permits = s.permits := rfl
@[simp] theorem State.setGroup_ctxCmds (c k : Nat) (g : Group) : (s.setGroup c k g).ctxCmds = s.ctxCmds := rfl
@[simp] theorem State.setGroup_semBeat (c k : Nat) (g : Group) : (s.setGroup c k g).semBeat = s.semBeat := rfl
@[simp] theorem State.setGroup_dbgEvents (c k : Nat) (g : Group) : (s.setGroup c k g).dbgEvents = s.dbgEvents := rfl
@[simp] theorem State.setGroup_dbgCmd (c k : Nat) (g : Group) : (s.setGroup c k g).dbgCmd = s.dbgCmd := rfl
@[simp] theorem State.setGroup_droops (c k : Nat) (g : Group) : (s.setGroup c k g).droops = s.droops := rfl
@[simp] theorem State.setGroup_slow (c k : Nat) (g : Group) : (s.setGroup c k g).slow = s.slow := rfl
@[simp] theorem State.setGroup_reefAt (c k : Nat) (g : Group) : (s.setGroup c k g).reefAt = s.reefAt := rfl
@[simp] theorem State.setGroup_hostData (c k : Nat) (g : Group) : (s.setGroup c k g).hostData = s.hostData := rfl
@[simp] theorem State.setGroup_tags (c k : Nat) (g : Group) : (s.setGroup c k g).tags = s.tags := rfl
@[simp] theorem State.setGroup_real (c k : Nat) (g : Group) : (s.setGroup c k g).real = s.real := rfl
@[simp] theorem State.setGroup_hostQ (c k : Nat) (g : Group) : (s.setGroup c k g).hostQ = s.hostQ := rfl
@[simp] theorem State.setGroup_owners (c k : Nat) (g : Group) : (s.setGroup c k g).owners = s.owners := rfl
@[simp] theorem State.setGroup_peerRefused (c k : Nat) (g : Group) : (s.setGroup c k g).peerRefused = s.peerRefused := rfl

/-! ## setReg -/

@[simp] theorem State.setReg_time (r : Reg) (v : DWord) : (s.setReg r v).time = s.time := rfl
@[simp] theorem State.setReg_agenda (r : Reg) (v : DWord) : (s.setReg r v).agenda = s.agenda := rfl
@[simp] theorem State.setReg_arg (r : Reg) (v : DWord) : (s.setReg r v).arg = s.arg := rfl
@[simp] theorem State.setReg_cur (r : Reg) (v : DWord) : (s.setReg r v).cur = s.cur := rfl
@[simp] theorem State.setReg_draws (r : Reg) (v : DWord) : (s.setReg r v).draws = s.draws := rfl
@[simp] theorem State.setReg_nextId (r : Reg) (v : DWord) : (s.setReg r v).nextId = s.nextId := rfl
@[simp] theorem State.setReg_mem (r : Reg) (v : DWord) : (s.setReg r v).mem = s.mem := rfl
@[simp] theorem State.setReg_l2 (r : Reg) (v : DWord) : (s.setReg r v).l2 = s.l2 := rfl
@[simp] theorem State.setReg_held (r : Reg) (v : DWord) : (s.setReg r v).held = s.held := rfl
@[simp] theorem State.setReg_releases (r : Reg) (v : DWord) : (s.setReg r v).releases = s.releases := rfl
@[simp] theorem State.setReg_cores (r : Reg) (v : DWord) : (s.setReg r v).cores = s.cores := rfl
@[simp] theorem State.setReg_ops (r : Reg) (v : DWord) : (s.setReg r v).ops = s.ops := rfl
@[simp] theorem State.setReg_waits (r : Reg) (v : DWord) : (s.setReg r v).waits = s.waits := rfl
@[simp] theorem State.setReg_lines (r : Reg) (v : DWord) : (s.setReg r v).lines = s.lines := rfl
@[simp] theorem State.setReg_pending (r : Reg) (v : DWord) : (s.setReg r v).pending = s.pending := rfl
@[simp] theorem State.setReg_spawns (r : Reg) (v : DWord) : (s.setReg r v).spawns = s.spawns := rfl
@[simp] theorem State.setReg_contexts (r : Reg) (v : DWord) : (s.setReg r v).contexts = s.contexts := rfl
@[simp] theorem State.setReg_kernels (r : Reg) (v : DWord) : (s.setReg r v).kernels = s.kernels := rfl
@[simp] theorem State.setReg_launches (r : Reg) (v : DWord) : (s.setReg r v).launches = s.launches := rfl
@[simp] theorem State.setReg_reuse (r : Reg) (v : DWord) : (s.setReg r v).reuse = s.reuse := rfl
@[simp] theorem State.setReg_queues (r : Reg) (v : DWord) : (s.setReg r v).queues = s.queues := rfl
@[simp] theorem State.setReg_graphs (r : Reg) (v : DWord) : (s.setReg r v).graphs = s.graphs := rfl
@[simp] theorem State.setReg_regions (r : Reg) (v : DWord) : (s.setReg r v).regions = s.regions := rfl
@[simp] theorem State.setReg_saves (r : Reg) (v : DWord) : (s.setReg r v).saves = s.saves := rfl
@[simp] theorem State.setReg_pages (r : Reg) (v : DWord) : (s.setReg r v).pages = s.pages := rfl
@[simp] theorem State.setReg_leases (r : Reg) (v : DWord) : (s.setReg r v).leases = s.leases := rfl
@[simp] theorem State.setReg_leaseReqs (r : Reg) (v : DWord) : (s.setReg r v).leaseReqs = s.leaseReqs := rfl
@[simp] theorem State.setReg_pageCmds (r : Reg) (v : DWord) : (s.setReg r v).pageCmds = s.pageCmds := rfl
@[simp] theorem State.setReg_ptCache (r : Reg) (v : DWord) : (s.setReg r v).ptCache = s.ptCache := rfl
@[simp] theorem State.setReg_code (r : Reg) (v : DWord) : (s.setReg r v).code = s.code := rfl
@[simp] theorem State.setReg_pageUse (r : Reg) (v : DWord) : (s.setReg r v).pageUse = s.pageUse := rfl
@[simp] theorem State.setReg_ringHeld (r : Reg) (v : DWord) : (s.setReg r v).ringHeld = s.ringHeld := rfl
@[simp] theorem State.setReg_notices (r : Reg) (v : DWord) : (s.setReg r v).notices = s.notices := rfl
@[simp] theorem State.setReg_logSeq (r : Reg) (v : DWord) : (s.setReg r v).logSeq = s.logSeq := rfl
@[simp] theorem State.setReg_ordMode (r : Reg) (v : DWord) : (s.setReg r v).ordMode = s.ordMode := rfl
@[simp] theorem State.setReg_links (r : Reg) (v : DWord) : (s.setReg r v).links = s.links := rfl
@[simp] theorem State.setReg_routers (r : Reg) (v : DWord) : (s.setReg r v).routers = s.routers := rfl
@[simp] theorem State.setReg_boot (r : Reg) (v : DWord) : (s.setReg r v).boot = s.boot := rfl
@[simp] theorem State.setReg_strap (r : Reg) (v : DWord) : (s.setReg r v).strap = s.strap := rfl
@[simp] theorem State.setReg_flash (r : Reg) (v : DWord) : (s.setReg r v).flash = s.flash := rfl
@[simp] theorem State.setReg_incoming (r : Reg) (v : DWord) : (s.setReg r v).incoming = s.incoming := rfl
@[simp] theorem State.setReg_digest (r : Reg) (v : DWord) : (s.setReg r v).digest = s.digest := rfl
@[simp] theorem State.setReg_inDigest (r : Reg) (v : DWord) : (s.setReg r v).inDigest = s.inDigest := rfl
@[simp] theorem State.setReg_reports (r : Reg) (v : DWord) : (s.setReg r v).reports = s.reports := rfl
@[simp] theorem State.setReg_permits (r : Reg) (v : DWord) : (s.setReg r v).permits = s.permits := rfl
@[simp] theorem State.setReg_ctxCmds (r : Reg) (v : DWord) : (s.setReg r v).ctxCmds = s.ctxCmds := rfl
@[simp] theorem State.setReg_semBeat (r : Reg) (v : DWord) : (s.setReg r v).semBeat = s.semBeat := rfl
@[simp] theorem State.setReg_dbgEvents (r : Reg) (v : DWord) : (s.setReg r v).dbgEvents = s.dbgEvents := rfl
@[simp] theorem State.setReg_dbgCmd (r : Reg) (v : DWord) : (s.setReg r v).dbgCmd = s.dbgCmd := rfl
@[simp] theorem State.setReg_droops (r : Reg) (v : DWord) : (s.setReg r v).droops = s.droops := rfl
@[simp] theorem State.setReg_slow (r : Reg) (v : DWord) : (s.setReg r v).slow = s.slow := rfl
@[simp] theorem State.setReg_reefAt (r : Reg) (v : DWord) : (s.setReg r v).reefAt = s.reefAt := rfl
@[simp] theorem State.setReg_hostData (r : Reg) (v : DWord) : (s.setReg r v).hostData = s.hostData := rfl
@[simp] theorem State.setReg_tags (r : Reg) (v : DWord) : (s.setReg r v).tags = s.tags := rfl
@[simp] theorem State.setReg_real (r : Reg) (v : DWord) : (s.setReg r v).real = s.real := rfl
@[simp] theorem State.setReg_hostQ (r : Reg) (v : DWord) : (s.setReg r v).hostQ = s.hostQ := rfl
@[simp] theorem State.setReg_owners (r : Reg) (v : DWord) : (s.setReg r v).owners = s.owners := rfl
@[simp] theorem State.setReg_peerRefused (r : Reg) (v : DWord) : (s.setReg r v).peerRefused = s.peerRefused := rfl

/-! ## setCtx -/

@[simp] theorem State.setCtx_time (n : Nat) (x : Context) : (s.setCtx n x).time = s.time := rfl
@[simp] theorem State.setCtx_agenda (n : Nat) (x : Context) : (s.setCtx n x).agenda = s.agenda := rfl
@[simp] theorem State.setCtx_arg (n : Nat) (x : Context) : (s.setCtx n x).arg = s.arg := rfl
@[simp] theorem State.setCtx_cur (n : Nat) (x : Context) : (s.setCtx n x).cur = s.cur := rfl
@[simp] theorem State.setCtx_draws (n : Nat) (x : Context) : (s.setCtx n x).draws = s.draws := rfl
@[simp] theorem State.setCtx_nextId (n : Nat) (x : Context) : (s.setCtx n x).nextId = s.nextId := rfl
@[simp] theorem State.setCtx_mem (n : Nat) (x : Context) : (s.setCtx n x).mem = s.mem := rfl
@[simp] theorem State.setCtx_l2 (n : Nat) (x : Context) : (s.setCtx n x).l2 = s.l2 := rfl
@[simp] theorem State.setCtx_held (n : Nat) (x : Context) : (s.setCtx n x).held = s.held := rfl
@[simp] theorem State.setCtx_releases (n : Nat) (x : Context) : (s.setCtx n x).releases = s.releases := rfl
@[simp] theorem State.setCtx_mgmt (n : Nat) (x : Context) : (s.setCtx n x).mgmt = s.mgmt := rfl
@[simp] theorem State.setCtx_cores (n : Nat) (x : Context) : (s.setCtx n x).cores = s.cores := rfl
@[simp] theorem State.setCtx_ops (n : Nat) (x : Context) : (s.setCtx n x).ops = s.ops := rfl
@[simp] theorem State.setCtx_waits (n : Nat) (x : Context) : (s.setCtx n x).waits = s.waits := rfl
@[simp] theorem State.setCtx_lines (n : Nat) (x : Context) : (s.setCtx n x).lines = s.lines := rfl
@[simp] theorem State.setCtx_pending (n : Nat) (x : Context) : (s.setCtx n x).pending = s.pending := rfl
@[simp] theorem State.setCtx_spawns (n : Nat) (x : Context) : (s.setCtx n x).spawns = s.spawns := rfl
@[simp] theorem State.setCtx_kernels (n : Nat) (x : Context) : (s.setCtx n x).kernels = s.kernels := rfl
@[simp] theorem State.setCtx_launches (n : Nat) (x : Context) : (s.setCtx n x).launches = s.launches := rfl
@[simp] theorem State.setCtx_reuse (n : Nat) (x : Context) : (s.setCtx n x).reuse = s.reuse := rfl
@[simp] theorem State.setCtx_queues (n : Nat) (x : Context) : (s.setCtx n x).queues = s.queues := rfl
@[simp] theorem State.setCtx_graphs (n : Nat) (x : Context) : (s.setCtx n x).graphs = s.graphs := rfl
@[simp] theorem State.setCtx_regions (n : Nat) (x : Context) : (s.setCtx n x).regions = s.regions := rfl
@[simp] theorem State.setCtx_saves (n : Nat) (x : Context) : (s.setCtx n x).saves = s.saves := rfl
@[simp] theorem State.setCtx_pages (n : Nat) (x : Context) : (s.setCtx n x).pages = s.pages := rfl
@[simp] theorem State.setCtx_leases (n : Nat) (x : Context) : (s.setCtx n x).leases = s.leases := rfl
@[simp] theorem State.setCtx_leaseReqs (n : Nat) (x : Context) : (s.setCtx n x).leaseReqs = s.leaseReqs := rfl
@[simp] theorem State.setCtx_pageCmds (n : Nat) (x : Context) : (s.setCtx n x).pageCmds = s.pageCmds := rfl
@[simp] theorem State.setCtx_ptCache (n : Nat) (x : Context) : (s.setCtx n x).ptCache = s.ptCache := rfl
@[simp] theorem State.setCtx_code (n : Nat) (x : Context) : (s.setCtx n x).code = s.code := rfl
@[simp] theorem State.setCtx_pageUse (n : Nat) (x : Context) : (s.setCtx n x).pageUse = s.pageUse := rfl
@[simp] theorem State.setCtx_ringHeld (n : Nat) (x : Context) : (s.setCtx n x).ringHeld = s.ringHeld := rfl
@[simp] theorem State.setCtx_notices (n : Nat) (x : Context) : (s.setCtx n x).notices = s.notices := rfl
@[simp] theorem State.setCtx_logSeq (n : Nat) (x : Context) : (s.setCtx n x).logSeq = s.logSeq := rfl
@[simp] theorem State.setCtx_ordMode (n : Nat) (x : Context) : (s.setCtx n x).ordMode = s.ordMode := rfl
@[simp] theorem State.setCtx_links (n : Nat) (x : Context) : (s.setCtx n x).links = s.links := rfl
@[simp] theorem State.setCtx_routers (n : Nat) (x : Context) : (s.setCtx n x).routers = s.routers := rfl
@[simp] theorem State.setCtx_boot (n : Nat) (x : Context) : (s.setCtx n x).boot = s.boot := rfl
@[simp] theorem State.setCtx_strap (n : Nat) (x : Context) : (s.setCtx n x).strap = s.strap := rfl
@[simp] theorem State.setCtx_flash (n : Nat) (x : Context) : (s.setCtx n x).flash = s.flash := rfl
@[simp] theorem State.setCtx_incoming (n : Nat) (x : Context) : (s.setCtx n x).incoming = s.incoming := rfl
@[simp] theorem State.setCtx_digest (n : Nat) (x : Context) : (s.setCtx n x).digest = s.digest := rfl
@[simp] theorem State.setCtx_inDigest (n : Nat) (x : Context) : (s.setCtx n x).inDigest = s.inDigest := rfl
@[simp] theorem State.setCtx_reports (n : Nat) (x : Context) : (s.setCtx n x).reports = s.reports := rfl
@[simp] theorem State.setCtx_permits (n : Nat) (x : Context) : (s.setCtx n x).permits = s.permits := rfl
@[simp] theorem State.setCtx_ctxCmds (n : Nat) (x : Context) : (s.setCtx n x).ctxCmds = s.ctxCmds := rfl
@[simp] theorem State.setCtx_semBeat (n : Nat) (x : Context) : (s.setCtx n x).semBeat = s.semBeat := rfl
@[simp] theorem State.setCtx_dbgEvents (n : Nat) (x : Context) : (s.setCtx n x).dbgEvents = s.dbgEvents := rfl
@[simp] theorem State.setCtx_dbgCmd (n : Nat) (x : Context) : (s.setCtx n x).dbgCmd = s.dbgCmd := rfl
@[simp] theorem State.setCtx_droops (n : Nat) (x : Context) : (s.setCtx n x).droops = s.droops := rfl
@[simp] theorem State.setCtx_slow (n : Nat) (x : Context) : (s.setCtx n x).slow = s.slow := rfl
@[simp] theorem State.setCtx_reefAt (n : Nat) (x : Context) : (s.setCtx n x).reefAt = s.reefAt := rfl
@[simp] theorem State.setCtx_hostData (n : Nat) (x : Context) : (s.setCtx n x).hostData = s.hostData := rfl
@[simp] theorem State.setCtx_tags (n : Nat) (x : Context) : (s.setCtx n x).tags = s.tags := rfl
@[simp] theorem State.setCtx_real (n : Nat) (x : Context) : (s.setCtx n x).real = s.real := rfl
@[simp] theorem State.setCtx_hostQ (n : Nat) (x : Context) : (s.setCtx n x).hostQ = s.hostQ := rfl
@[simp] theorem State.setCtx_owners (n : Nat) (x : Context) : (s.setCtx n x).owners = s.owners := rfl
@[simp] theorem State.setCtx_peerRefused (n : Nat) (x : Context) : (s.setCtx n x).peerRefused = s.peerRefused := rfl

/-! ## What the updates change -/

@[simp] theorem State.core_setCore_same (c : Nat) (x : CoreState) : (s.setCore c x).core c = x := by
  simp [State.core, State.setCore]

@[simp] theorem State.core_setCore_other (c n : Nat) (x : CoreState) (h : n ≠ c) : (s.setCore c x).core n = s.core n := by
  simp [State.core, State.setCore, h]

@[simp] theorem State.slot_setSlot_same (c k : Nat) (x : Slot) : (s.setSlot c k x).slot c k = x := by
  simp [State.slot, State.setSlot]

theorem State.slot_setSlot_other (c k d j : Nat) (x : Slot) (h : ¬(d = c ∧ j = k)) : (s.setSlot c k x).slot d j = s.slot d j := by
  by_cases hd : d = c
  · subst hd
    have hj : j ≠ k := fun e => h ⟨rfl, e⟩
    simp [State.slot, State.setSlot, hj]
  · simp [State.slot, State.setSlot, hd]

@[simp] theorem State.group_setSlot_same (c k : Nat) (x : Slot) : (s.setSlot c k x).group c k = x.group := by
  simp [State.group]

@[simp] theorem State.group_setGroup_same (c k : Nat) (g : Group) : (s.setGroup c k g).group c k = g := by
  simp [State.setGroup]

theorem State.slot_setGroup_other (c k d j : Nat) (g : Group) (h : ¬(d = c ∧ j = k)) : (s.setGroup c k g).slot d j = s.slot d j :=
  State.slot_setSlot_other s c k d j _ h

@[simp] theorem State.slot_setGroup_same (c k : Nat) (g : Group) : (s.setGroup c k g).slot c k = { s.slot c k with group := g } := by
  simp [State.setGroup]

/-- A write of a slot keeps everything of its core but that slot. -/
theorem State.core_setSlot (c k d : Nat) (x : Slot) :
    (s.setSlot c k x).core d = if d = c then { s.core c with slots := Bank.put (s.core c).slots k x } else s.core d := by
  by_cases h : d = c
  · subst h; simp [State.setSlot]
  · simp [State.setSlot, h]

@[simp] theorem State.reg_setReg_same (r : Reg) (v : DWord) : (s.setReg r v).reg r = v := by
  simp [State.reg, State.setReg]

theorem State.reg_setReg_other (r q : Reg) (v : DWord) (h : q.addr ≠ r.addr) : (s.setReg r v).reg q = s.reg q := by
  simp [State.reg, State.setReg, h]

@[simp] theorem State.ctx_setCtx_same (n : Nat) (x : Context) : (s.setCtx n x).ctx n = x := by
  simp [State.ctx, State.setCtx]

@[simp] theorem State.ctx_setCtx_other (n m : Nat) (x : Context) (h : m ≠ n) : (s.setCtx n x).ctx m = s.ctx m := by
  simp [State.ctx, State.setCtx, h]

end Sys2Proof.Machine
end

