-- ==== Sys2Proof/Laws/Issue.lean ====
section
/-! SUPPORT. What an issue does, said once: the two ways of perform, retirement, the vector result, and the posting of an operation. -/
namespace Sys2Proof.Machine

/-! ## perform -/

variable {h : List Hint} {s : State} {i : Issue} {res : Bool} {f : Issue → Form} {route operand : Issue → Bool}
  {own : Issue → State → Option Flt} {eff : Issue → State → State}

/-- Without a fault the effect happens. -/
theorem perform_ok (hi : Issues s h i res (f i) (route i) (operand i) (own i s)) :
    perform h s res f route operand own eff = .next (eff (s.sampleClk i (f i)).1 (s.sampleClk i (f i)).2) := by
  simp only [perform, hi.1, hi.2]

/-- A fault found at issue is taken, with no other effect (R93). -/
theorem perform_fault {e : Flt} (h1 : s.issue h = some i)
    (h2 : i.fault res (f i) (route i) (operand i) (fun _ => own i s) = some e) :
    perform h s res f route operand own eff = .next (s.takeFault i.core i.slot i.n i.pc e) := by
  simp only [perform, h1, h2]

/-- A form that does not read clk finds its issue and state as they are. -/
theorem State.sampleClk_plain (g : Form) (hc : (g.readsClk && i.g.task.det) = false) : s.sampleClk i g = (i, s) := by
  simp [State.sampleClk, hc]

/-- A form without sources does not read clk. -/
theorem Form.readsClk_nil (g : Form) (hg : g.srcs = []) : g.readsClk = false := by simp [Form.readsClk, hg]

/-! ## Retirement -/

theorem State.progress_frame (s : State) (tag : Nat) : { s.progress tag with regions := s.regions } = s := rfl

@[simp] theorem State.core_progress (s : State) (tag c : Nat) : (s.progress tag).core c = s.core c := rfl
@[simp] theorem State.slot_progress (s : State) (tag c k : Nat) : (s.progress tag).slot c k = s.slot c k := rfl
@[simp] theorem State.group_progress (s : State) (tag c k : Nat) : (s.progress tag).group c k = s.group c k := rfl
@[simp] theorem State.byteAt_progress (s : State) (tag : Nat) (p : Place) : (s.progress tag).byteAt p = s.byteAt p := by
  cases p <;> rfl
@[simp] theorem State.byteAt_setCore (s : State) (c : Nat) (x : CoreState) (p : Place) : (s.setCore c x).byteAt p = s.byteAt p := by
  cases p <;> rfl
@[simp] theorem State.byteAt_setSlot (s : State) (c k : Nat) (x : Slot) (p : Place) : (s.setSlot c k x).byteAt p = s.byteAt p := by
  cases p <;> rfl
@[simp] theorem State.byteAt_setGroup (s : State) (c k : Nat) (g : Group) (p : Place) : (s.setGroup c k g).byteAt p = s.byteAt p := by
  cases p <;> rfl

theorem cursor_foldl (l : List Nat) (time : Nat) (rs : Bank RegionRt) (r : Nat) :
    (Bank.lookD (l.foldl (fun rs r => Bank.alter rs r {} fun x => { x with restarted := time }) rs) r {}).cursor
      = (Bank.lookD rs r {}).cursor := by
  induction l generalizing rs with
  | nil => rfl
  | cons a t ih =>
    rw [List.foldl_cons, ih, Bank.alter, Bank.lookD_put]
    split
    · next e => subst e; rfl
    · rfl

/-- The issuing strand as retirement leaves it. -/
def Issue.after (i : Issue) (g : Group) (pc : DWord) (ends : Bool) (time : Nat) : Strand :=
  ({ g.strand i.n with pc := pc, state := .ready } : Strand).leave ends time

@[simp] theorem State.group_retire (g : Group) (pc : DWord) (ends : Bool) :
    (s.retire i g pc ends).group i.core i.slot = g.setStrand i.n (i.after g pc ends s.time) := by
  unfold State.retire Issue.after
  simp only
  split <;> simp

theorem Strand.leave_keeps (x : Strand) (ends : Bool) (time : Nat) :
    (x.leave ends time).pc = x.pc ∧ (x.leave ends time).state = x.state ∧ (x.leave ends time).owned = x.owned
      ∧ (x.leave ends time).em = x.em ∧ (x.leave ends time).token = x.token
      ∧ (ends = true → (x.leave ends time).run = none) := by
  unfold Strand.leave
  split
  · simp_all
  · split <;> simp_all

/-- A group written in its slot: everything else stays. -/
theorem Untouched.setGroup (g : Group) : Untouched s (s.setGroup i.core i.slot g) i where
  slot := by simp
  slots := fun d j hd => State.slot_setGroup_other s _ _ d j g hd
  units := fun d => by
    rw [State.setGroup, State.core_setSlot]
    split
    · next e => subst e; rfl
    · rfl
  bytes := fun p => by simp
  cursors := fun _ => rfl

theorem Untouched.progress {u t : State} (ht : Untouched u t i) (tag : Nat) : Untouched u (t.progress tag) i where
  slot := ht.slot
  slots := ht.slots
  units := ht.units
  bytes := fun p => by rw [State.byteAt_progress]; exact ht.bytes p
  cursors := fun r => by rw [State.progress, cursor_foldl]; exact ht.cursors r

theorem Untouched.retire (g : Group) (pc : DWord) (ends : Bool) : Untouched s (s.retire i g pc ends) i := by
  unfold State.retire
  simp only
  split
  · exact (Untouched.setGroup _).progress _
  · exact Untouched.setGroup _

theorem Stands.setStrand {t : State} (g : Group) (pc : DWord) (ends : Bool) (time : Nat)
    (hg : t.group i.core i.slot = g.setStrand i.n (i.after g pc ends time)) : Stands t i g pc ends := by
  have k := Strand.leave_keeps ({ g.strand i.n with pc := pc, state := .ready }) ends time
  constructor <;> rw [hg]
  · simpa [Issue.after] using k.1
  · simpa [Issue.after] using k.2.1
  · simpa [Issue.after] using k.2.2.1
  · simpa [Issue.after] using k.2.2.2.1
  · simpa [Issue.after] using k.2.2.2.2.1
  · simpa [Issue.after] using k.2.2.2.2.2
  · intro m hm
    simp [Group.setStrand, hm]

/-- Retirement, whole. -/
theorem Retired.retire (g : Group) (pc : DWord) (ends : Bool) : Retired s (s.retire i g pc ends) i g pc ends where
  group := by rw [State.group_retire]; rfl
  stands := Stands.setStrand g pc ends s.time (State.group_retire g pc ends)
  untouched := Untouched.retire g pc ends
  world := by
    unfold State.retire
    simp only
    split <;> rfl

/-- Retirement touches its own core alone. -/
theorem State.core_retire_other (g : Group) (pc : DWord) (ends : Bool) (d : Nat) (hd : d ≠ i.core) :
    (s.retire i g pc ends).core d = s.core d := by
  unfold State.retire State.setGroup
  simp only
  split <;> simp [State.core_setSlot, hd]

/-- Retirement touches a slot alone of its core. -/
theorem State.core_retire_self (g : Group) (pc : DWord) (ends : Bool) :
    (s.retire i g pc ends).core i.core = { s.core i.core with slots := ((s.retire i g pc ends).core i.core).slots } := by
  unfold State.retire State.setGroup
  simp only
  split <;> simp [State.core_setSlot]

/-! ## Posting -/

theorem State.core_congr {s u : State} (h : s.cores = u.cores) (c : Nat) : s.core c = u.core c := by simp [State.core, h]
theorem State.slot_congr {s u : State} (h : s.cores = u.cores) (c k : Nat) : s.slot c k = u.slot c k := by
  simp [State.slot, State.core_congr h]
theorem State.byteAt_congr {s u : State} (hm : s.mem = u.mem) (hl : s.l2 = u.l2) (hh : s.held = u.held) (p : Place) :
    s.byteAt p = u.byteAt p := by
  cases p <;> simp [State.byteAt, hm, hl, hh]

/-- What is untouched from a state is untouched from one that has the same cores, storage and watchdogs. -/
theorem Untouched.from {u w t : State} (h : Untouched w t i) (hc : w.cores = u.cores) (hm : w.mem = u.mem) (hl : w.l2 = u.l2)
    (hh : w.held = u.held) (hr : w.regions = u.regions) : Untouched u t i where
  slot := by rw [h.slot, State.slot_congr hc]
  slots := fun d j hd => by rw [h.slots d j hd, State.slot_congr hc]
  units := fun d => by have := h.units d; rw [State.core_congr hc] at this; exact this
  bytes := fun p => by rw [h.bytes p, State.byteAt_congr hm hl hh]
  cursors := fun r => by rw [h.cursors r, hr]

theorem Group.strand_count (g : Group) (c : Ctr) (id : Nat) (d : Bool) (n : Nat) : (g.count c id d).strand n = g.strand n := by
  cases c <;> rfl

theorem Group.strands_count (g : Group) (c : Ctr) (id : Nat) (d : Bool) : (g.count c id d).strands = g.strands := by
  cases c <;> rfl

/-- A group whose issuing strand has given its fence to the operation it posts. -/
def Issue.unfence (i : Issue) (g : Group) (takes : Bool) : Group :=
  if takes then g.setStrand i.n { g.strand i.n with fenced := none } else g

theorem Issue.unfence_keeps (i : Issue) (g : Group) (b : Bool) :
    ((i.unfence g b).strand i.n).owned = (g.strand i.n).owned ∧ ((i.unfence g b).strand i.n).em = (g.strand i.n).em
      ∧ ((i.unfence g b).strand i.n).token = (g.strand i.n).token
      ∧ (∀ m, m ≠ i.n → Bank.look (i.unfence g b).strands m = Bank.look g.strands m)
      ∧ { i.unfence g b with strands := g.strands } = g := by
  unfold Issue.unfence
  split
  · simp [Group.setStrand, Group.strand]
    intro m hm
    simp [hm]
  · exact ⟨rfl, rfl, rfl, fun _ _ => rfl, rfl⟩

theorem Strand.leave_fenced (x : Strand) (ends : Bool) (time : Nat) : (x.leave ends time).fenced = x.fenced := by
  unfold Strand.leave
  split
  · rfl
  · split <;> rfl

/-- A strand that has given its fence holds none after its instruction, and one that gives none keeps what it holds. -/
theorem Issue.fenced_posting (g : Group) (takes : Bool) :
    (((s.retire i (i.unfence g takes) i.next false).group i.core i.slot).strand i.n).fenced
      = if takes then none else (g.strand i.n).fenced := by
  rw [State.group_retire]
  cases takes <;> simp [Issue.after, Issue.unfence, Strand.leave_fenced]

/-- The state that an operation's posting retires from: the next number taken, the operation on its way unless it has no access. -/
def State.posting (s : State) (i : Issue) (o : MemOp) : State :=
  { s with
    nextId := s.nextId + 1
    ops := if o.accs.isEmpty then s.ops
      else s.ops ++ [{ o with id := s.nextId
                              fence := if o.kind.writes && !o.accs.isEmpty then (i.g.strand i.n).fenced else none
                              accs := if o.kind = .load then o.accs.map (Access.near i.core) else o.accs }] }

theorem State.post_eq (o : MemOp) (hc : i.g.ctr o.ctr < 63) :
    s.post i o =
      (s.posting i o).retire i (i.unfence (i.g.count o.ctr s.nextId o.accs.isEmpty) (o.kind.writes && !o.accs.isEmpty)) i.next false := by
  unfold State.post State.posting Issue.unfence
  rw [if_neg (by omega)]
  simp only [State.fresh, Group.strand_count]
  by_cases he : o.accs.isEmpty = true <;> simp [he]

/-- Posting, whole: the counter has room. -/
theorem Posted.post (o : MemOp) (hc : i.g.ctr o.ctr < 63) : Posted s (s.post i o) i i.g o := by
  rw [State.post_eq o hc]
  have r := Retired.retire (s := s.posting i o) (i := i)
    (i.unfence (i.g.count o.ctr s.nextId o.accs.isEmpty) (o.kind.writes && !o.accs.isEmpty)) i.next false
  have hf := Issue.fenced_posting (s := s.posting i o) (i := i) (i.g.count o.ctr s.nextId o.accs.isEmpty) (o.kind.writes && !o.accs.isEmpty)
  rw [Group.strand_count] at hf
  generalize (s.posting i o).retire i _ i.next false = t at r hf
  have k := Issue.unfence_keeps i (i.g.count o.ctr s.nextId o.accs.isEmpty) (o.kind.writes && !o.accs.isEmpty)
  have st := r.stands
  refine ⟨?_, ?_, ?_, hf, ?_, ?_⟩
  · have h := congrArg State.ops r.world
    simp only at h
    rw [h]
    by_cases he : o.accs.isEmpty = true <;> simp [State.posting, he]
  · have h := congrArg (fun x : Group => { x with strands := (t.group i.core i.slot).strands }) r.group
    have h' := congrArg (fun x : Group => { x with strands := (t.group i.core i.slot).strands }) k.2.2.2.2
    exact h.trans h'
  · exact ⟨st.pc, st.ready, by rw [st.owned, k.1, Group.strand_count], by rw [st.em, k.2.1, Group.strand_count],
      by rw [st.token, k.2.2.1, Group.strand_count], st.run, fun m hm => by rw [st.others m hm, k.2.2.2.1 m hm, Group.strands_count]⟩
  · exact r.untouched.from rfl rfl rfl rfl rfl
  · have h := congrArg (fun x : State => { x with ops := s.ops, nextId := s.nextId }) r.world
    exact h

end Sys2Proof.Machine
end

