-- ==== Sys2Proof/Laws/Memory.lean ====
section
/-! SUPPORT. Byte storage: what a byte reads as after a write, and that every operation on storage keeps its canonical form. -/
namespace Sys2Proof.Machine

/-! ## The canonical form -/

/-- A memory whose cells all lie at or above a number. -/
def Memory.above (n : Nat) : Memory → Prop
  | [] => True
  | (j, _) :: _ => n ≤ j

theorem Memory.wf_cons (j : Nat) (v : Byte) (t : Memory) :
    Memory.wf ((j, v) :: t) = true ↔ v ≠ 0 ∧ Memory.above (j + 1) t ∧ Memory.wf t = true := by
  cases t with
  | nil => simp [Memory.wf, Memory.above]
  | cons p t =>
    obtain ⟨k, w⟩ := p
    simp only [Memory.wf, Memory.above, Bool.and_eq_true, bne_iff_ne, decide_eq_true_eq, ne_eq, and_assoc]
    rfl

theorem Memory.above_mono {m n : Nat} (h : m ≤ n) {t : Memory} (ht : Memory.above n t) : Memory.above m t := by
  cases t with
  | nil => trivial
  | cons p t => exact Nat.le_trans h ht

theorem Memory.above_setByte {n a : Nat} {v : Byte} {m : Memory} (hm : Memory.above n m) (hw : Memory.wf m = true) (ha : n ≤ a) :
    Memory.above n (Memory.setByte m a v) := by
  cases m with
  | nil => simp only [Memory.setByte]; split <;> simp [Memory.above, ha]
  | cons p t =>
    obtain ⟨j, w⟩ := p
    rw [Memory.wf_cons] at hw
    have hj : n ≤ j := hm
    simp only [Memory.setByte]
    split
    · split <;> simp [Memory.above, ha, hj]
    · split
      · split
        · exact Memory.above_mono (by omega) hw.2.1
        · exact ha
      · exact hj

/-- Writing a byte keeps the canonical form. -/
theorem Memory.wf_setByte {m : Memory} (h : Memory.wf m = true) (a : Nat) (v : Byte) : Memory.wf (Memory.setByte m a v) = true := by
  induction m with
  | nil =>
    simp only [Memory.setByte]
    split
    · rfl
    · next e => simpa [Memory.wf] using e
  | cons p t ih =>
    obtain ⟨j, w⟩ := p
    have hw := (Memory.wf_cons j w t).1 h
    simp only [Memory.setByte]
    split
    · split
      · exact h
      · rw [Memory.wf_cons]; exact ⟨‹_›, by simp [Memory.above]; omega, h⟩
    · split
      · split
        · exact hw.2.2
        · next e _ => subst e; rw [Memory.wf_cons]; exact ⟨‹_›, hw.2.1, hw.2.2⟩
      · rw [Memory.wf_cons]
        exact ⟨hw.1, Memory.above_setByte hw.2.1 hw.2.2 (by omega), ih hw.2.2⟩

/-- Writing a number's bytes keeps the canonical form. -/
theorem Memory.wf_write {m : Memory} (h : Memory.wf m = true) (a n v : Nat) : Memory.wf (Memory.write m a n v) = true := by
  induction n generalizing m a v with
  | zero => exact h
  | succ n ih => exact ih (Memory.wf_setByte h _ _) _ _

theorem Memory.wf_filter {m : Memory} (h : Memory.wf m = true) (p : Host.Cell → Bool) : Memory.wf (m.filter p) = true := by
  suffices ∀ n, Memory.above n m → Memory.above n (m.filter p) ∧ Memory.wf (m.filter p) = true from (this 0 (by cases m <;> simp [Memory.above])).2
  induction m with
  | nil => intro n _; simp [Memory.above, Memory.wf]
  | cons q t ih =>
    obtain ⟨j, w⟩ := q
    intro n hn
    have hw := (Memory.wf_cons j w t).1 h
    have ht := ih hw.2.2 (j + 1) hw.2.1
    have hj : n ≤ j := hn
    by_cases hp : p (j, w) = true
    · simp only [List.filter_cons_of_pos hp]
      exact ⟨hj, (Memory.wf_cons _ _ _).2 ⟨hw.1, ht.1, ht.2⟩⟩
    · simp only [List.filter_cons_of_neg hp]
      exact ⟨Memory.above_mono (by omega) ht.1, ht.2⟩

/-- Clearing a range keeps the canonical form. -/
theorem Memory.wf_clear {m : Memory} (h : Memory.wf m = true) (a n : Nat) : Memory.wf (Memory.clear m a n) = true :=
  Memory.wf_filter h _

/-- Any fold of writes keeps the canonical form. -/
theorem Memory.wf_foldl {α : Type} (l : List α) (f : Memory → α → Memory) (hf : ∀ m x, Memory.wf m = true → Memory.wf (f m x) = true)
    {m : Memory} (h : Memory.wf m = true) : Memory.wf (l.foldl f m) = true := by
  induction l generalizing m with
  | nil => exact h
  | cons x t ih => exact ih (hf m x h)

/-- Copying a frame keeps the canonical form. -/
theorem Memory.wf_copyTo {m : Memory} (h : Memory.wf m = true) (a b n : Nat) : Memory.wf (Memory.copyTo m a b n) = true :=
  Memory.wf_foldl _ _ (fun _ _ hm => Memory.wf_setByte hm _ _) (Memory.wf_clear h _ _)

/-! ## Reading after writing -/

theorem Memory.byte_of_above {n : Nat} {m : Memory} (h : Memory.above (n + 1) m) : Memory.byte m n = 0 := by
  cases m with
  | nil => rfl
  | cons p t =>
    obtain ⟨j, w⟩ := p
    have : n + 1 ≤ j := h
    simp only [Memory.byte]
    rw [if_neg (by omega), if_pos (by omega)]

/-- The byte just written. -/
theorem Memory.byte_setByte_same {m : Memory} (h : Memory.wf m = true) (a : Nat) (v : Byte) : Memory.byte (Memory.setByte m a v) a = v := by
  induction m with
  | nil => simp only [Memory.setByte]; split <;> simp [Memory.byte, *]
  | cons p t ih =>
    obtain ⟨j, w⟩ := p
    have hw := (Memory.wf_cons j w t).1 h
    simp only [Memory.setByte]
    split
    · split
      · next e => simp only [Memory.byte]; rw [if_neg (by omega), if_pos ‹_›, e]
      · simp [Memory.byte]
    · split
      · next e =>
        subst e
        split
        · next e => rw [e]; exact Memory.byte_of_above hw.2.1
        · simp [Memory.byte]
      · simp only [Memory.byte]
        rw [if_neg ‹_›, if_neg ‹_›]
        exact ih hw.2.2

/-- Every other byte. -/
theorem Memory.byte_setByte_other (m : Memory) (a b : Nat) (v : Byte) (h : Memory.wf m = true) (hb : b ≠ a) :
    Memory.byte (Memory.setByte m a v) b = Memory.byte m b := by
  induction m with
  | nil => simp only [Memory.setByte]; split <;> simp [Memory.byte]; intro e; exact absurd e.symm hb
  | cons p t ih =>
    obtain ⟨j, w⟩ := p
    have hw := (Memory.wf_cons j w t).1 h
    simp only [Memory.setByte]
    split
    · split
      · rfl
      · rw [Memory.byte, if_neg (Ne.symm hb)]
        split
        · simp only [Memory.byte]; rw [if_neg (by omega), if_pos (by omega)]
        · rfl
    · split
      · next e =>
        subst e
        split
        · simp only [Memory.byte]
          rw [if_neg (Ne.symm hb)]
          split
          · exact Memory.byte_of_above (Memory.above_mono (by omega) hw.2.1)
          · rfl
        · simp only [Memory.byte, if_neg (Ne.symm hb)]
      · simp only [Memory.byte, ih hw.2.2]

/-- Bytes outside the range written keep their values. -/
theorem Memory.byte_write_other {m : Memory} (h : Memory.wf m = true) (a n v b : Nat) (hb : b < a ∨ a + n ≤ b) :
    Memory.byte (Memory.write m a n v) b = Memory.byte m b := by
  induction n generalizing m a v with
  | zero => rfl
  | succ n ih =>
    rw [Memory.write, ih (Memory.wf_setByte h _ _) _ _ (by omega), Memory.byte_setByte_other _ _ _ _ h (by omega)]

/-- Reading back what was written. -/
theorem Memory.read_write_same {m : Memory} (h : Memory.wf m = true) (a n v : Nat) : Memory.read (Memory.write m a n v) a n = v % 256 ^ n := by
  induction n generalizing m a v with
  | zero => simp [Memory.read, Nat.mod_one]
  | succ n ih =>
    rw [Memory.read, Memory.write, ih (Memory.wf_setByte h _ _)]
    rw [Memory.byte_write_other (Memory.wf_setByte h _ _) _ _ _ _ (by omega), Memory.byte_setByte_same h]
    have e : 256 ^ (n + 1) = 256 * 256 ^ n := by rw [Nat.pow_succ, Nat.mul_comm]
    rw [BitVec.toNat_ofNat, e, Nat.mod_mul]

end Sys2Proof.Machine
end

