-- ==== Sys2Proof/Laws/Vector.lean ====
section
/-! SUPPORT. What a source and a vector result are, said once: the size of a source, the write lane by lane, and the two ways in which
an instruction that raises flags ends. -/
namespace Sys2Proof.Machine

variable {h : List Hint} {s : State} {i : Issue}

/-! ## simple -/

/-- An instruction with no fault of its own: its effect happens. -/
theorem simple_ok {op : BitVec 8} {p : BitVec 24} {f : Form} {eff : Issue → State → State}
    (hi : Issues s h i (reservedSet op p) f false false none) :
    simple h s op p f eff = .next (eff (s.sampleClk i f).1 (s.sampleClk i f).2) :=
  perform_ok hi

/-! ## Numbers -/

theorem sx_eq (w x : Nat) (hw : 0 < w) : sx w x = (BitVec.ofNat w x).toInt := by
  obtain ⟨k, rfl⟩ : ∃ k, w = k + 1 := ⟨w - 1, by omega⟩
  rw [BitVec.toInt_eq_toNat_cond]
  simp only [sx, BitVec.toNat_ofNat, Nat.add_sub_cancel]
  have : 2 ^ (k + 1) = 2 * 2 ^ k := by rw [Nat.pow_succ]; omega
  split <;> split <;> first | rfl | omega

theorem low_eq (w : Nat) (x : Int) : low w x = (BitVec.ofInt w x).toNat := by
  simp [low, BitVec.toNat_ofInt]

theorem low_lt (w : Nat) (x : Int) : low w x < 2 ^ w := by
  rw [low_eq]; exact (BitVec.ofInt w x).isLt

/-! ## Sources (R53, R54) -/

theorem Group.vval_lt (g : Group) (n : Nat) (wide : Bool) (l : Nat) : g.vval n wide l < if wide then 2 ^ 64 else 2 ^ 32 := by
  have a := (g.vreg n l).isLt
  have b := (g.vreg (n + 1) l).isLt
  unfold Group.vval
  split
  · split <;> omega
  · exact a

theorem Issue.special_lt (i : Issue) (n l : Nat) : i.special n l < 2 ^ 32 := Nat.mod_lt _ (by decide)

theorem convert_int_lt (sg : Bool) (w : Nat) (m : FpMode) (v : Val) : (convert (.int sg w) m v).1 < 2 ^ w := by
  have h0 : 0 < 2 ^ w := Nat.two_pow_pos w
  cases v with
  | int z => exact low_lt _ _
  | flt x =>
    cases x with
    | nan q => exact h0
    | inf n => exact low_lt _ _
    | fin n a e =>
      simp only [convert]
      split
      · exact low_lt _ _
      · exact low_lt _ _

/-- The integer constants and the real ones rounded to integers are w-bit numbers. -/
theorem constBits_int_lt (w n : Nat) : constBits (.int w) n < 2 ^ w := by
  unfold constBits
  simp only
  split
  · exact low_lt _ _
  · exact convert_int_lt _ _ _ _

/-- A source read straight as an integer of 32 or 64 bits is one. -/
theorem Issue.straight_lt (y : Src) (w l : Nat) (hw : w = 32 ∨ w = 64) (hl : l < 64) : i.straight y (.int w) l < 2 ^ w := by
  have hs := fun n => i.special_lt n l
  have hv := fun n => i.g.vval_lt n ((Kind.int w).wide) l
  have hc := constBits_int_lt w y.code
  have cut : ∀ v : DWord, (if (Kind.int w).wide then v.toNat else v.toNat % 2 ^ 32) < 2 ^ w := by
    intro v
    have := v.isLt
    rcases hw with rfl | rfl
    · simp [Kind.wide]; omega
    · simp [Kind.wide]; omega
  have hp : 2 ^ 32 ≤ 2 ^ w := by rcases hw with rfl | rfl <;> decide
  unfold Issue.straight
  simp only
  split
  · next n _ =>
    have := hv n
    rcases hw with rfl | rfl <;> simpa [Kind.wide] using this
  · exact cut _
  · split
    · split
      · omega
      · split
        · omega
        · exact cut _
    · split
      · exact cut _
      · split
        · have := hs y.code; omega
        · exact hc

/-- A source read as an integer of 32 or 64 bits is one, through any route. -/
theorem Issue.src_lt (y : Src) (w l : Nat) (hw : w = 32 ∨ w = 64) (hl : l < 64) : i.src y (.int w) l < 2 ^ w := by
  unfold Issue.src
  simp only
  split
  · exact Issue.straight_lt y w l hw hl
  · split
    · next h =>
      exact Issue.straight_lt y w _ hw (by
        by_cases ht : routeLane i.g (y.route i.h i.g).1 l < 64
        · exact ht
        · have : i.em.getLsbD (routeLane i.g (y.route i.h i.g).1 l) = false := BitVec.getLsbD_of_ge _ _ (by omega)
          simp [this] at h)
    · unfold fillOf
      have := Issue.straight_lt (i := i) y w l hw hl
      split
      · exact Nat.two_pow_pos w
      · exact this
      · rcases hw with rfl | rfl <;> simp [Kind.wide]

theorem Issue.at_lt (ys : List Src) (n w l : Nat) (hw : w = 32 ∨ w = 64) (hl : l < 64) : i.at ys n (.int w) l < 2 ^ w :=
  Issue.src_lt _ _ _ hw hl

theorem widthOf_cases (h : List Hint) : widthOf h = 32 ∨ widthOf h = 64 := by unfold widthOf; split <;> simp

/-! ## The vector write (R56, R59) -/

theorem lanesOf_spec (m : DWord) (l : Nat) : l ∈ lanesOf m ↔ l < 64 ∧ m.getLsbD l = true := by
  simp [lanesOf, allLanes]

/-- Two vector writes that give the active lanes the same values are one write. -/
theorem Issue.write_congr (d : Nat) (wide : Bool) (m : DWord) {f f' : Nat → Nat}
    (hf : ∀ l, l < 64 → m.getLsbD l = true → f l = f' l) : i.write d wide m f = i.write d wide m f' := by
  have key : ∀ {α : Type} (a b : Nat → α) (x y : Nat → α), (∀ l, l < 64 → (if m.getLsbD l then a l else x l) = (if m.getLsbD l then b l else y l)) →
      (allLanes.map fun l => (l, if m.getLsbD l then a l else x l)) = allLanes.map fun l => (l, if m.getLsbD l then b l else y l) := by
    intro α a b x y hab
    apply List.map_congr_left
    intro l hl
    rw [hab l (by simpa [allLanes] using hl)]
  unfold Issue.write
  have e1 : (Lanes64.of fun l => if m.getLsbD l then BitVec.ofNat 64 (f l) else BitVec.ofNat 64 (if d = 63 then 0 else i.g.vval d wide l))
      = Lanes64.of fun l => if m.getLsbD l then BitVec.ofNat 64 (f' l) else BitVec.ofNat 64 (if d = 63 then 0 else i.g.vval d wide l) := by
    apply key
    intro l hl
    by_cases hm : m.getLsbD l = true
    · simp [hm, hf l hl hm]
    · simp [hm]
  have e2 : ∀ (g : Group) (n : Nat) (q : Nat → Nat → Word), (∀ l, l < 64 → m.getLsbD l = true → q l (f l) = q l (f' l)) →
      g.setV n m (fun l => q l (f l)) = g.setV n m (fun l => q l (f' l)) := by
    intro g n q hq
    unfold Group.setV
    split
    · rfl
    · have : (Lanes.of fun l => if m.getLsbD l then q l (f l) else g.vreg n l) = Lanes.of fun l => if m.getLsbD l then q l (f' l) else g.vreg n l := by
        apply key
        intro l hl
        by_cases hm : m.getLsbD l = true
        · simp [hm, hq l hl hm]
        · simp [hm]
      rw [this]
  simp only [e1]
  rw [e2 _ d (fun _ v => BitVec.ofNat 32 v) (fun l hl hm => by rw [hf l hl hm]),
    e2 _ (d + 1) (fun _ v => BitVec.ofNat 32 (v / 2 ^ 32)) (fun l hl hm => by rw [hf l hl hm])]

/-- A vector register after a vector write, in a lane: a v63 destination writes nothing, a pair writes two registers. -/
theorem Issue.vreg_write (d : Nat) (wide : Bool) (m : DWord) (f : Nat → Nat) (n l : Nat) (hl : l < 64) :
    (i.write d wide m f).vreg n l =
      if m.getLsbD l = true ∧ n = d ∧ n ≠ 63 then BitVec.ofNat 32 (f l)
      else if m.getLsbD l = true ∧ wide = true ∧ d ≠ 63 ∧ n = d + 1 ∧ n ≠ 63 then BitVec.ofNat 32 (f l / 2 ^ 32)
      else i.g.vreg n l := by
  have h1 : ∀ (g : Group) (k : Nat) (q : Nat → Word), (g.setV k m q).vreg n l
      = if m.getLsbD l = true ∧ n = k ∧ n ≠ 63 then q l else g.vreg n l := by
    intro g k q
    unfold Group.setV Group.vreg
    by_cases hk : k = 63
    · subst hk
      by_cases hn : n = 63 <;> simp [hn]
    · by_cases hn : n = 63
      · simp [hn]
      · by_cases hnk : n = k
        · subst hnk; by_cases hm : m.getLsbD l = true <;> simp [hn, hl, hm]
        · simp [hk, hn, hnk]
  have h2 : ∀ (g : Group) (x : Strand), (g.setStrand i.n x).vreg n l = g.vreg n l := fun _ _ => rfl
  unfold Issue.write
  by_cases hw : wide = true
  · by_cases hd : d = 63
    · simp [hw, hd, h1, h2]
    · simp only [hw, hd, bne_iff_ne, ne_eq, not_false_eq_true, Bool.true_and, ↓reduceIte, h1, h2]
      simp
      by_cases ha : n = d + 1
      · subst ha
        simp
      · simp [ha]
  · simp [hw, h1, h2]

/-- A vector write changes its registers and its strand's window, and nothing else. -/
theorem Issue.write_frame (d : Nat) (wide : Bool) (m : DWord) (f : Nat → Nat) :
    { i.write d wide m f with vregs := i.g.vregs, strands := i.g.strands } = i.g := by
  have hv : ∀ (g : Group) (k : Nat) (q : Nat → Word) (a : Bank Lanes) (b : Bank Strand),
      { g.setV k m q with vregs := a, strands := b } = { g with vregs := a, strands := b } := by
    intro g k q a b
    unfold Group.setV
    split <;> rfl
  unfold Issue.write
  simp only
  split <;> simp only [hv] <;> rfl

/-- The window entry of a vector write (R59). -/
def Issue.entry (i : Issue) (d : Nat) (wide : Bool) (m : DWord) (f : Nat → Nat) : Lanes64 :=
  Lanes64.of fun l =>
    if m.getLsbD l then BitVec.ofNat 64 (f l) else BitVec.ofNat 64 (if d = 63 then 0 else i.g.vval d wide l)

theorem Issue.strands_write (d : Nat) (wide : Bool) (m : DWord) (f : Nat → Nat) :
    (i.write d wide m f).strands = Bank.put i.g.strands i.n (i.x.push (i.entry d wide m f)) := by
  have hv : ∀ (g : Group) (k : Nat) (q : Nat → Word), (g.setV k m q).strands = g.strands := by
    intro g k q
    unfold Group.setV
    split <;> rfl
  unfold Issue.write
  simp only
  split <;> simp only [hv] <;> rfl

/-! ## Flags and traps (R39, R94) -/

theorem laneFlags_none (ls : List Nat) (f : Nat → Nat) (h : ∀ l ∈ ls, f l = 0) : laneFlags ls f = 0 := by
  unfold laneFlags
  induction ls with
  | nil => rfl
  | cons a t ih => simp only [List.foldl_cons, h a (by simp)]; exact ih (fun l hl => h l (by simp [hl]))

@[simp] theorem Group.raise_zero (g : Group) : g.raise 0 = g := by simp [Group.raise]

/-- An instruction that raises no flag retires. -/
theorem State.settle_plain (g : Group) (m : DWord) {fl : Nat → Nat} (h : ∀ l, fl l = 0) : s.settle i g m fl = s.retire i g i.next false := by
  simp [State.settle, laneFlags_none _ fl (fun l _ => h l)]

theorem State.vec_plain (d : Nat) (wide : Bool) (m : DWord) (val : Nat → Nat) :
    s.vec i { d := d, wide := wide, m := m, val := val } = s.retire i (i.write d wide m val) i.next false :=
  State.settle_plain _ _ fun _ => rfl

end Sys2Proof.Machine
end

