-- ==== Sys2Proof/Tests/Slice0.lean ====
section
/-! SUPPORT. The model's own tests: words written out from the spec's encodings and examples, terms that well-formedness refuses, single
instructions whose results the spec states, and for each statement states that meet its hypotheses. -/
namespace Sys2Proof.Tests
set_option Elab.async false
open Sys2Proof.Machine Sys2Proof.Claims

/-! ## Decoding words of the spec's examples (R49, R66, R71; the example word of each encoding table) -/

/-- What a word is, by itself. -/
def reads (w : Word) : Option (Instr × List Word) := (decodeWords [w]).toOption

-- Flow and system (R100 to R113, R329, R346): nop, bra !p3, park, ordmark.
theorem test_decode_flow : reads 0x00000000 = some (.nop [] ⟨0, 0, 0, 0⟩, []) ∧ reads 0x011FFFFB = some (.bra [] ⟨0, 3, 1, 0x3FFFB⟩, []) ∧
    reads 0xE4140007 = some (.ordmark [] ⟨5, 0, 0, 7⟩, []) := by decide
-- Row 0x1 (R117): iadd v3, v1, v2; imad; idiv; iabs.
theorem test_decode_arithmetic : reads 0x100C0820 = some (.iadd [] ⟨3, 1, 2, 0, 0⟩, []) ∧ reads 0x15101083 = some (.imad [] ⟨4, 1, 2, 3⟩, []) ∧
    reads 0x16101030 = some (.idiv [] ⟨4, 2, 3, 0, 0⟩, []) ∧ reads 0x1E080800 = some (.iabs [] ⟨2, 1, 0, 0, 0⟩, []) := by decide
-- Row 0x2 (R119, R120): shl by a constant; bfx; iaddi -1; mov through q1.
theorem test_decode_logic : reads 0x24080F30 = some (.shl [] ⟨2, 1, 0x73, 0, 0⟩, []) ∧ reads 0x28140888 = some (.bfx [] ⟨5, 1, 0x88⟩, []) ∧
    reads 0x2E080FFF = some (.iaddi [] ⟨2, 1, 0x7FF⟩, []) ∧ reads 0x2F081004 = some (.mov [] ⟨2, 2, 0, 1, 0⟩, []) := by decide
-- Row 0x5 (R124 to R127): icmp.lt; fcmp.une; sel; pand; pcnt; vote.any; elect.
theorem test_decode_predicates : reads 0x5012040C = some (.icmp [] ⟨1, 2, 2, 3, 0, 0⟩, []) ∧ reads 0x522E0900 = some (.fcmp [] ⟨2, 14, 4, 64, 0, 0⟩, []) ∧
    reads 0x54101093 = some (.sel [] ⟨4, 1, 2, 0x13⟩, []) ∧ reads 0x550420C0 = some (.pand [] ⟨1, 2, 3, 0⟩, []) ∧
    reads 0x5B201000 = some (.pcnt [] ⟨8, 1, 0, 0⟩, []) ∧ reads 0x5D310A00 = some (.vote [] ⟨3, 1, 5, 0, 0, 0⟩, []) ∧
    reads 0x5E400000 = some (.elect [] ⟨4, 0, 0, 0, 0, 0⟩, []) := by decide
-- Row 0x8 (R128): sadd; sshrl; scmp; ssel; smovi -1; sget; sset.
theorem test_decode_uniform : reads 0x80104FC1 = some (.sadd [] ⟨4, 4, 63, 1⟩, []) ∧ reads 0x87083FC4 = some (.sshrl [] ⟨2, 3, 63, 4⟩, []) ∧
    reads 0x8B1461D2 = some (.scmp [] ⟨5, 6, 7, 0x12⟩, []) ∧ reads 0x8C0420C4 = some (.ssel [] ⟨1, 2, 3, 4⟩, []) ∧
    reads 0x8D27FFFF = some (.smovi [] ⟨9, 0x3FFFF⟩, []) ∧ reads 0x8E280000 = some (.sget [] ⟨10, 0, 0, 0⟩, []) ∧
    reads 0x8F00A000 = some (.sset [] ⟨0, 10, 0, 0⟩, []) := by decide
-- Row 0xA (R218 to R225): atom; amon.fadd; atomu; cas; casu; binit; badd.rel; bwait; bdrop.
theorem test_decode_atomics : reads 0xA01021C0 = some (.atom [] ⟨4, 2, 7, 0, 0⟩, []) ∧ reads 0xA11421C8 = some (.amon [] ⟨5, 2, 7, 1, 0⟩, []) ∧
    reads 0xA2146000 = some (.atomu [] ⟨5, 6, 0, 0⟩, []) ∧ reads 0xA31021C0 = some (.cas [] ⟨4, 2, 7, 0, 0⟩, []) ∧
    reads 0xA5083100 = some (.binit [] ⟨2, 3, 4, 0⟩, []) ∧ reads 0xA6084001 = some (.badd [] ⟨2, 4, 0, 1⟩, []) ∧
    reads 0xA8085000 = some (.bdrop [] ⟨2, 5, 0, 0⟩, []) := by decide
-- Copies (R185): copy with a barrier; copyt; kick.
theorem test_decode_copies : reads 0xB0083181 = some (.copy [] ⟨2, 3, 6, 1⟩, []) ∧ reads 0xB1204281 = some (.copyt [] ⟨8, 4, 10, 1⟩, []) ∧
    reads 0xB230D000 = some (.kick [] ⟨12, 13, 0, 0⟩, []) := by decide
-- Tasks (R249 to R255): spawn; spawnr.blk; join; fset; exec; lease; unlease.
theorem test_decode_tasks : reads 0xC0244000 = some (.spawn [] ⟨9, 4, 0, 0⟩, []) ∧ reads 0xC1244141 = some (.spawnr [] ⟨9, 4, 5, 1⟩, []) ∧
    reads 0xC224A000 = some (.joinF [] ⟨9, 10, 0, 0⟩, []) ∧ reads 0xC3300002 = some (.fset [] ⟨12, 0, 0, 2⟩, []) ∧
    reads 0xC410A000 = some (.execR [] ⟨4, 10, 0, 0⟩, []) ∧ reads 0xC5083180 = some (.lease [] ⟨2, 3, 6, 0⟩, []) ∧
    reads 0xC6086000 = some (.unlease [] ⟨2, 6, 0, 0⟩, []) := by decide
-- Tiles (R270 to R290): tld; tst; tzero; tcvt; mma; mmak; scout; thresh; ablk; ard; arow.sum.
theorem test_decode_tiles : reads 0xD0200100 = some (.tld [] ⟨2, 0, 0, 4, 0⟩, []) ∧ reads 0xD2500000 = some (.tzero [] ⟨5, 0, 0, 0, 0⟩, []) ∧
    reads 0xD4245000 = some (.mma [] ⟨2, 4, 5, 0, 0⟩, []) ∧ reads 0xD8001184 = some (.scout [] ⟨0, 0, 1, 6, 4⟩, []) ∧
    reads 0xD9005204 = some (.thresh [] ⟨0, 0, 5, 8, 4⟩, []) ∧ reads 0xDA000288 = some (.ablk [] ⟨0, 0, 0, 10, 8⟩, []) ∧
    reads 0xDC001007 = some (.arow [] ⟨0, 0, 1, 0, 7⟩, []) := by decide
-- R71's sequence: run 4, ximm, iaddi.
theorem test_decode_sequence : (decodeWords [0xF0200000, 0xF1000030, 0x2E1746A0]).toOption = some (.iaddi [.run 0x200000, .ximm 0x30] ⟨5, 104, 0x6A0⟩, []) := by
  decide
-- R68: 0x4F is unassigned, and the word that ends a seven hint sequence is not read.
theorem test_decode_unassigned : reads 0x4F000000 = some (.unassignedOpcode [] 0x4F000000, []) ∧
    (decodeWords (List.replicate 7 0xF1000000)).toOption = some (.seventhHintWord (List.replicate 7 (.ximm 0)), []) := by decide
-- The decoder as the opcode table numbers bits: one little-endian word.
theorem test_table_word : decodeTableWord 32 0x100C0820 = some (.iadd [] ⟨3, 1, 2, 0, 0⟩) := by decide

/-! ## What well-formedness refuses (R51, R60, R61, R63, R64, R68) -/

theorem test_wf_accepts : Instr.wf (.iadd [.run 0x200000, .xmod 0] ⟨3, 1, 2, 0, 0⟩) = true ∧ Instr.wf .launch = true := by decide
theorem test_wf_run_not_first : Instr.wf (.iadd [.xmod 0, .run 0x200000] ⟨3, 1, 2, 0, 0⟩) = false := by decide
theorem test_wf_three_ximm : Instr.wf (.iaddi [.ximm 1, .ximm 2, .ximm 3] ⟨3, 1, 2⟩) = false := by decide
theorem test_wf_two_xrta : Instr.wf (.iadd [.xrta 1, .xrta 2] ⟨3, 1, 2, 0, 0⟩) = false := by decide
theorem test_wf_two_xrtc : Instr.wf (.imad [.xrtc 0x400, .xrtc 0x400] ⟨3, 1, 2, 0⟩) = false := by decide
theorem test_wf_two_xmod : Instr.wf (.fadd [.xmod 0x1000, .xmod 0x1000] ⟨3, 1, 2, 0, 0⟩) = false := by decide
theorem test_wf_run_reserved : Instr.wf (.nop [.run 0x200001] ⟨0, 0, 0, 0⟩) = false := by decide
theorem test_wf_xrtc_reserved : Instr.wf (.imad [.xrtc 1] ⟨3, 1, 2, 0⟩) = false := by decide
theorem test_wf_xmod_reserved : Instr.wf (.fadd [.xmod 1] ⟨3, 1, 2, 0, 0⟩) = false := by decide
theorem test_wf_field_reserved : Instr.wf (.nop [] ⟨1, 0, 0, 0⟩) = false := by decide
theorem test_wf_seven_hints : Instr.wf (.seventhHintWord (List.replicate 7 (.ximm 0))) = false := by decide
theorem test_wf_too_many_hints : Instr.wf (.nop (List.replicate 7 (.ximm 0)) ⟨0, 0, 0, 0⟩) = false := by decide
theorem test_wf_unassigned : Instr.wf (.unassignedOpcode [] 0x4F000000) = false := by decide
theorem test_codable_assigned : Instr.codable (.unassignedOpcode [] 0x10000000) = false := by decide

/-! ## A small state: context 0 open over one page, and one group on slot 0 of core 0, its strand at address 0 -/

/-- The part with one group, as withFetchWord places it, its registers as a test wants them. -/
def rig (f : Group → Group) : State :=
  let s := State.reset.placePage.placeContext.placeGroup 0
  s.setGroup 0 0 (f (s.group 0 0))

/-- The issue of the rig's strand. -/
def rigIssue (s : State) (h : List Hint) : Issue :=
  (s.issue h).getD { core := 0, slot := 0, n := 0, g := {}, x := {}, h := [], pc := 0, addr := 0, clk := 0 }

/-- The rig with nothing set. -/
def rig0 : State := rig id
/-- Its issue. -/
def i0 : Issue := rigIssue rig0 []

theorem issue_rig0 : rig0.issue [] = some i0 := by decide +kernel

/-- A fault check that passes on the rig. -/
theorem issues0 {r : Bool} {f : Form} {ro op : Bool} {own : Option Flt} (h : i0.fault r f ro op (fun _ => own) = none) :
    Issues rig0 [] i0 r f ro op own := ⟨issue_rig0, h⟩

/-- The group that one step leaves of a word at the strand's address. -/
def ran (f : Group → Group) (w : Nat) : Group :=
  let s := State.reset.withFetchWord 32 w
  match step (s.setGroup 0 0 (f (s.group 0 0))) with
  | .next t => t.group 0 0
  | _ => {}

-- R117: iadd v3, v1, v2 wraps; R118: idiv by zero gives all ones and DZ; R128: sadd s4, s4, s63, 1 wraps.
theorem test_iadd_wraps : (ran (fun g => (g.setV 1 1 fun _ => 0xFFFFFFFF).setV 2 1 fun _ => 2) 0x100C0820).vreg 3 0 = 1 := by decide +kernel
theorem test_idiv_by_zero : (ran (fun g => g.setV 2 1 fun _ => 7) 0x16101030).vreg 4 0 = 0xFFFFFFFF := by decide +kernel
theorem test_sadd_wraps : (ran (fun g => g.setS 4 (BitVec.allOnes 64)) 0x80104FC1).sreg 4 = 0 := by decide +kernel
theorem test_smovi_sign : (ran id 0x8D27FFFF).sreg 9 = BitVec.allOnes 64 := by decide +kernel
-- R102: bra !p3 to the instruction five words back of the next, with p3 false in every lane: address 0 + 4 · (-5).
theorem test_bra_back : ((ran id 0x011FFFFB).strand 0).pc = BitVec.ofInt 64 (-20) := by decide +kernel

/-! ## States and operands that meet the statements' hypotheses: registers and computation -/

def v62 : FmtV := ⟨62, 62, 104, 0, 0⟩
def t62 : FmtT := ⟨62, 47, 62, 63⟩
def x62 : FmtI := ⟨62, 62, 0x400⟩
def u7 : FmtU := ⟨63, 62, 0, 0⟩
def p14 : FmtP := ⟨14, 7, 62, 119, 0, 0⟩
/-- The greatest pair. -/
def p14d : FmtP := ⟨14, 15, 60, 119, 0, 0⟩
/-- SEL by !p15. -/
def tSel : FmtT := ⟨62, 47, 62, 0x1F⟩
def c0 : FmtC := ⟨0, 0, 0, 0⟩
def b15 : FmtB := ⟨0, 15, 0, 0x20000⟩

theorem witness_IntegerTwoSources : ∀ r ∈ intTwo, Issues rig0 [] i0 (reservedSet r.op v62.payload) (intForm [] v62.d.toNat v62.two) false false none :=
  fun r hr => issues0 ((by decide +kernel : ∀ r ∈ intTwo,
    i0.fault (reservedSet r.op v62.payload) (intForm [] v62.d.toNat v62.two) false false (fun _ => none) = none) r hr)

theorem witness_IntegerDivision : ∀ r ∈ intDiv, Issues rig0 [] i0 (reservedSet r.op v62.payload) (intForm [] v62.d.toNat v62.two) false false none :=
  fun r hr => issues0 ((by decide +kernel : ∀ r ∈ intDiv,
    i0.fault (reservedSet r.op v62.payload) (intForm [] v62.d.toNat v62.two) false false (fun _ => none) = none) r hr)

/-- A source b of zero, so that one-source words have no reserved bit set. -/
def v1 : FmtV := ⟨62, 62, 0, 0, 0⟩

theorem witness_IntegerOtherForms :
    (∀ r ∈ intOne, Issues rig0 [] i0 (reservedSet r.op v1.payload) (intForm [] v1.d.toNat v1.one) false false none) ∧
    Issues rig0 [] i0 (reservedSet 0x15 t62.payload) (intForm [] t62.d.toNat t62.three) false false none ∧
    ((x62.imm.extractLsb' 5 6).toNat ≤ 32 ∧ Issues rig0 [] i0 false (fieldForm x62) false false none) ∧
    (∃ t, ximmsOf [.ximm 0xFF] = [t] ∧ t < 256 ∧ Issues rig0 [.ximm 0xFF] (rigIssue rig0 [.ximm 0xFF]) false
      (intForm [.ximm 0xFF] t62.d.toNat t62.three 1) false false none) ∧
    Issues rig0 [] i0 (reservedSet 0x2E x62.payload) (intForm [] x62.d.toNat x62.one 2) false false none ∧
    Issues rig0 [] i0 (reservedSet 0x54 tSel.payload)
      { xmod := xmW64, routed := true, srcs := tSel.two, wide := isW64 [], dest := some (tSel.d.toNat, if isW64 [] then 2 else 1) } false false none :=
  ⟨fun r hr => issues0 ((by decide +kernel : ∀ r ∈ intOne,
      i0.fault (reservedSet r.op v1.payload) (intForm [] v1.d.toNat v1.one) false false (fun _ => none) = none) r hr),
    issues0 (by decide +kernel), ⟨by decide, issues0 (by decide +kernel)⟩, ⟨255, by decide, by decide, by decide +kernel, by decide +kernel⟩,
    issues0 (by decide +kernel), issues0 (by decide +kernel)⟩

theorem witness_RegistersReadBack : (62 : Nat) ≠ 63 ∧ (14 : Nat) ≠ 15 ∧ (3 : Nat) ≠ 0 ∧ (63 : Nat) < 64 := by decide

theorem witness_VectorResultWrite : (63 : Nat) < 64 ∧ (62 : Nat) ≠ i0.n := by decide +kernel

theorem witness_SourceCodes : (63 : Nat) < 64 ∧ i0.slot < 32 ∧ i0.core < 1536 ∧ ∀ w ∈ [32, 64], w = 32 ∨ w = 64 := by decide +kernel

theorem witness_ShortSourceCodes : (63 : Nat) < 64 ∧ ∀ n ∈ [48, 55, 56, 61], 48 ≤ n := by decide

/-- An issue with a route on its first source: the index register, segments of 64 lanes, parameter 63. -/
def iRoute : Issue := { i0 with h := [.xrta 0x9BF000] }
/-- A routed source. -/
def routed : Src := { pos := 0, code := 1 }
theorem witness_RoutedSources :
    let spec := (routed.route iRoute.h iRoute.g).1
    (spec = 0x9BF ∧ spec < 4096 ∧ spec ≠ 0 ∧ spec / 512 ≤ 4 ∧ spec / 64 % 8 ≤ 6) ∧ (routed.route i0.h i0.g).1 = 0 := by decide +kernel

theorem witness_UniformTwoSources : ∀ r ∈ uniTwo, Issues rig0 [] i0 (reservedSet r.op u7.payload) {} false false none :=
  fun r hr => issues0 ((by decide +kernel : ∀ r ∈ uniTwo, i0.fault (reservedSet r.op u7.payload) {} false false (fun _ => none) = none) r hr)

/-- SCMP's greatest legal condition code, unsigned. -/
def uF : FmtU := ⟨63, 62, 63, 0x17⟩
/-- SGET's greatest special register. -/
def u8 : FmtU := ⟨63, 0, 0, 7⟩
theorem witness_UniformOtherForms :
    (uF.f.toNat % 16 < 8 ∧ Issues rig0 [] i0 (reservedSet 0x8B uF.payload) {} false false none) ∧
    Issues rig0 [] i0 (reservedSet 0x8C uF.payload) {} false false none ∧
    Issues rig0 [] i0 (reservedSet 0x8D (FmtS.payload ⟨63, 0x3FFFF⟩)) { ximm := 2 } false false none ∧
    (u8.f.toNat < 8 ∧ i0.g.task.det = false ∧ Issues rig0 [] i0 (reservedSet 0x8E u8.payload) {} false false none) ∧
    Issues rig0 [] i0 (reservedSet 0x8F (FmtU.payload ⟨0, 62, 0, 0⟩)) {} false false none :=
  ⟨⟨by decide, issues0 (by decide +kernel)⟩, issues0 (by decide +kernel), issues0 (by decide +kernel),
    ⟨by decide, by decide +kernel, issues0 (by decide +kernel)⟩, issues0 (by decide +kernel)⟩

theorem witness_Compares :
    (p14.pd ≠ 15 ∧ p14.cc.toNat < 8) ∧ Issues rig0 [] i0 (reservedSet 0x50 p14.payload) (cmpForm p14 xmW64 (isW64 [])) false false none ∧
    Issues rig0 [] i0 (reservedSet 0x51 p14.payload) (cmpForm p14 xmW64 (isW64 [])) false false none ∧
    Issues rig0 [] i0 (reservedSet 0x52 p14.payload) (cmpForm p14 xmFtz false) false false none ∧
    Issues rig0 [] i0 (reservedSet 0x53 p14d.payload) (cmpForm p14d xmFtz true) false false none :=
  ⟨by decide, issues0 (by decide +kernel), issues0 (by decide +kernel), issues0 (by decide +kernel), issues0 (by decide +kernel)⟩

/-- Predicates 14 and 15. -/
def uP : FmtU := ⟨14, 15, 15, 0⟩
/-- PSET, and what reads one predicate. -/
def uQ : FmtU := ⟨14, 15, 0, 0⟩
/-- VOTE's own values. -/
def pV : FmtP := ⟨14, 3, 62, 0, 0, 0⟩
theorem witness_Predicates :
    (uP.sd.toNat < 15 ∧ uP.sa.toNat < 16 ∧ uP.sb.toNat < 16) ∧
    (∀ r ∈ predTwo, Issues rig0 [] i0 (reservedSet r.op uP.payload) {} false false none) ∧
    (∀ op ∈ ([0x59, 0x5A, 0x5B, 0x5C] : List (BitVec 8)), Issues rig0 [] i0 (reservedSet op uQ.payload) {} false false none) ∧
    (pV.cc.toNat < 4 ∧ Issues rig0 [] i0 (reservedSet 0x5D pV.payload) { xmod := xmW64, routed := true, srcs := pV.one, wide := isW64 [] } false false none) ∧
    Issues rig0 [] i0 (reservedSet 0x5E (FmtP.payload ⟨14, 0, 0, 0, 0, 0⟩)) {} false false none :=
  ⟨by decide, fun r hr => issues0 ((by decide +kernel : ∀ r ∈ predTwo,
      i0.fault (reservedSet r.op uP.payload) {} false false (fun _ => none) = none) r hr),
    fun op ho => issues0 ((by decide +kernel : ∀ op ∈ ([0x59, 0x5A, 0x5B, 0x5C] : List (BitVec 8)),
      i0.fault (reservedSet op uQ.payload) {} false false (fun _ => none) = none) op ho),
    ⟨by decide, issues0 (by decide +kernel)⟩, issues0 (by decide +kernel)⟩

/-! ## Floating point -/

/-- The greatest pairs; one source, and v62. -/
def v60 : FmtV := ⟨60, 60, 104, 0, 0⟩
def v60a : FmtV := ⟨60, 60, 0, 0, 0⟩
def t60 : FmtT := ⟨60, 46, 60, 60⟩

/-- A fault check that passes on the rig for every row of a table. -/
theorem issuesAll {α : Type} {L : List α} {r : α → Bool} {f : α → Form} (h : ∀ x ∈ L, i0.fault (r x) (f x) false false (fun _ => none) = none) :
    ∀ x ∈ L, Issues rig0 [] i0 (r x) (f x) false false none := fun x hx => issues0 (h x hx)

theorem witness_FloatElementwise :
    (∀ r ∈ fpTwo, Issues rig0 [] i0 (reservedSet r.op v60.payload) (r.sh.form v60.d.toNat v60.two) false false none) ∧
    (∀ r ∈ fpOne, Issues rig0 [] i0 (reservedSet r.op v60a.payload) (r.sh.form v60a.d.toNat v60a.one) false false none) ∧
    (∀ r ∈ fpThree, Issues rig0 [] i0 (reservedSet r.op t60.payload) (r.sh.form t60.d.toNat t60.three) false false none) :=
  ⟨issuesAll (by decide +kernel), issuesAll (by decide +kernel), issuesAll (by decide +kernel)⟩

theorem witness_RoundingToGrains : (0 : Int) ≤ 0 ∧ (-1 : Int) < 0 := by decide

/-- The least negative magnitude of every format. -/
def least (F : Fmt) : Bool :=
  match F.value (2 ^ (F.width - 1) + 1) with
  | .fin neg man _ => neg && man != 0 && decide (2 ^ (F.width - 1) + 1 < 2 ^ F.width)
  | _ => false
theorem witness_RepresentableValuesKept : ∀ F ∈ formats, least F = true := by decide +kernel

theorem witness_FloatSpecialValues : (1 : Nat) ≠ 0 ∧ f32.value 0x7FC00001 = .nan false ∧ (f32.value 0xFF800000).isNan = false ∧
    f32.value 0x7F800001 = .nan true ∧ f32.value 0x80000000 = .fin true 0 (-149) ∧ f32.value 0 = .fin false 0 (-149) ∧
    (Fl.mul (f32.value 0) (f32.value 0xFF7FFFFF)).isSome = true ∧ ({} : FpMode).ftz = false := by decide +kernel

/-- A grain more than the largest value, and twice the largest, exceed it in every mode, in a format; half a grain less rounds to it. -/
def exceeds (F : Fmt) (mode : Nat) : Bool :=
  match F.value (F.largest false) with
  | .fin false lm le =>
    [(2 * lm + 3, le - 1), (lm, le + 1), (lm + 1, le)].all fun (man, exp) => [true, false].all fun neg =>
      let grain := max (exp + man.log2 - F.M) (1 - (F.bias : Int) - F.M)
      let q := (roundTo grain mode neg 65535 man exp).1
      man != 0 && (decide (lm * 2 ^ (le - min le grain).toNat < q * 2 ^ (grain - min le grain).toNat) || man == 2 * lm + 3)
  | _ => false
theorem witness_Overflows : ∀ F ∈ formats, ∀ mode ∈ [0, 1, 2, 3, 4], mode ≤ 4 ∧ exceeds F mode = true := by decide +kernel

theorem witness_StochasticRounding : (-1 : Int) < 0 ∧ (roundTo 0 4 false 32767 3 (-1)).1 = 2 ∧ (roundTo 0 4 false 32768 3 (-1)).1 = 1 := by
  decide +kernel

theorem witness_ConversionLimits : (8 : Nat) ∈ [8, 16, 32, 64] ∧ (64 : Nat) ∈ [8, 16, 32, 64] ∧
    (-2 ^ (8 - 1) ≤ (-128 : Int) ∧ (127 : Int) ≤ 2 ^ (8 - 1) - 1) ∧ (-129 : Int) < -2 ^ (8 - 1) ∧ (2 : Int) ^ (8 - 1) - 1 < 128 ∧
    (roundTo 0 0 true 0 257 (-1)).1 = 128 ∧ (roundTo 0 0 true 0 259 (-1)).1 = 130 := by decide +kernel

/-- CVT of f32 to f16; PACK of f32 to the upper half of f16; UNPK of the upper halves of f16 to f32. -/
def xCvt : FmtI := ⟨62, 62, 0x0E6⟩
def xPack : FmtI := ⟨62, 60, 0x0E6⟩
def xUnpk : FmtI := ⟨60, 62, 0x06E⟩
/-- FCLASS of f64. -/
def vClass : FmtV := ⟨62, 60, 15, 0, 0⟩

theorem witness_FloatOtherForms :
    ((xCvt.imm.toNat % 16 ≠ 13 ∧ xCvt.imm.toNat / 16 % 16 ≠ 13 ∧ xCvt.imm.toNat / 256 < elemsOf (xCvt.imm.toNat / 16 % 16)) ∧
      Issues rig0 [] i0 (reservedSet 0x47 xCvt.payload)
        (cvtForm xCvt true (xCvt.imm.toNat / 16 % 16 == 15) (xCvt.imm.toNat % 16 == 15)) false false none) ∧
    ((plain32 (xPack.imm.toNat / 16 % 16) = true ∧ narrow (xPack.imm.toNat % 16) = true ∧
        2 * (xPack.imm.toNat / 256) + 1 < elemsOf (xPack.imm.toNat % 16)) ∧
      Issues rig0 [] i0 (reservedSet 0x48 xPack.payload) (cvtForm xPack false true false) false false none) ∧
    ((plain32 (xUnpk.imm.toNat % 16) = true ∧ narrow (xUnpk.imm.toNat / 16 % 16) = true ∧
        2 * (xUnpk.imm.toNat / 256) + 1 < elemsOf (xUnpk.imm.toNat / 16 % 16)) ∧
      Issues rig0 [] i0 (reservedSet 0x49 xUnpk.payload) (cvtForm xUnpk false false true) false false none) ∧
    (dotBad [] 8 (fun t => decide (8 ≤ t) && decide (t ≤ 11)) = false ∧ Issues rig0 [] i0 (reservedSet 0x4A t62.payload)
      { ximm := 1, xmod := xmArith, routed := true, srcs := t62.three, dest := some (t62.d.toNat, 1) } false false none) ∧
    (dotBad [] 0 (fun t => decide (t ≤ 1)) = false ∧ Issues rig0 [] i0 (reservedSet 0x4B t62.payload)
      { ximm := 1, routed := true, srcs := t62.three, dest := some (t62.d.toNat, 1) } false false none) ∧
    Issues rig0 [] i0 (reservedSet 0x4C v62.payload) (shF32.form v62.d.toNat v62.two) false false none ∧
    Issues rig0 [] i0 (reservedSet 0x4D v60a.payload) { xmod := xmFtz, routed := true, srcs := v60a.one, dest := some (v60a.d.toNat, 2) } false false none ∧
    Issues rig0 [] i0 (reservedSet 0x4E vClass.payload)
      { routed := true, srcs := vClass.one, wide := true, dest := some (vClass.d.toNat, 1) } false false none :=
  ⟨⟨by decide, issues0 (by decide +kernel)⟩, ⟨by decide +kernel, issues0 (by decide +kernel)⟩, ⟨by decide +kernel, issues0 (by decide +kernel)⟩,
    ⟨by decide +kernel, issues0 (by decide +kernel)⟩, ⟨by decide +kernel, issues0 (by decide +kernel)⟩, issues0 (by decide +kernel),
    issues0 (by decide +kernel), issues0 (by decide +kernel)⟩

/-! ## Lanes -/

/-- QSET of q3, QGET of q3. -/
def uQset : FmtU := ⟨3, 62, 0, 0⟩
def uQget : FmtU := ⟨63, 3, 0, 0⟩
/-- BALANCE by s31 and by the last constant; COMPACT by !p15; the greatest scan. -/
def vBal : FmtV := ⟨60, 62, 103, 0, 0⟩
def vBalC : FmtV := ⟨60, 62, 119, 0, 0⟩
def vCompact : FmtV := ⟨62, 62, 31, 0, 0⟩
def vScan : FmtV := ⟨62, 62, 15, 0, 0⟩
def vFscan : FmtV := ⟨62, 62, 0x0A, 0, 0⟩
/-- A range of one register from v62. -/
def xOne : FmtI := ⟨62, 62, 62⟩

theorem witness_LaneExchange :
    ((1 ≤ uQset.sd.toNat ∧ uQset.sd.toNat ≤ 3 ∧ qBad ((i0.g.sreg uQset.sa.toNat).toNat % 65536) = false) ∧
      Issues rig0 [] i0 (reservedSet 0x60 uQset.payload) {} false false none) ∧
    (uQget.sa.toNat < 4 ∧ Issues rig0 [] i0 (reservedSet 0x61 uQget.payload) {} false false none) ∧
    Issues rig0 [] i0 (reservedSet 0x62 v60a.payload)
      { xmod := xmW64, routed := true, srcs := v60a.one, wide := isW64 [], dest := some (v60a.d.toNat, 2) } false false none ∧
    Issues rig0 [] i0 (reservedSet 0x63 v1.payload)
      { xmod := xmW64, routed := true, srcs := v1.one, wide := isW64 [], dest := some (v1.d.toNat, if isW64 [] then 2 else 1) } false false none ∧
    (∀ f ∈ [vBal, vBalC], ((72 ≤ f.b.toNat ∧ f.b.toNat < 104) ∨ (112 ≤ f.b.toNat ∧ f.b.toNat < 120)) ∧
      Issues rig0 [] i0 (reservedSet 0x64 f.payload) { routed := true, srcs := f.one, dest := some (f.d.toNat, 2) } false false none) ∧
    (i0.g.rangeBad xOne.imm.toNat = false ∧ Issues rig0 [] i0 (reservedSet 0x65 xOne.payload)
      { routed := true, srcs := xOne.one, dest := some (xOne.d.toNat, 1), fillAlways := true } false (i0.g.rangeBad xOne.imm.toNat) none) ∧
    ((i0.g.rangeBad xOne.imm.toNat || i0.g.srcBad xOne.d.toNat false) = false ∧ Issues rig0 [] i0 (reservedSet 0x66 xOne.payload)
      { routed := true, srcs := xOne.one } false (i0.g.rangeBad xOne.imm.toNat || i0.g.srcBad xOne.d.toNat false) none) ∧
    Issues rig0 [] i0 (reservedSet 0x6B vCompact.payload)
      { xmod := xmW64, routed := true, srcs := vCompact.one, wide := isW64 [], dest := some (vCompact.d.toNat, if isW64 [] then 2 else 1) } false false none :=
  ⟨⟨by decide +kernel, issues0 (by decide +kernel)⟩, ⟨by decide, issues0 (by decide +kernel)⟩, issues0 (by decide +kernel),
    issues0 (by decide +kernel), fun f hf => ⟨(by decide : ∀ f ∈ [vBal, vBalC], (72 ≤ f.b.toNat ∧ f.b.toNat < 104) ∨ (112 ≤ f.b.toNat ∧ f.b.toNat < 120)) f hf, issues0 ((by decide +kernel : ∀ f ∈ [vBal, vBalC],
      i0.fault (reservedSet 0x64 f.payload) { routed := true, srcs := f.one, dest := some (f.d.toNat, 2) } false false (fun _ => none) = none) f hf)⟩,
    ⟨by decide +kernel, ⟨issue_rig0, by decide +kernel⟩⟩, ⟨by decide +kernel, ⟨issue_rig0, by decide +kernel⟩⟩, issues0 (by decide +kernel)⟩

theorem witness_IntegerScans :
    Issues rig0 [] i0 (reservedSet 0x67 vScan.payload) { routed := true, srcs := vScan.one, dest := some (vScan.d.toNat, 1) } false false none ∧
    Issues rig0 [] i0 (reservedSet 0x68 (FmtV.payload ⟨63, 62, 7, 0, 0⟩)) { routed := true, srcs := FmtV.one ⟨63, 62, 7, 0, 0⟩ } false false none :=
  ⟨issues0 (by decide +kernel), issues0 (by decide +kernel)⟩

theorem witness_FloatScans :
    (scanOp vFscan < 3 ∧ Issues rig0 [] i0 (reservedSet 0x69 vFscan.payload)
      { xmod := fscanXmod vFscan, routed := true, srcs := vFscan.one, dest := some (vFscan.d.toNat, 1) } false false none) ∧
    (scanOp (⟨63, 62, 2, 0, 0⟩ : FmtV) < 3 ∧ Issues rig0 [] i0 (reservedSet 0x6A (FmtV.payload ⟨63, 62, 2, 0, 0⟩))
      { xmod := fscanXmod ⟨63, 62, 2, 0, 0⟩, routed := true, srcs := FmtV.one ⟨63, 62, 2, 0, 0⟩ } false false none) :=
  ⟨⟨by decide, issues0 (by decide +kernel)⟩, ⟨by decide, issues0 (by decide +kernel)⟩⟩

/-! ## Flow -/

/-- A fault check that passes at the issue of a state. -/
theorem issuesOn {s : State} {h : List Hint} {r : Bool} {f : Form} {ro op : Bool} {own : Option Flt}
    (h1 : (s.issue h).isSome = true) (h2 : (rigIssue s h).fault r f ro op (fun _ => own) = none) :
    Issues s h (rigIssue s h) r f ro op own := by
  refine ⟨?_, h2⟩
  cases e : s.issue h with
  | none => simp [e] at h1
  | some i => simp [rigIssue, e]

/-- The rig with p1 holding lane 0. -/
def rigP : State := rig fun g => g.setP 1 1
/-- With its eight strands in use. -/
def rigP8 : State := rig fun g => (List.range 7).foldl (fun g n => g.setStrand (n + 1) { owned := 0 }) (g.setP 1 1)
/-- With no active lane. -/
def rigE : State := rig fun g => g.setStrand 0 { g.strand 0 with em := 0 }
/-- With a reconvergence token whose FUSE stands at the strand's address inside a call token. -/
def rigT : State := rig fun g =>
  (((g.setToken 0 { kind := .call, mask := BitVec.allOnes 64, pending := BitVec.allOnes 64 }).setToken 1
    { cont := 4, mask := BitVec.allOnes 64, pending := BitVec.allOnes 64, parent := some 0 }).setStrand 0 { g.strand 0 with token := some 1 })

/-- By p1; by !p15, to the farthest word back; FUSE's, BRK's and EXIT's own. -/
def bP1 : FmtB := ⟨0, 1, 0, 0⟩
def bNot : FmtB := ⟨0, 15, 1, 0x20000⟩

/-- The rig's strand in a run of one or of two instructions more. -/
def rigOpen (n : Nat) : State := rig fun g => g.setStrand 0 { g.strand 0 with run := some { left := n, gap := 0, give := false, opened := 0 } }
theorem witness_NopHasNoEffect : Plain rig0 [] i0 0x00 c0.payload ∧
    ∀ n ∈ [1, 2], Plain (rigOpen n) [] (rigIssue (rigOpen n) []) 0x00 c0.payload ∧
      ((rigIssue (rigOpen n) []).x.run.map fun r => r.left) = some n := by
  refine ⟨issues0 (by decide +kernel), fun n hn => ?_⟩
  simp only [List.mem_cons, List.not_mem_nil, or_false] at hn
  rcases hn with rfl | rfl
  · exact ⟨issuesOn (by decide +kernel) (by decide +kernel), by decide +kernel⟩
  · exact ⟨issuesOn (by decide +kernel) (by decide +kernel), by decide +kernel⟩
theorem witness_ExecutionMask : Plain rig0 [] i0 0x0E (FmtC.payload ⟨63, 0, 0, 0⟩) ∧ Plain rig0 [] i0 0x0F (FmtC.payload ⟨63, 0, 0, 0⟩) :=
  ⟨issues0 (by decide +kernel), issues0 (by decide +kernel)⟩
theorem witness_YieldGivesWay : Plain rig0 [] i0 0x0C c0.payload := issues0 (by decide +kernel)

theorem witness_Branches :
    ((rigIssue rigE []).x.em = 0 ∧ Issues rigE [] (rigIssue rigE []) (reservedSet 0x01 b15.payload) bare false false ((rigIssue rigE []).braFault b15)) ∧
    ((i0.x.em ≠ 0 ∧ i0.x.em &&& ~~~ lanes i0.g b15 = 0) ∧ Issues rig0 [] i0 (reservedSet 0x01 b15.payload) bare false false (i0.braFault b15)) ∧
    ((i0.x.em ≠ 0 ∧ i0.x.em &&& lanes i0.g bNot = 0) ∧ Issues rig0 [] i0 (reservedSet 0x01 bNot.payload) bare false false (i0.braFault bNot)) ∧
    (∀ s ∈ [rigP, rigP8], let i := rigIssue s []
      (i.x.em &&& lanes i.g bP1 ≠ 0 ∧ i.x.em &&& ~~~ lanes i.g bP1 ≠ 0) ∧
      Issues s [] i (reservedSet 0x01 bP1.payload) bare false false (i.braFault bP1)) ∧
    ((rigIssue rigP []).g.freeStrand = some 1 ∧ (rigIssue rigP8 []).g.freeStrand = none) ∧
    (i0.g.sreg 62).toNat % 4 = 0 ∧ Plain rig0 [] i0 0x02 (FmtC.payload ⟨62, 0, 0, 0⟩) := by
  refine ⟨⟨by decide +kernel, issuesOn (by decide +kernel) (by decide +kernel)⟩, ⟨by decide +kernel, issues0 (by decide +kernel)⟩,
    ⟨by decide +kernel, issues0 (by decide +kernel)⟩, ?_, by decide +kernel, by decide +kernel, issues0 (by decide +kernel)⟩
  intro s hs
  simp only [List.mem_cons, List.not_mem_nil, or_false] at hs
  rcases hs with rfl | rfl
  · exact ⟨by decide +kernel, issuesOn (by decide +kernel) (by decide +kernel)⟩
  · exact ⟨by decide +kernel, issuesOn (by decide +kernel) (by decide +kernel)⟩

/-- The rig with every token in use. -/
def rigNoToken : State := rig fun g => (List.range 64).foldl (fun g n => g.setToken n { mask := 1, pending := 1 }) g
/-- Whether CALL, CALLX and RCV issue without a fault. -/
def pushes (s : State) : Bool :=
  let i := rigIssue s []
  (i.fault (reservedSet 0x03 b15.payload) bare false false fun _ => none).isNone &&
    (i.fault (reservedSet 0x04 (FmtC.payload ⟨62, 0, 0, 0⟩)) bare false false fun _ => none).isNone &&
    (i.fault (reservedSet 0x06 b15.payload) bare false false fun _ => none).isNone
theorem witness_TokenPushes : (b15.p = 15 ∧ b15.neg = 0) ∧ ((i0.g.sreg 62).toNat % 4 = 0 ∧ (rig0.issue []).isSome = true ∧ pushes rig0 = true ∧
      i0.g.freeToken = some 0) ∧
    (((rigIssue rigNoToken []).g.sreg 62).toNat % 4 = 0 ∧ (rigNoToken.issue []).isSome = true ∧ pushes rigNoToken = true ∧
      (rigIssue rigNoToken []).g.freeToken = none) := by decide +kernel

theorem witness_ArrivalsAndExit : let i := rigIssue rigT []
    (i.x.owned ≠ 0 ∧ i.g.callToken (chain i) = some 0 ∧ Plain rigT [] i 0x05 c0.payload) ∧
    (i0.g.callToken (chain i0) = none ∧ Plain rig0 [] i0 0x05 c0.payload) ∧
    (i0.g.breakToken (chain i0) 0 = none ∧ Plain rig0 [] i0 0x08 (FmtB.payload ⟨0, 15, 0, 0⟩)) ∧
    (i.g.fuseToken (chain i) i.addr = some 1 ∧ Plain rigT [] i 0x07 c0.payload) ∧
    (i0.g.fuseToken (chain i0) i0.addr = none ∧ Plain rig0 [] i0 0x07 c0.payload) ∧
    (∀ f ∈ [(⟨0, 15, 1, 0⟩ : FmtB), ⟨0, 15, 0, 0⟩], i.g.breakToken (chain i) (f.off.toNat % 16) = some 1 ∧ Plain rigT [] i 0x08 f.payload) ∧
    Plain rig0 [] i0 0x09 (FmtB.payload ⟨0, 15, 1, 0⟩) := by
  refine ⟨⟨by decide +kernel, by decide +kernel, issuesOn (by decide +kernel) (by decide +kernel)⟩, ⟨by decide +kernel, issues0 (by decide +kernel)⟩,
    ⟨by decide +kernel, issues0 (by decide +kernel)⟩,
    ⟨by decide +kernel, issuesOn (by decide +kernel) (by decide +kernel)⟩, ⟨by decide +kernel, issues0 (by decide +kernel)⟩, ?_, issues0 (by decide +kernel)⟩
  intro f hf
  simp only [List.mem_cons, List.not_mem_nil, or_false] at hf
  rcases hf with rfl | rfl
  · exact ⟨by decide +kernel, issuesOn (by decide +kernel) (by decide +kernel)⟩
  · exact ⟨by decide +kernel, issuesOn (by decide +kernel) (by decide +kernel)⟩

/-! ## Waits -/

/-- With an operation counted on ld. -/
def rigL : State := rig fun g => { g with ld := 1 }
/-- WAIT for nothing outstanding, and with no ceiling. -/
def wAll : FmtW := ⟨0, 0, 0, 0, 0⟩
def wNone : FmtW := ⟨31, 31, 31, 31, 15⟩

theorem witness_CounterWaits : (Reached (rigIssue rigL []).g wNone ∧ Issues rigL [] (rigIssue rigL []) (reservedSet 0x0A wNone.payload) bare false false none) ∧
    ¬Reached (rigIssue rigL []).g wAll ∧ Issues rigL [] (rigIssue rigL []) (reservedSet 0x0A wAll.payload) bare false false none :=
  ⟨⟨by unfold Reached; decide +kernel, issuesOn (by decide +kernel) (by decide +kernel)⟩, by unfold Reached; decide +kernel,
    issuesOn (by decide +kernel) (by decide +kernel)⟩

/-- The rig whose task holds its gigabyte under a lease. -/
def leased (g : Group) : Group := { g with task := { g.task with added := [{ base := 0, size := 2 ^ 30 }] } }
def rigM : State := rig leased
def iM : Issue := rigIssue rigM []

theorem witness_WordWaits : rigM.wholeTarget 0 0 iM.g.task 0 = some (.global 0 0 false) ∧
    Issues rigM [] iM (reservedSet 0x0B c0.payload) { ximm := 1, xmod := xmScope } false false (rigM.barFault iM 0 8 true false) ∧
    Issues rigM [] iM (reservedSet 0xA7 c0.payload) { xmod := xmScope } false false (rigM.barFault iM 0 8 true false) ∧
    Issues rigM [] iM (reservedSet 0xC2 c0.payload) { ximm := 1 } false false (rigM.barFault iM 0 128 true false) :=
  ⟨by decide +kernel, issuesOn (by decide +kernel) (by decide +kernel), issuesOn (by decide +kernel) (by decide +kernel), issuesOn (by decide +kernel) (by decide +kernel)⟩

/-- A ring descriptor at address 0: base 4096, 2^10 slots, head and tail 0. -/
def rigRing : State := (rigM.writeIA 0 0 64 (4096 + 2 ^ 64 * 10))
/-- The same with an access of the strand outstanding, and with no active lane. -/
def rigBusy : State := { rigRing with ops := [{ ((rigIssue rigRing []).op .ld .load [{ ptr := 0, lane := 0, size := 4, target := .global 0 0 false, place := sliceRouter 0 0, goal := sliceRouter 0 0, owners := [.strand 0] }]) with id := 1 }] }
def iRing : Issue := rigIssue rigRing []
/-- Context 0 attached; the strand passing its breakpoint. -/
def rigAtt : State := rig0.setReg .dbgAttach 1
def rigPass : State := (rig fun g => g.setStrand 0 { g.strand 0 with passBkpt := true }).setReg .dbgAttach 1

/-- A state whose context's one leaf is another entry: 51 puts it in the absent tier, 0 takes it away. -/
def leaf0 (s : State) (e : Nat) : State := { s with mem := Memory.write s.mem (hbmCell 0x3000) 8 e }
/-- Where an access of TRAP to its descriptor leads in a state: 0 on, 1 to a wait, 2 to a fault. -/
def rings (s : State) : Nat :=
  match (s.ringAt 0 0 0 64 true true).1 with
  | .ok _ => 0
  | .wait => 1
  | .bad _ => 2
/-- TRAP of the rig's strand finds no fault at issue, and its strand has no access outstanding. -/
def traps (s : State) : Bool :=
  let i := rigIssue s []
  (s.issue []).isSome && decide (i.x.em ≠ 0) && s.strandQuiet 0 0 0 &&
    (i.fault (reservedSet 0x0D c0.payload) bare false false fun _ => s.trapFault i 0).isNone
/-- 64 events of the debugger wait. -/
def rigEvents : State := { rigAtt with dbgEvents := List.replicate 64 { kind := 1, core := 0, slot := 0, strand := 0, code := 0, ctx := 0 } }

/-- The rig's s0 holds a pointer to the chip scratchpad, or an untagged one of space 15. -/
def rigOut (n : Nat) : State := rig fun g => (leased g).setS 0 (BitVec.ofNat 64 (n * 2 ^ 60))
/-- TRAP's own operand condition. -/
def trapBad (i : Issue) : Bool := (0 % 4 != 0 || decide (i.g.nv < 4))
theorem witness_ServiceOutsideGlobal : ∀ n ∈ [1, 15], let i := rigIssue (rigOut n) []
    Issues (rigOut n) [] i (reservedSet 0x0D c0.payload) bare false (trapBad i) none ∧ i.x.em ≠ 0 ∧ ptrSpace (i.g.sreg 0).toNat ≠ 0 := by
  intro n hn
  simp only [List.mem_cons, List.not_mem_nil, or_false] at hn
  rcases hn with rfl | rfl
  · exact ⟨issuesOn (by decide +kernel) (by decide +kernel), by decide +kernel, by decide +kernel⟩
  · exact ⟨issuesOn (by decide +kernel) (by decide +kernel), by decide +kernel, by decide +kernel⟩

theorem witness_ServiceStops : (traps (leaf0 rigM 51) = true ∧ rings (leaf0 rigM 51) = 1) ∧ (traps (leaf0 rigM 0) = true ∧ rings (leaf0 rigM 0) = 2) ∧
    (traps rigM = true ∧ rings rigM = 0 ∧ ringBad ((rigM.ringAt 0 0 0 64 true true).2.readT (.global 0 0 false) 0 64).1 = true) ∧
    (rigEvents.attached 0 = true ∧ (rigIssue rigEvents []).x.passBkpt = false ∧ 64 ≤ rigEvents.dbgEvents.length ∧ (rigEvents.issue []).isSome = true) := by
  decide +kernel

theorem witness_ServiceAndBreakpoint :
    ((iRing.x.em ≠ 0 ∧ rigRing.strandQuiet 0 0 0 = true) ∧ Issues rigRing [] iRing (reservedSet 0x0D c0.payload) bare false false (rigRing.trapFault iRing 0)) ∧
    (let a := rigRing.ringAt 0 0 0 64 true true
     a.1 = .ok (.global 0 0 false) ∧ ringBad (a.2.readT (.global 0 0 false) 0 64).1 = false) ∧
    (rigBusy.strandQuiet 0 0 0 = false ∧ Issues rigBusy [] (rigIssue rigBusy []) (reservedSet 0x0D c0.payload) bare false false (rigBusy.trapFault (rigIssue rigBusy []) 0)) ∧
    ((rigIssue rigE []).x.em = 0 ∧ Issues rigE [] (rigIssue rigE []) (reservedSet 0x0D c0.payload) bare false false (rigE.trapFault (rigIssue rigE []) 0)) ∧
    (rig0.attached 0 = false ∧ Plain rig0 [] i0 0xE1 (FmtC.payload ⟨0, 0, 0, 63⟩)) ∧
    ((rigIssue rigPass []).x.passBkpt = true ∧ Plain rigPass [] (rigIssue rigPass []) 0xE1 c0.payload) ∧
    (rigAtt.attached 0 = true ∧ (rigIssue rigAtt []).x.passBkpt = false ∧ rigAtt.dbgEvents.length < 64 ∧ Plain rigAtt [] (rigIssue rigAtt []) 0xE1 c0.payload) :=
  ⟨⟨by decide +kernel, issuesOn (by decide +kernel) (by decide +kernel)⟩, by decide +kernel,
    ⟨by decide +kernel, issuesOn (by decide +kernel) (by decide +kernel)⟩, ⟨by decide +kernel, issuesOn (by decide +kernel) (by decide +kernel)⟩,
    ⟨by decide +kernel, issues0 (by decide +kernel)⟩, ⟨by decide +kernel, issuesOn (by decide +kernel) (by decide +kernel)⟩,
    ⟨by decide +kernel, by decide +kernel, by decide +kernel, issuesOn (by decide +kernel) (by decide +kernel)⟩⟩

/-! ## Memory accesses -/

/-- Every width's greatest legal destination, and v63 for a store. -/
def mB : FmtM := ⟨62, 63, 63, 0, 0⟩
/-- A pair, four registers, a row. -/
def m3 : FmtM := ⟨60, 63, 63, 3, 1⟩
def m4 : FmtM := ⟨56, 63, 63, 4, 2⟩
def m5 : FmtM := ⟨62, 63, 0, 5, 3⟩
/-- The rig with ld, st at their greatest. -/
def rigFull : State := rig fun g => { leased g with ld := 63, st := 63 }
/-- Loads, LDU and LDLN to the greatest registers. -/
def mLdu : FmtM := ⟨62, 63, 0, 3, 3⟩
def mLdln : FmtM := ⟨56, 63, 0, 3, 0⟩

theorem witness_LoadsPosted :
    (∀ f ∈ [mB, m3, m4, m5], Issues rigM [] iM (reservedSet 0x90 f.payload || indexReserved f) (ldForm f) false (iM.ldBad f || f.d == 63)
      (rigM.ptrFault iM (laneAsk f.width.toNat true false) (iM.ldPtrs f))) ∧
    Issues rigM [] iM (reservedSet 0x92 mLdu.payload) { ximm := 2, xmod := memXmod mLdu.ord.toNat 0 } false (lduBad mLdu)
      (rigM.ptrFault iM (uniAsk 3 true false) [(64, iM.addrAll 63)]) ∧
    Issues rigM [] iM (reservedSet 0x94 mLdln.payload) { ximm := 2, xmod := memXmod mLdln.ord.toNat 0 } false
      (decide (3 < mLdln.width.toNat) || decide (3 < mLdln.ord.toNat) || mLdln.d == 63 || iM.g.rowsBad mLdln.d.toNat 8)
      (rigM.ptrFault iM { size := 2048, align := 256, rd := true, whole := true } [(64, iM.addrAll 63)]) ∧
    iM.g.rowsBad 62 2 = false ∧
    iM.g.ctr .ld < 63 ∧ 63 ≤ (rigIssue rigFull []).g.ctr .ld :=
  ⟨fun f hf => issuesOn (by decide +kernel) ((by decide +kernel : ∀ f ∈ [mB, m3, m4, m5],
      iM.fault (reservedSet 0x90 f.payload || indexReserved f) (ldForm f) false (iM.ldBad f || f.d == 63)
        (fun _ => rigM.ptrFault iM (laneAsk f.width.toNat true false) (iM.ldPtrs f)) = none) f hf),
    issuesOn (by decide +kernel) (by decide +kernel), issuesOn (by decide +kernel) (by decide +kernel), by decide +kernel, by decide +kernel, by decide +kernel⟩

/-- A store of zeros. -/
def mZ : FmtM := ⟨63, 63, 63, 2, 3⟩

theorem witness_StoresPosted :
    (∀ f ∈ [mB, m3, m4, m5, mZ], Issues rigM [] iM (reservedSet 0x91 f.payload || indexReserved f) (ldForm f) false (iM.ldBad f)
      (rigM.ptrFault iM (laneAsk f.width.toNat false true) (iM.ldPtrs f))) ∧
    Issues rigM [] iM (reservedSet 0x93 mLdu.payload) { ximm := 2, xmod := memXmod mLdu.ord.toNat 0 } false (lduBad mLdu)
      (rigM.ptrFault iM (uniAsk 3 false true) [(64, iM.addrAll 63)]) ∧
    iM.g.ctr .st < 63 ∧ 63 ≤ (rigIssue rigFull []).g.ctr .st :=
  ⟨fun f hf => issuesOn (by decide +kernel) ((by decide +kernel : ∀ f ∈ [mB, m3, m4, m5, mZ],
      iM.fault (reservedSet 0x91 f.payload || indexReserved f) (ldForm f) false (iM.ldBad f)
        (fun _ => rigM.ptrFault iM (laneAsk f.width.toNat false true) (iM.ldPtrs f)) = none) f hf),
    issuesOn (by decide +kernel) (by decide +kernel), by decide +kernel, by decide +kernel⟩

/-- A descriptor at address 0: one dimension of 32 f32 elements at address 4096, a box of 64. -/
def descBits : Nat := 4096 + 2 ^ 64 * 14 + 2 ^ 68 + 2 ^ 128 * 32 + 2 ^ 416 * 63
/-- It is in the core's cache. -/
def withDesc0 (s : State) : State := s.setCore 0 { s.core 0 with desc := [{ ctx := 0, addr := 0, words := natWords descBits 8 }] }
def rigD : State := withDesc0 rigM
def iD : Issue := rigIssue rigD []
def mLdd : FmtM := ⟨62, 60, 63, 0, 3⟩

theorem witness_DescriptorAccess :
    rigD.descCached iD 0 = some descBits ∧
    Issues rigD [] iD (reservedSet 0x95 mLdd.payload) (lddForm mLdd) false (iD.lddBad mLdd || mLdd.d == 63) (rigD.lddFault iD mLdd true false) ∧
    Issues rigD [] iD (reservedSet 0x96 mLdd.payload) (lddForm mLdd) false (iD.lddBad mLdd) (rigD.lddFault iD mLdd false true) ∧
    rigM.descCached iM 0 = none ∧
    Issues rigM [] iM (reservedSet 0x95 mLdd.payload) (lddForm mLdd) false (iM.lddBad mLdd || mLdd.d == 63) (rigM.lddFault iM mLdd true false) ∧
    Issues rigM [] iM (reservedSet 0x96 mLdd.payload) (lddForm mLdd) false (iM.lddBad mLdd) (rigM.lddFault iM mLdd false true) ∧
    (iD.g.ld < 63 ∧ iD.g.st < 63) :=
  ⟨by decide +kernel, issuesOn (by decide +kernel) (by decide +kernel), issuesOn (by decide +kernel) (by decide +kernel), by decide +kernel,
    issuesOn (by decide +kernel) (by decide +kernel), issuesOn (by decide +kernel) (by decide +kernel), by decide +kernel⟩
/-- The same with the counters at their greatest. -/
theorem witness_DescriptorAccessFull : let s := withDesc0 rigFull; let i := rigIssue s []
    s.descCached i 0 = some descBits ∧ 63 ≤ i.g.ld ∧ 63 ≤ i.g.st ∧
    Issues s [] i (reservedSet 0x95 mLdd.payload) (lddForm mLdd) false (i.lddBad mLdd || mLdd.d == 63) (s.lddFault i mLdd true false) ∧
    Issues s [] i (reservedSet 0x96 mLdd.payload) (lddForm mLdd) false (i.lddBad mLdd) (s.lddFault i mLdd false true) :=
  ⟨by decide +kernel, by decide +kernel, by decide +kernel, issuesOn (by decide +kernel) (by decide +kernel), issuesOn (by decide +kernel) (by decide +kernel)⟩

/-- A load of the rig's strand outstanding. -/
def load0 (s : State) : MemOp :=
  { (rigIssue s []).op .ld .load [{ ptr := 0, lane := 0, size := 4, target := .global 0 0 false, place := sliceRouter 0 0
                                    goal := sliceRouter 0 0, owners := [.strand 0] }] with id := 1 }
def rigO : State := { rigM with ops := [load0 rigM] }
def iO : Issue := rigIssue rigO []
/-- CINV and CWB of no bytes, of 2^32 bytes from 0; what FENCE waits for. -/
def cRange : FmtC := ⟨63, 1, 0, 1⟩
def rigC : State := rig fun g => (leased g).setS 1 (2 ^ 30)
def rigCFull : State := rig fun g => { (leased g).setS 1 (2 ^ 30) with st := 63 }

/-- A FENCE of device scope before one of group scope. -/
def rigFenced : State := rig fun g => g.setStrand 0 { g.strand 0 with fenced := some 5 }
theorem witness_FencedTwice : Issues rigFenced [] (rigIssue rigFenced []) (reservedSet 0x98 (FmtC.payload ⟨0, 0, 0, 2⟩)) { xmod := xmScope } false false none ∧
    rigFenced.outstanding 0 0 (fun o => fenceWaits 2 o.kind) = false ∧ (rigIssue rigFenced []).x.fenced = some 5 ∧ widerScope (some 5) 1 = 5 ∧
    widerScope (some 1) 5 = 5 ∧ widerScope none 1 = 1 :=
  ⟨issuesOn (by decide +kernel) (by decide +kernel), by decide +kernel, by decide +kernel, by decide +kernel, by decide +kernel, by decide +kernel⟩

theorem witness_FencesAndCaches :
    Issues rig0 [] i0 (reservedSet 0x97 (FmtM.payload ⟨0, 63, 63, 0, 0⟩)) { ximm := 2, xmod := xmWx } false (i0.g.indexBad [] 63) none ∧
    (∀ f ∈ [(⟨0, 0, 0, 0⟩ : FmtC), ⟨0, 0, 0, 1⟩, ⟨0, 0, 0, 2⟩], f.f.toNat % 4 ≠ 3 ∧
      Issues rigO [] iO (reservedSet 0x98 f.payload) { xmod := xmScope } false false none ∧
      Issues rig0 [] i0 (reservedSet 0x98 f.payload) { xmod := xmScope } false false none) ∧
    rigO.outstanding 0 0 (fun o => fenceWaits 0 o.kind) = true ∧ rig0.outstanding 0 0 (fun o => fenceWaits 0 o.kind) = false ∧
    ((rigIssue rigC []).g.st < 63 ∧ 63 ≤ (rigIssue rigCFull []).g.st) ∧
    (∀ s ∈ [rigM, rigC, rigCFull], let i := rigIssue s []
      (cRange.f.toNat % 4 ≤ 1 ∧ (i.g.sreg 1).toNat ≤ 2 ^ 32) ∧
      Issues s [] i (reservedSet 0x99 cRange.payload) {} false false (s.cacheFault i 0 (i.g.sreg 1).toNat) ∧
      Issues s [] i (reservedSet 0x9A (FmtC.payload ⟨63, 1, 0, 0⟩)) {} false false (s.cacheFault i 0 (i.g.sreg 1).toNat)) := by
  refine ⟨issues0 (by decide +kernel), fun f hf => ⟨(by decide : ∀ f ∈ [(⟨0, 0, 0, 0⟩ : FmtC), ⟨0, 0, 0, 1⟩, ⟨0, 0, 0, 2⟩], f.f.toNat % 4 ≠ 3) f hf,
    issuesOn (by decide +kernel) ((by decide +kernel : ∀ f ∈ [(⟨0, 0, 0, 0⟩ : FmtC), ⟨0, 0, 0, 1⟩, ⟨0, 0, 0, 2⟩],
      iO.fault (reservedSet 0x98 f.payload) { xmod := xmScope } false false (fun _ => none) = none) f hf),
    issues0 ((by decide +kernel : ∀ f ∈ [(⟨0, 0, 0, 0⟩ : FmtC), ⟨0, 0, 0, 1⟩, ⟨0, 0, 0, 2⟩],
      i0.fault (reservedSet 0x98 f.payload) { xmod := xmScope } false false (fun _ => none) = none) f hf)⟩,
    by decide +kernel, by decide +kernel, by decide +kernel, ?_⟩
  intro s hs
  simp only [List.mem_cons, List.not_mem_nil, or_false] at hs
  rcases hs with rfl | rfl | rfl
  · exact ⟨by decide +kernel, issuesOn (by decide +kernel) (by decide +kernel), issuesOn (by decide +kernel) (by decide +kernel)⟩
  · exact ⟨by decide +kernel, issuesOn (by decide +kernel) (by decide +kernel), issuesOn (by decide +kernel) (by decide +kernel)⟩
  · exact ⟨by decide +kernel, issuesOn (by decide +kernel) (by decide +kernel), issuesOn (by decide +kernel) (by decide +kernel)⟩

/-! ## Atomics and barriers -/

/-- 32-bit and 64-bit atomics of lane 0 to the greatest registers. -/
def one (g : Group) : Group := leased (g.setStrand 0 { g.strand 0 with em := 1 })
def rig1 : State := rig one
def i1 : Issue := rigIssue rig1 []
def mA : FmtM := ⟨62, 63, 63, 0, 3⟩
def mA8 : FmtM := ⟨60, 63, 63, 0, 4⟩
/-- CAS of two registers, and of two pairs; .xch. -/
def mCas : FmtM := ⟨61, 63, 63, 0, 0⟩
def mCas8 : FmtM := ⟨56, 63, 63, 0, 7⟩
def mXch : FmtM := ⟨61, 63, 63, 1, 0⟩

theorem witness_ReturningAtomics :
    (∀ f ∈ [mA, mA8], let n := if f.ord.getLsbD 2 then 8 else 4
      Issues rigM [] iM (reservedSet 0xA0 f.payload) (atomForm f 0) false
        (f.d == 63 || iM.g.indexBad [] f.index.toNat || iM.g.destBad f.d.toNat (n / 4)) (rigM.ptrFault iM (atomAsk n) (iM.lanePtrs 63 63))) ∧
    (∀ f ∈ [mCas, mCas8, mXch], let n := if f.ord.getLsbD 2 then 8 else 4
      Issues rigM [] iM (reservedSet 0xA3 f.payload) (atomForm f 0) false
        (iM.g.indexBad [] f.index.toNat || iM.g.casBad f n) (rigM.ptrFault iM (atomAsk n) (iM.lanePtrs 63 63))) ∧
    (∀ f ∈ [(⟨62, 63, 0, 0⟩ : FmtC), ⟨62, 63, 0, 0x3F⟩],
      Issues rigM [] iM (reservedSet 0xA2 f.payload) { xmod := memXmod (uOrd f) 0 } false false
        (rigM.ptrFault iM { atomAsk (uSize f) with whole := true } [(64, 0)])) ∧
    (∀ f ∈ [(⟨62, 63, 61, 0⟩ : FmtC), ⟨62, 63, 61, 0x39⟩], uOp f ≤ 1 ∧
      Issues rigM [] iM (reservedSet 0xA4 f.payload) { xmod := memXmod (uOrd f) 0 } false false
        (rigM.ptrFault iM { atomAsk (uSize f) with whole := true } [(64, 0)])) ∧
    (iM.g.ld < 63 ∧ iM.g.task.det = false) ∧ 63 ≤ (rigIssue rigFull []).g.ld := by
  refine ⟨fun f hf => issuesOn (by decide +kernel) ((by decide +kernel : ∀ f ∈ [mA, mA8], iM.fault (reservedSet 0xA0 f.payload) (atomForm f 0) false
        (f.d == 63 || iM.g.indexBad [] f.index.toNat || iM.g.destBad f.d.toNat ((if f.ord.getLsbD 2 then 8 else 4) / 4))
        (fun _ => rigM.ptrFault iM (atomAsk (if f.ord.getLsbD 2 then 8 else 4)) (iM.lanePtrs 63 63)) = none) f hf),
    fun f hf => issuesOn (by decide +kernel) ((by decide +kernel : ∀ f ∈ [mCas, mCas8, mXch], iM.fault (reservedSet 0xA3 f.payload) (atomForm f 0) false
        (iM.g.indexBad [] f.index.toNat || iM.g.casBad f (if f.ord.getLsbD 2 then 8 else 4))
        (fun _ => rigM.ptrFault iM (atomAsk (if f.ord.getLsbD 2 then 8 else 4)) (iM.lanePtrs 63 63)) = none) f hf),
    fun f hf => issuesOn (by decide +kernel) ((by decide +kernel : ∀ f ∈ [(⟨62, 63, 0, 0⟩ : FmtC), ⟨62, 63, 0, 0x3F⟩],
        iM.fault (reservedSet 0xA2 f.payload) { xmod := memXmod (uOrd f) 0 } false false
          (fun _ => rigM.ptrFault iM { atomAsk (uSize f) with whole := true } [(64, 0)]) = none) f hf),
    fun f hf => ⟨(by decide : ∀ f ∈ [(⟨62, 63, 61, 0⟩ : FmtC), ⟨62, 63, 61, 0x39⟩], uOp f ≤ 1) f hf,
      issuesOn (by decide +kernel) ((by decide +kernel : ∀ f ∈ [(⟨62, 63, 61, 0⟩ : FmtC), ⟨62, 63, 61, 0x39⟩],
        iM.fault (reservedSet 0xA4 f.payload) { xmod := memXmod (uOrd f) 0 } false false
          (fun _ => rigM.ptrFault iM { atomAsk (uSize f) with whole := true } [(64, 0)]) = none) f hf)⟩,
    by decide +kernel, by decide +kernel⟩

/-- A deterministic add of f32, and the adds of a pair. -/
def mAmon : FmtM := ⟨62, 63, 63, 1, 0⟩
theorem witness_AddsWithoutReturn :
    (∀ f ∈ [mA, mA8, mAmon], let n := if f.ord.getLsbD 2 then 8 else 4
      Issues rigM [] iM (reservedSet 0xA1 f.payload) (atomForm f (if f.width = 1 then xmDet else 0)) false
        (iM.g.indexBad [] f.index.toNat || iM.g.destBad f.d.toNat (n / 4)) (rigM.ptrFault iM (atomAsk n) (iM.lanePtrs 63 63))) ∧
    iM.g.st < 63 ∧ 63 ≤ (rigIssue rigFull []).g.st ∧ (63 : Nat) < 64 ∧
    ∀ f ∈ [(⟨63, 62, 0, 0⟩ : FmtC), ⟨63, 62, 0, 1⟩], f.f.toNat % 4 ≤ 1 ∧
      Issues rigM [] iM (reservedSet 0xA6 f.payload) { xmod := if f.f.toNat % 4 = 1 then xmScope else 0 } false false (rigM.barFault iM 0 128 true true) :=
  ⟨fun f hf => issuesOn (by decide +kernel) ((by decide +kernel : ∀ f ∈ [mA, mA8, mAmon],
        iM.fault (reservedSet 0xA1 f.payload) (atomForm f (if f.width = 1 then xmDet else 0)) false
        (iM.g.indexBad [] f.index.toNat || iM.g.destBad f.d.toNat ((if f.ord.getLsbD 2 then 8 else 4) / 4))
        (fun _ => rigM.ptrFault iM (atomAsk (if f.ord.getLsbD 2 then 8 else 4)) (iM.lanePtrs 63 63)) = none) f hf),
    by decide +kernel, by decide +kernel, by decide, fun f hf => ⟨(by decide : ∀ f ∈ [(⟨63, 62, 0, 0⟩ : FmtC), ⟨63, 62, 0, 1⟩], f.f.toNat % 4 ≤ 1) f hf,
      issuesOn (by decide +kernel) ((by decide +kernel : ∀ f ∈ [(⟨63, 62, 0, 0⟩ : FmtC), ⟨63, 62, 0, 1⟩],
        iM.fault (reservedSet 0xA6 f.payload) { xmod := if f.f.toNat % 4 = 1 then xmScope else 0 } false false
          (fun _ => rigM.barFault iM 0 128 true true) = none) f hf)⟩⟩

/-- Whether the gate lets an access of the rig's core to address 0 go. -/
def goes0 (s : State) : Bool :=
  match (s.gate (.global 0 0 false) true true (some (coreDie 0))).1 with
  | .go _ => true
  | _ => false
theorem witness_BarrierLines :
    rigM.wholeTarget 0 0 iM.g.task 0 = some (.global 0 0 false) ∧
    goes0 rigM = true ∧
    Issues rigM [] iM (reservedSet 0xA5 (FmtC.payload ⟨63, 62, 61, 0⟩)) { xmod := xmScope } false false (rigM.barFault iM 0 128 false true) ∧
    rigM.strandQuiet 0 0 0 = true ∧ rigO.strandQuiet 0 0 0 = false ∧
    Issues rigO [] iO (reservedSet 0xA5 (FmtC.payload ⟨63, 62, 61, 0⟩)) { xmod := xmScope } false false (rigO.barFault iO 0 128 false true) ∧
    Issues rigM [] iM (reservedSet 0xA8 (FmtC.payload ⟨63, 62, 0, 0⟩)) {} false false (rigM.barFault iM 0 128 false true) ∧
    rigM.lineQuiet 0 0 0 (.global 0 0 false) = true ∧ rigO.lineQuiet 0 0 0 (.global 0 0 false) = false ∧
    Issues rigO [] iO (reservedSet 0xA8 (FmtC.payload ⟨63, 62, 0, 0⟩)) {} false false (rigO.barFault iO 0 128 false true) :=
  ⟨by decide +kernel, by decide +kernel, issuesOn (by decide +kernel) (by decide +kernel), by decide +kernel, by decide +kernel,
    issuesOn (by decide +kernel) (by decide +kernel), issuesOn (by decide +kernel) (by decide +kernel), by decide +kernel, by decide +kernel,
    issuesOn (by decide +kernel) (by decide +kernel)⟩

/-- BINIT of s62 at the pointer in s63 or s61, and BDROP there, find no fault at issue, no access of their strand is outstanding, and they meet a
page that holds them (1), none (2), or the line (0), or a peer part (3). -/
def barriers (s : State) (p : Nat) (n : Nat) : Bool :=
  let i := rigIssue s []
  let sa : BitVec 6 := if p = 0 then 63 else 61
  let lead : Nat := match s.wholeTarget 0 0 i.g.task p with
    | some (.peer _ _ _) => 3
    | some t => match (s.gate t true true (some (coreDie 0))).1 with
      | .go _ => 0
      | .wait => 1
      | .gone => 2
    | none => 4
  (s.issue []).isSome && s.strandQuiet 0 0 0 && lead == n && (i.g.sreg sa.toNat).toNat == p &&
    (i.fault (reservedSet 0xA5 (FmtC.payload ⟨sa, 62, 61, 0⟩)) { xmod := xmScope } false false fun _ => s.barFault i p 128 false true).isNone &&
    (i.fault (reservedSet 0xA8 (FmtC.payload ⟨sa, 62, 0, 0⟩)) {} false false fun _ => s.barFault i p 128 false true).isNone
/-- The line at address 0, registered, its counter 5, the value of s62. -/
def lined (w x : Nat) (ls : List BarLine) : State :=
  { (rig fun g => (leased g).setS 62 (BitVec.ofNat 64 x)).writeIA 0 0 8 5 with
    lines := ls, waits := List.replicate w { id := 1, who := .strand 0 0 1, ctx := 0, target := .global 0 0 false, value := 9, stage := .entry } }
/-- Its entry. -/
def bar0 : BarLine := { target := .global 0 0 false, die := 0, slice := 0, ctx := 0, regions := [] }
/-- 64 other lines of its home and context. -/
def barsFull : List BarLine := (List.range 64).map fun k => { bar0 with target := .global 0 (128 * (k + 1)) false }
/-- A pointer to address 0 of rank 1, and a port to it that is UP, or none. -/
def peer1 : Nat := 6 * 2 ^ 60 + 2 ^ 52
def rigPeer (ports : DWord) : State :=
  { (rig fun g => (leased g).setS 61 (BitVec.ofNat 64 peer1)).setReg (.lnkRoute 1) ports with links := [(0, { state := .up })] }

theorem witness_BarrierForms :
    (barriers (leaf0 rigM 51) 0 1 = true ∧ barriers (leaf0 rigM 0) 0 2 = true) ∧
    (barriers (lined 0 0 []) 0 0 = true ∧ (lined 0 0 []).lineAt (.global 0 0 false) = none ∧ ((lined 0 0 []).linesAt ((lined 0 0 []).homeOf (.global 0 0 false))).length < 4096 ∧
      ((lined 0 0 []).eff 0).lineBudgets = []) ∧
    (barriers (lined 0 0 barsFull) 0 0 = true ∧ (lined 0 0 barsFull).lineAt (.global 0 0 false) = none ∧
      64 ≤ (((lined 0 0 barsFull).linesAt ((lined 0 0 barsFull).homeOf (.global 0 0 false))).filter fun l => l.ctx == 0).length) ∧
    (∀ y ∈ [(1, 4), (1, 5), (0, 4)], barriers (lined y.1 y.2 [bar0]) 0 0 = true ∧ (lined y.1 y.2 [bar0]).lineAt (.global 0 0 false) = some bar0 ∧
      ((lined y.1 y.2 [bar0]).readT (.global 0 0 false) 0 8).1 = 5 ∧ ((lined y.1 y.2 [bar0]).lineWaits (.global 0 0 false)).length = y.1) ∧
    (barriers (rigPeer 0) peer1 3 = true ∧ (rigPeer 0).rankPort 1 0 = none) ∧
    (barriers (rigPeer 1) peer1 3 = true ∧ ((rigPeer 1).rankPort 1 0).isSome = true) := by
  decide +kernel

/-! ## Copies -/

/-- s60 holds a size, s61 a barrier's address, s62 a destination. -/
def rigK : State := rig fun g => (((leased g).setS 60 4096).setS 61 0).setS 62 8192
def iK : Issue := rigIssue rigK []
/-- COPY with a barrier, and of no bytes without one; KICK; MDLD of the greatest count into the greatest slot. -/
def kBar : FmtC := ⟨62, 0, 60, 1⟩
def kNone : FmtC := ⟨62, 63, 63, 0⟩
/-- The descriptor of rigD in the cache, its destination far from the tensor; counters full. -/
def rigKD : State := withDesc0 rigK
def iKD : Issue := rigIssue rigKD []
def rigFullC : State := rig fun g => { leased g with cp := 63, tl := 63, ms := 63 }
def xMdld : FmtX := ⟨1, 0, 0, 63, 2⟩

/-- s62 holds a number of commands. -/
def kicks (n : DWord) : State := rig fun g => g.setS 62 n

theorem witness_CopySegments : 2 ^ 32 - 1 < 2 ^ 32 ∧ (4096 : Nat) ≠ 0 ∧ (segments 4095 0 4098)[2]? = some { dst := 8192, src := 4097, size := 1 } := by decide +kernel

theorem witness_CopiesPosted :
    (∀ f ∈ [kBar, kNone], let i := iK
      let dst := (i.g.sreg f.sa.toNat).toNat
      let src := (i.g.sreg f.sb.toNat).toNat
      let n := (i.g.sreg f.sc.toNat).toNat
      let bar := if f.f.getLsbD 0 then some (i.g.sreg (f.sc.toNat + 1)) else none
      (n < 2 ^ 32 ∧ rangesOverlap dst src n = false ∧ (f.f.getLsbD 0 = true → f.sc.toNat % 2 = 0 ∧ f.sc.toNat ≤ 60) ∧
        rigK.rangeFault i src n true false = none ∧ rigK.rangeFault i dst n false true = none ∧ rigK.copyBarFault i bar = none ∧
        i.g.cp < 63 ∧ AwaitsPage rigK i .range (segments dst src n) = false) ∧
      Issues rigK [] i (reservedSet 0xB0 f.payload) { xmod := xmScope } false false none) ∧
    (60 % 4 = 0 ∧ rigKD.descPtrFault iKD 0 = none ∧ rigKD.descCached iKD 0 = some descBits ∧ descBad descBits = false ∧
      rigKD.boxFault iKD descBits (iKD.origin 0) true false = none ∧ rigKD.rangeFault iKD 8192 (descBytes descBits) false true = none ∧
      rigKD.copyBarFault iKD none = none ∧ AwaitsPage rigKD iKD (.box (natWords descBits 8) (iKD.origin 0)) (segments 8192 0 (descBytes descBits)) = false) ∧
    Issues rigKD [] iKD (reservedSet 0xB1 (FmtC.payload ⟨62, 0, 0, 0⟩)) { xmod := xmScope } false false none ∧
    ((1 ≤ ((rigIssue (kicks 65535) []).g.sreg 62).toNat ∧ ((rigIssue (kicks 65535) []).g.sreg 62).toNat ≤ 65535) ∧
      Issues (kicks 65535) [] (rigIssue (kicks 65535) []) (reservedSet 0xB2 (FmtC.payload ⟨63, 62, 0, 0⟩)) { xmod := xmScope } false false none) ∧
    ((xMdld.f.toNat % 4 ≠ 3 ∧ xMdld.fD.toNat < iM.g.na ∧ iM.notWhole = none ∧
        rigM.ptrFault iM { size := 2048, align := 128, rd := true, whole := true } [(64, 0)] = none) ∧
      Issues rigM [] iM (reservedSet 0xB3 xMdld.payload) {} false false none) ∧
    63 ≤ (rigIssue rigFullC []).g.cp := by
  refine ⟨?_, by decide +kernel, issuesOn (by decide +kernel) (by decide +kernel), ⟨by decide +kernel, issuesOn (by decide +kernel) (by decide +kernel)⟩,
    ⟨by decide +kernel, issuesOn (by decide +kernel) (by decide +kernel)⟩, by decide +kernel⟩
  intro f hf
  simp only [List.mem_cons, List.not_mem_nil, or_false] at hf
  rcases hf with rfl | rfl
  · exact ⟨by decide +kernel, issuesOn (by decide +kernel) (by decide +kernel)⟩
  · exact ⟨by decide +kernel, issuesOn (by decide +kernel) (by decide +kernel)⟩

/-- The operands of COPY, COPYT, KICK and MDLD above are legal in a state, and find no fault at issue. -/
def copiesIssue (s : State) : Bool :=
  let i := rigIssue s []
  let none' (op : BitVec 8) (p : BitVec 24) (f : Form) := (i.fault (reservedSet op p) f false false fun _ => none).isNone
  (s.issue []).isSome && decide ((i.g.sreg 60).toNat = 4096) && (s.rangeFault i 0 4096 true false).isNone && (s.rangeFault i 8192 4096 false true).isNone &&
    (s.copyBarFault i (some (i.g.sreg 61))).isNone && (i.g.sreg 62 == 8192) && i.notWhole.isNone && decide (xMdld.fD.toNat < i.g.na) &&
    (s.ptrFault i { size := 2048, align := 128, rd := true, whole := true } [(64, 0)]).isNone &&
    none' 0xB0 kBar.payload { xmod := xmScope } && none' 0xB1 (FmtC.payload ⟨62, 0, 0, 0⟩) { xmod := xmScope } &&
    none' 0xB2 (FmtC.payload ⟨63, 62, 0, 0⟩) { xmod := xmScope } && none' 0xB3 xMdld.payload {}
/-- Its operands with cp at its greatest; and a page of theirs that migrates. -/
def rigKFull : State := rig fun g => { (((leased g).setS 60 4096).setS 61 0).setS 62 8192 with cp := 63 }
def rigKMoves : State := { rigK with pages := [(pageKey 0 0, { size := 2 ^ 30, cmd := some 1 })], pageCmds := [{ id := 1, op := 1, ctx := 0, a := 0, b := 0, tag := 0 }] }

theorem witness_CopiesWait :
    (∀ s ∈ [rigKFull, withDesc0 rigKFull, rigKMoves, withDesc0 rigKMoves], copiesIssue s = true) ∧ 63 ≤ (rigIssue rigKFull []).g.cp ∧
    AwaitsPage rigKMoves (rigIssue rigKMoves []) .range (segments 8192 0 4096) = true ∧
    AwaitsPage rigKMoves (rigIssue rigKMoves []) (.slot 0) [{ dst := 0, src := 0, size := 2048 }] = true ∧
    (let s := withDesc0 rigKMoves; let i := rigIssue s []
     s.descCached i 0 = some descBits ∧ s.boxFault i descBits (i.origin 0) true false = none ∧
      s.rangeFault i 8192 (descBytes descBits) false true = none ∧
      AwaitsPage s i (.box (natWords descBits 8) (i.origin 0)) (segments 8192 0 (descBytes descBits)) = true) ∧
    rigKFull.descCached (rigIssue rigKFull []) 0 = none ∧ rigKFull.descPtrFault (rigIssue rigKFull []) 0 = none := by decide +kernel

/-! ## Tasks -/

/-- A record at offset 0 of the own region, whose future is at address 128; s62 points to it. -/
def withRecord0 (s : State) : State := s.storeAt (.spad 0 8) 8 128 []
def atRecord (g : Group) : Group := (leased g).setS 62 (2 <<< 60)
def rigR : State := withRecord0 (rig atRecord)
def iR : Issue := rigIssue rigR []
/-- With a load outstanding; with no future in the record; with the deque full; in a region whose share of records is none. -/
def rigRO : State := { rigR with ops := [load0 rigM] }
def rigRZ : State := rig atRecord
def rigRF : State := rigR.setCore 0 { rigR.core 0 with
  deque := List.replicate 512 { id := 1, addr := 0, words := [], ctx := 0, ktag := 0, det := false } }
/-- Kernel 0, its region with a save area of 1 MiB at address 1 MiB. -/
def kernel0 (budgets : List (Nat × Nat × Nat × Nat)) : Kernel :=
  { tag := 0, state := .running, eff := { path := [0], budgets := budgets, saveBase := 2 ^ 20, saveSize := 2 ^ 20 }
    launch := { source := .packet 0 0, ctx := 0, codeBase := 0, region := 0, rootId := 0, leases := [], record := 0, barrier := 0, addr := 0 } }
def rigRS : State := rigR.setKernel (kernel0 [(64, 64, 0, 64)])
def rigRX : State := rigR.setKernel (kernel0 [])
/-- Its kernel being cancelled; a record with an operand, whose descriptor's page is absent. -/
def rigRC : State := rigR.setKernel { kernel0 [(64, 64, 64, 64)] with cancelled := true }
def rigRW : State := leaf0 ((rigR.storeAt (.spad 0 24) 8 1 []).storeAt (.spad 0 56) 8 5 []) 51
/-- Whether a state's strand finds the record, and whether it is valid there. -/
def records (s : State) : Option Bool :=
  let i := rigIssue s []
  let u := s.recReady i (2 ^ 61)
  if s.strandQuiet 0 0 0 && u.1 then some (!u.2.recInvalid 0 0 0 (u.2.recAt i (2 ^ 61)) && !u.2.ordinalWaits i) else none
def cSp : FmtC := ⟨63, 62, 0, 0⟩

theorem witness_SpawnPushes :
    (∀ s ∈ [rigR, rigRO, rigRZ, rigRF, rigRS, rigRC, rigRW], let i := rigIssue s []
      (i.g.sreg 62).toNat = 2 ^ 61 ∧ s.recFault i (2 ^ 61) = none ∧ i.fault (reservedSet 0xC0 cSp.payload) {} false false (fun _ => none) = none) ∧
    Issues rigR [] iR (reservedSet 0xC0 cSp.payload) {} false false none ∧
    rigRO.strandQuiet 0 0 0 = false ∧ (rigRW.strandQuiet 0 0 0 = true ∧ (rigRW.recReady (rigIssue rigRW []) (2 ^ 61)).1 = false) ∧
    (records rigRZ = some false ∧ (rigRZ.recReady (rigIssue rigRZ []) (2 ^ 61)).2.recInvalid 0 0 0
      ((rigRZ.recReady (rigIssue rigRZ []) (2 ^ 61)).2.recAt (rigIssue rigRZ []) (2 ^ 61)) = true) ∧
    (∀ s ∈ [rigR, rigRF, rigRS, rigRC], records s = some true) ∧ (rigR.kernel 0).isNone = true ∧
    ((rigRC.kernel 0).map (·.cancelled) = some true ∧ rigRC.shareFull 0 0 = false ∧ (rigRC.futureReady 0 0 128).1 = true) ∧
    512 ≤ (rigRF.core 0).deque.length ∧ rigRS.shareFull 0 0 = true ∧ (rigR.core 0).deque.length < 512 ∧ rigR.shareFull 0 0 = false ∧
    (rigR.futureReady 0 0 (recFuture (rigR.recAt iR (2 ^ 61)))).1 = true :=
  ⟨by decide +kernel, issuesOn (by decide +kernel) (by decide +kernel), by decide +kernel⟩

theorem witness_RemoteSpawns :
    (rigR.targetBad 1535 = false ∧ rigR.targetBad 0 = false ∧ rigR.recFault iR (2 ^ 61) = none ∧ iR.g.ms < 63 ∧
      63 ≤ (rigIssue rigFullC []).g.ms) ∧
    (records rigR = some true ∧ records rigRZ = some false ∧ rigRZ.recFault (rigIssue rigRZ []) (2 ^ 61) = none) ∧
    Issues rigRZ [] (rigIssue rigRZ []) (reservedSet 0xC1 (FmtC.payload ⟨1, 62, 63, 1⟩)) {} false false none ∧
    Issues rigR [] iR (reservedSet 0xC1 (FmtC.payload ⟨1, 62, 63, 1⟩)) {} false false none ∧
    Issues rigR [] iR (reservedSet 0xC1 (FmtC.payload ⟨0, 62, 63, 0⟩)) {} false false none :=
  ⟨by decide +kernel, by decide +kernel, issuesOn (by decide +kernel) (by decide +kernel), issuesOn (by decide +kernel) (by decide +kernel), issuesOn (by decide +kernel) (by decide +kernel)⟩

/-- A task whose record's future is at address 128. -/
def rigF : State := rig fun g => { leased g with task := { (leased g).task with record := [0, 128] } }
def iF : Issue := rigIssue rigF []
theorem witness_FutureStore :
    (∀ k ∈ [0, 5], k < 6 ∧ rigF.barFault iF (128 + 16 + 8 * k) 8 false true = none ∧
      rigF.wholeTarget 0 0 iF.g.task (128 + 16 + 8 * k) = some (.global 0 (144 + 8 * k) false)) ∧
    recFuture iF.g.task.record = 128 ∧ Issues rigF [] iF (reservedSet 0xC3 (FmtC.payload ⟨63, 0, 0, 5⟩)) {} false false none :=
  ⟨by decide +kernel, by decide +kernel, issuesOn (by decide +kernel) (by decide +kernel)⟩

/-- A record with QUAD, and what the statement asks. -/
def rigRQ : State := rigR.storeAt (.spad 0 0) 8 (2 ^ 50) []
theorem witness_ExecInPlace :
    (iR.g.strands.length = 1 ∧ rigRX.recFault (rigIssue rigRX []) (2 ^ 61) = none) ∧
    Issues rigRX [] (rigIssue rigRX []) (reservedSet 0xC4 (FmtC.payload ⟨62, 63, 0, 0⟩)) {} false false none ∧
    Issues rigRQ [] (rigIssue rigRQ []) (reservedSet 0xC4 (FmtC.payload ⟨62, 63, 0, 0⟩)) {} false false none ∧
    (rigRQ.recFault (rigIssue rigRQ []) (2 ^ 61) = none ∧ (records rigRQ).isSome = true ∧ recQuad (rigRQ.recAt (rigIssue rigRQ []) (2 ^ 61)) = true) ∧
    ((rigR.saveRoom 0 0 iR.g.saveSize).1 = none ∧ rigR.recFault iR (2 ^ 61) = none ∧ records rigR = some true) ∧
    (records rigRX = some true ∧ recQuad (rigRX.recAt (rigIssue rigRX []) (2 ^ 61)) = false ∧
      (rigRX.saveRoom 0 0 iR.g.saveSize).1 = some (2 ^ 20)) ∧
    (let r := rigRX.recAt (rigIssue rigRX []) (2 ^ 61)
     recVc r ≤ iR.g.vc ∧ recTc r ≤ iR.g.tc ∧ recAc r ≤ iR.g.ac ∧ recLc r ≤ iR.g.lc ∧ iR.g.frames.length < 8) :=
  ⟨by decide +kernel, issuesOn (by decide +kernel) (by decide +kernel), issuesOn (by decide +kernel) (by decide +kernel), by decide +kernel,
    by decide +kernel, by decide +kernel, by decide +kernel⟩

/-- Size 64 KiB in s61; no lease, eight leases; a request under way, and answered. -/
def sized (g : Group) : Group := g.setS 61 65536
def rigZ0 : State := rig sized
def rigZ1 : State := rig fun g => sized (leased g)
def rigZ8 : State := rig fun g => { sized g with task := { g.task with added := (List.range 8).map fun k => { base := 2 ^ 20 * (k + 1), size := 65536 } } }
def request (a : Option Nat) : LeaseReq := { id := 1, holder := .task 0 (rig0.group 0 0).uid 0, ctx := 0, base := 0, size := 65536, answer := a }
def rigZQ (a : Option Nat) : State := { rigZ0 with leaseReqs := [request a] }
def fits (s : State) : Bool := let i := rigIssue s []
  decide (65536 ≤ (i.g.sreg 61).toNat ∧ (i.g.sreg 61).toNat ≤ 2 ^ 35 ∧ s.leaseFault i (i.g.sreg 63).toNat (i.g.sreg 61).toNat = none)
def mineOf (q : LeaseReq) : Bool := q.holder == .task 0 (rig0.group 0 0).uid 0 && q.strand == 0
theorem witness_LeaseAsks :
    (∀ s ∈ [rigZ0, rigZ1, rigZ8, rigZQ none, rigZQ (some 0)], fits s = true) ∧
    Issues rigZ0 [] (rigIssue rigZ0 []) (reservedSet 0xC5 (FmtC.payload ⟨63, 61, 1, 0⟩)) {} false false none ∧
    Issues (rigZQ none) [] (rigIssue (rigZQ none) []) (reservedSet 0xC5 (FmtC.payload ⟨63, 61, 1, 0⟩)) {} false false none ∧
    (rigZ0.leaseReqs.find? mineOf = none ∧ inLeases (rigZ1.leaseSet (rigIssue rigZ1 []).g.task) 0 65536 = true ∧
      inLeases (rigZ8.leaseSet (rigIssue rigZ8 []).g.task) 0 65536 = false ∧ 8 ≤ (rigZ8.leaseSet (rigIssue rigZ8 []).g.task).length ∧
      inLeases (rigZ0.leaseSet (rigIssue rigZ0 []).g.task) 0 65536 = false ∧ (rigZ0.leaseSet (rigIssue rigZ0 []).g.task).length < 8) ∧
    (rigZQ none).leaseReqs.find? mineOf = some (request none) ∧ (rigZQ (some 2)).leaseReqs.find? mineOf = some (request (some 2)) :=
  ⟨by decide +kernel, issuesOn (by decide +kernel) (by decide +kernel), issuesOn (by decide +kernel) (by decide +kernel), by decide +kernel,
    by decide +kernel, by decide +kernel⟩

/-- A deterministic task. -/
def rigDet : State := rig fun g => { g with task := { g.task with det := true } }
theorem witness_UnleaseAndMark :
    Issues rigM [] iM (reservedSet 0xC6 (FmtC.payload ⟨63, 1, 0, 0⟩)) {} false false none ∧
    iM.g.task.added.find? (fun r => r.base == 0) = some { base := 0, size := 2 ^ 30 } ∧
    Issues rig0 [] i0 (reservedSet 0xC6 (FmtC.payload ⟨63, 1, 0, 0⟩)) {} false false none ∧ (∀ r ∈ i0.g.task.added, r.base ≠ 0) ∧
    (i0.g.task.det = false ∧ Issues rig0 [] i0 (reservedSet 0xE4 c0.payload) {} false false none) ∧
    ((rigIssue rigDet []).g.task.det = true ∧ Issues rigDet [] (rigIssue rigDet []) (reservedSet 0xE4 c0.payload) {} false false none) :=
  ⟨issuesOn (by decide +kernel) (by decide +kernel), by decide +kernel, issues0 (by decide +kernel), by decide +kernel,
    ⟨by decide +kernel, issues0 (by decide +kernel)⟩, ⟨by decide +kernel, issuesOn (by decide +kernel) (by decide +kernel)⟩⟩

/-! ## Tiles -/

/-- TLD and TST of the last tile at rigD's descriptor; TZERO; multiplies on the last accumulator and tiles. -/
def xTld : FmtX := ⟨7, 0, 0, 60, 0⟩
def xTst : FmtX := ⟨0, 7, 0, 60, 0⟩
def xTz : FmtX := ⟨7, 0, 0, 0, 0⟩
def xMma : FmtX := ⟨1, 7, 6, 0, 0⟩
def xMmak : FmtX := ⟨1, 7, 7, 63, 3⟩
/-- Block 0 kept in k3. -/
def rigKeep : State := rig fun g => g.setK 3 1

theorem witness_TileMovesQueued :
    (xTld.fD.toNat < iD.g.nt ∧ rigD.tileFault iD 60 false false false true false = none ∧
      rigD.descCached iD 0 = some descBits ∧ iD.g.tl < 63) ∧
    Issues rigD [] iD (reservedSet 0xD0 xTld.payload) {} false false none ∧
    (rigM.tileFault iM 60 false false false true false = none ∧ rigM.descCached iM 0 = none) ∧
    Issues rigM [] iM (reservedSet 0xD0 xTld.payload) {} false false none ∧
    (xTst.fA.toNat < iD.g.nt ∧ rigD.tileFault iD 60 false false false false true = none) ∧
    Issues rigD [] iD (reservedSet 0xD1 xTst.payload) {} false false none ∧
    (rigM.tileFault iM 60 false false false false true = none ∧ rigM.descCached iM 0 = none) ∧
    Issues rigM [] iM (reservedSet 0xD1 xTst.payload) {} false false none ∧
    (xTz.fD.toNat < i0.g.nt ∧ TileIssues rig0 [] i0 0xD2 xTz {}) ∧ 63 ≤ (rigIssue rigFullC []).g.tl :=
  ⟨by decide +kernel, issuesOn (by decide +kernel) (by decide +kernel), by decide +kernel, issuesOn (by decide +kernel) (by decide +kernel),
    by decide +kernel, issuesOn (by decide +kernel) (by decide +kernel), by decide +kernel, issuesOn (by decide +kernel) (by decide +kernel),
    ⟨by decide +kernel, by decide +kernel, issues0 (by decide +kernel)⟩, by decide +kernel⟩

/-- With tl at its greatest, and a block that k3 keeps, the operands of every tile instruction above are legal and no fault is found at issue. -/
def rigTFull : State := withDesc0 (rig fun g => { (leased g).setK 3 1 with tl := 63 })
theorem witness_TilesWait : let s := rigTFull; let i := rigIssue s []
    (s.issue []).isSome = true ∧ 63 ≤ i.g.tl ∧ s.descCached i 0 = some descBits ∧ i.notWhole = none ∧
    s.tileFault i 60 false false false true false = none ∧ s.tileFault i 60 false false false false true = none ∧ (i.g.kreg 3).getLsbD 0 = true ∧
    (∀ y ∈ [((0xD0 : BitVec 8), xTld.payload, ({} : Form)), (0xD1, xTst.payload, {}), (0xD2, xTz.payload, {}), (0xD4, xMma.payload, { ximm := 1 }),
        (0xD6, xMma.payload, { ximm := 1 }), (0xD7, xMmak.payload, { ximm := 1 }), (0xD3, (⟨7, 1, 0, 0, 6⟩ : FmtX).payload, { xmod := xmRound ||| xmSat }),
        (0xD8, (⟨0, 7, 6, 63, 62⟩ : FmtX).payload, {}), (0xDB, (⟨0, 1, 0, 63, 62⟩ : FmtX).payload, {}), (0xDC, (⟨0, 1, 1, 0, 62⟩ : FmtX).payload, {}),
        (0xDD, (⟨1, 0, 0, 0, 62⟩ : FmtX).payload, {}), (0xDE, (⟨1, 0, 0, 63, 63⟩ : FmtX).payload, {}), (0xDF, (⟨1, 0, 0, 0, 0⟩ : FmtX).payload, {})],
      i.fault (reservedSet y.1 y.2.1) y.2.2 false false (fun _ => none) = none) ∧
    63 ≤ (rigIssue (rig fun g => { g with tl := 63, task := { g.task with quad := some 0 } }) []).g.tl := by decide +kernel

/-- A group of a quad with one active lane: each tile instruction above finds nothing but its lanes. -/
def rigT1 : State := rig fun g => { (leased g).setStrand 0 { g.strand 0 with em := 1 } with task := { (leased g).task with quad := some 0 } }
theorem witness_TilesNeedConvergence : let s := rigT1; let i := rigIssue s []
    ((i.x.em ≠ ~~~ i.g.exited ∧ (s.issue []).isSome = true) ∧ (rigIssue rigP8 []).g.strands.length ≠ 1) ∧
    (s.mmaqUnlike i = false ∧ i.g.mmaqBad = [] ∧ mmaTypesBad [] false = false ∧ mmaTypesBad [] true = false) ∧
    (xTld.fD.toNat < i.g.nt ∧ xTld.s.toNat % 4 = 0 ∧ xTst.fA.toNat < i.g.nt ∧ xTz.fD.toNat < i.g.nt ∧ xMma.fD.toNat < i.g.na ∧
      xMma.fA.toNat < i.g.nt ∧ xMma.fB.toNat + 1 < i.g.nt ∧ xMma.fB.toNat % 2 = 0 ∧ (62 : Nat) < i.g.nv ∧ xMdld.fD.toNat < i.g.na ∧
      xMdld.f.toNat % 4 ≠ 3 ∧ (i.g.sreg 63).toNat < 64) ∧
    ∀ y ∈ [((0xD0 : BitVec 8), xTld.payload, ({} : Form)), (0xD1, xTst.payload, {}), (0xD2, xTz.payload, {}), (0xD4, xMma.payload, { ximm := 1 }),
        (0xD5, xMma.payload, { ximm := 1 }), (0xD6, xMma.payload, { ximm := 1 }), (0xD7, xMmak.payload, { ximm := 1 }),
        (0xD3, (⟨7, 1, 0, 0, 6⟩ : FmtX).payload, { xmod := xmRound ||| xmSat }), (0xD8, (⟨0, 7, 6, 63, 62⟩ : FmtX).payload, {}),
        (0xDB, (⟨0, 1, 0, 63, 62⟩ : FmtX).payload, {}), (0xDC, (⟨0, 1, 1, 0, 62⟩ : FmtX).payload, {}), (0xDD, (⟨1, 0, 0, 0, 62⟩ : FmtX).payload, {}),
        (0xDE, (⟨1, 0, 0, 63, 63⟩ : FmtX).payload, {}), (0xDF, (⟨1, 0, 0, 0, 0⟩ : FmtX).payload, {}), (0xB3, xMdld.payload, {})],
      i.fault (reservedSet y.1 y.2.1) y.2.2 false false (fun _ => none) = none := by
  decide +kernel

/-- A group of a quad. -/
def rigQ : State := rig fun g => { g with task := { g.task with quad := some 0 } }
def iQ : Issue := rigIssue rigQ []

theorem witness_MultipliesQueued :
    (xMma.fD.toNat < i0.g.na ∧ xMma.fA.toNat < i0.g.nt ∧ xMma.fB.toNat < i0.g.nt) ∧
    (mmaTypesBad [] false = false ∧ TileIssues rig0 [] i0 0xD4 xMma { ximm := 1 }) ∧
    (rigQ.mmaqUnlike iQ = false ∧ (∀ e ∈ iQ.g.mmaqBad, e.1 ≠ iQ.g.mmaqs) ∧ TileIssues rigQ [] iQ 0xD5 xMma { ximm := 1 }) ∧
    (mmaTypesBad [] true = false ∧ xMma.fB.toNat % 2 = 0 ∧ xMma.fB.toNat + 1 < i0.g.nt ∧ TileIssues rig0 [] i0 0xD6 xMma { ximm := 1 }) ∧
    TileIssues rig0 [] i0 0xD7 xMmak { ximm := 1 } ∧
    ((i0.g.sreg 63).toNat < 64 ∧ (i0.g.kreg 3).getLsbD 0 = false) ∧ ((rigIssue rigKeep []).g.kreg 3).getLsbD 0 = true :=
  ⟨by decide +kernel, ⟨by decide, by decide +kernel, issues0 (by decide +kernel)⟩,
    ⟨by decide +kernel, by decide +kernel, by decide +kernel, issuesOn (by decide +kernel) (by decide +kernel)⟩,
    ⟨by decide, by decide, by decide +kernel, by decide +kernel, issues0 (by decide +kernel)⟩,
    ⟨by decide +kernel, issues0 (by decide +kernel)⟩, by decide +kernel, by decide +kernel⟩

/-- TCVT's types at the ends of their ranges; ASCALE by v63; ARD, AROW, AEXP, AZERO on the last registers. -/
def xCv (f : BitVec 6) : FmtX := ⟨7, 1, 0, 0, f⟩
def xAcc (b : BitVec 4) (d : BitVec 6) : FmtX := ⟨0, 1, b, 63, d⟩
def xScl (d : BitVec 6) : FmtX := ⟨1, 0, 0, 0, d⟩
theorem witness_AccumulatorOpsQueued :
    (∀ f ∈ [6, 23, 28, 12, 63 - 19], 6 ≤ f % 16 ∧ f % 16 ≤ 12 ∧ (f / 16 % 2 = 1 → f % 16 ≤ 7 ∨ f % 16 = 12)) ∧
    ((7 : Nat) < i0.g.nt ∧ (1 : Nat) < i0.g.na) ∧ TileIssues rig0 [] i0 0xD3 (xCv 6) { xmod := xmRound ||| xmSat } ∧
    TileIssues rig0 [] i0 0xD3 (xCv 60) { xmod := xmRound ||| xmSat } ∧
    ((62 : Nat) < i0.g.nv ∧ TileIssues rig0 [] i0 0xD8 ⟨0, 7, 6, 63, 62⟩ {}) ∧
    ((i0.g.sreg 63).toNat < 64 ∧ TileIssues rig0 [] i0 0xDB (xAcc 0 62) {}) ∧ TileIssues rig0 [] i0 0xDC ⟨0, 1, 1, 0, 62⟩ {} ∧
    TileIssues rig0 [] i0 0xDD (xScl 62) {} ∧ TileIssues rig0 [] i0 0xDD (xScl 63) {} ∧
    TileIssues rig0 [] i0 0xDE ⟨1, 0, 0, 63, 63⟩ {} ∧ TileIssues rig0 [] i0 0xDF ⟨1, 0, 0, 0, 0⟩ {} :=
  ⟨by decide, by decide +kernel, ⟨by decide +kernel, issues0 (by decide +kernel)⟩, ⟨by decide +kernel, issues0 (by decide +kernel)⟩,
    ⟨by decide +kernel, by decide +kernel, issues0 (by decide +kernel)⟩, ⟨by decide +kernel, by decide +kernel, issues0 (by decide +kernel)⟩,
    ⟨by decide +kernel, issues0 (by decide +kernel)⟩, ⟨by decide +kernel, issues0 (by decide +kernel)⟩,
    ⟨by decide +kernel, issues0 (by decide +kernel)⟩, ⟨by decide +kernel, issues0 (by decide +kernel)⟩, ⟨by decide +kernel, issues0 (by decide +kernel)⟩⟩

theorem witness_ThresholdBit : (3 : Nat) < 4 ∧ (62 : Nat) < i0.g.nv ∧
    Issues rig0 [] i0 (reservedSet 0xD9 (FmtX.payload ⟨3, 3, 14, 63, 63⟩)) { ximm := 1 } false false none ∧
    i0.x.em ≠ 0 ∧ (rigIssue rigE []).x.em = 0 ∧ Issues rigE [] (rigIssue rigE []) (reservedSet 0xD9 (FmtX.payload ⟨3, 3, 14, 63, 63⟩)) { ximm := 1 } false false none :=
  ⟨by decide, by decide +kernel, issues0 (by decide +kernel), by decide +kernel, by decide +kernel, issuesOn (by decide +kernel) (by decide +kernel)⟩

/-- Eight entries, all of block 63, with the last block held in k3; the cursor in s63. -/
def rigMask : State := rig fun g => ((g.setS 62 (BitVec.ofNat 64 (8 * 2 ^ 48 + 2 ^ 48 - 1))).setK 3 (1 <<< 63)).setS 61 (BitVec.allOnes 64)
theorem witness_NextBlock : let i := rigIssue rigMask []
    ((i.g.sreg 62).toNat / 2 ^ 48 % 16 = 8 ∧ (i.g.sreg 62).toNat.testBit 63 = false ∧ (i.g.sreg 62).toNat % 64 = 63 ∧ (i.g.sreg 61).toInt = -1) ∧
    Issues rigMask [] i (reservedSet 0xDA (FmtX.payload ⟨0, 3, 0, 62, 61⟩)) {} false false none ∧
    Issues rig0 [] i0 (reservedSet 0xDA (FmtX.payload ⟨0, 3, 0, 62, 61⟩)) {} false false none :=
  ⟨by decide +kernel, issuesOn (by decide +kernel) (by decide +kernel), issues0 (by decide +kernel)⟩

/-! ## The system's instructions and faults -/

/-- Window 15 of context 0 enabled. -/
def rigW : State := rig0.setReg (.hwCtl 15) (2 ^ 39 + 1)

theorem witness_SystemOperations :
    Issues rigW [] (rigIssue rigW []) (reservedSet 0xE0 (FmtC.payload ⟨0, 0, 0, 15⟩)) {} false false none ∧ rigW.windowOk 0 15 0 0 = true ∧
    Issues rig0 [] i0 (reservedSet 0xE0 (FmtC.payload ⟨0, 0, 0, 15⟩)) {} false false none ∧ rig0.windowOk 0 15 0 0 = false ∧
    Issues rig0 [] i0 (reservedSet 0xE2 (FmtC.payload ⟨63, 62, 1, 0⟩)) {} false false none ∧
    (ptrSpace (i0.g.sreg 1).toNat = 0 ∧ tagBad (i0.g.sreg 1).toNat true = false ∧ (rig0.spanIn (rig0.coreSpans 0 0) 0 0).isSome = true) ∧
    (∃ g : Group → Group, let s := rig g; let i := rigIssue s []
      s.spanIn (s.coreSpans 0 0) 0 (ptrOffset (i.g.sreg 0).toNat) = none ∧ ptrSpace (i.g.sreg 0).toNat = 0 ∧ (s.issue []).isSome = true ∧
      i.fault (reservedSet 0xE2 (FmtC.payload ⟨63, 62, 0, 0⟩)) {} false false (fun _ => none) = none) ∧
    (let s := rigFull.setReg (.hwCtl 15) (2 ^ 39 + 1); let i := rigIssue s []
      63 ≤ i.g.st ∧ 63 ≤ i.g.ld ∧ s.windowOk 0 15 0 0 = true ∧ (s.issue []).isSome = true ∧
      i.fault (reservedSet 0xE0 (FmtC.payload ⟨0, 0, 0, 15⟩)) {} false false (fun _ => none) = none ∧
      i.fault (reservedSet 0xE2 (FmtC.payload ⟨63, 62, 1, 0⟩)) {} false false (fun _ => none) = none ∧
      i.fault (reservedSet 0xE3 (FmtC.payload ⟨63, 62, 0, 63⟩)) {} false false (fun _ => none) = none) ∧
    Issues rig0 [] i0 (reservedSet 0xE3 (FmtC.payload ⟨63, 62, 0, 63⟩)) {} false false none :=
  ⟨issuesOn (by decide +kernel) (by decide +kernel), by decide +kernel, issues0 (by decide +kernel), by decide +kernel,
    issues0 (by decide +kernel), by decide +kernel, ⟨fun g => g.setS 0 (2 ^ 50), by decide +kernel⟩, by decide +kernel, issues0 (by decide +kernel)⟩

def seven : List Hint := List.replicate 7 (.run 0x200000)
theorem witness_WordsWithoutInstruction : rig0.issue [] = some i0 ∧ (rig0.issue seven).isSome = true ∧ seven.length = 7 := by decide +kernel

/-- IADD with a reserved field set in a hint word; with a hint it does not take; with a route that is none; with half a pair. -/
def hintW : List Hint := [.xmod 0x4]
theorem witness_FaultOrder : let form (h : List Hint) := intForm h v62.d.toNat v62.two
    rig0.issue [] = some i0 ∧ [Hint.run 1].all Hint.reservedZero = false ∧
    ([Hint.ximm 0].all Hint.reservedZero = true ∧ (form [.ximm 0]).hintFault [.ximm 0] = true) ∧
    ([Hint.xrta 0xFFF000].all Hint.reservedZero = true ∧ (form [.xrta 0xFFF000]).hintFault [.xrta 0xFFF000] = false ∧
      (form [.xrta 0xFFF000]).routeFault [.xrta 0xFFF000] i0.g = true) ∧
    ∃ g, g.vc = 0 ∧ (form []).hintFault [] = false ∧ (form []).routeFault [] g = false ∧ (form []).operandFault [] g 0 = true :=
  ⟨by decide +kernel, by decide, by decide +kernel, by decide +kernel, { i0.g with vc := 0 }, by decide +kernel, by decide +kernel, by decide +kernel, by decide +kernel⟩

/-- Policy 2 under an attached debugger. -/
def rigPol : State := rigAtt.setKernel { kernel0 [] with eff := { (kernel0 []).eff with policy := 2 } }
def rigFaulted : State := rig fun g => { g with faulted := true }
/-- Policies 1 and 3. -/
def rigPolicy (n : Nat) : State := rig0.setKernel { kernel0 [] with eff := { (kernel0 []).eff with policy := n } }
theorem witness_TakingAFault :
    (rigFaulted.group 0 0).faulted = true ∧
    (∀ n ∈ [1, 3], ((rigPolicy n).group 0 0).faulted = false ∧ (rigPolicy n).policyOf ((rigPolicy n).group 0 0) = n) ∧
    ((rig0.group 0 0).faulted = false ∧ (rig0.group 0 0).frames = [] ∧ (rig0.group 0 0).task.quad = none ∧ rig0.policyOf (rig0.group 0 0) = 0 ∧
      (rig0.group 0 0).ending = none) ∧
    (rigPol.group 0 0).faulted = false ∧ (rigPol.group 0 0).frames = [] ∧ (rigPol.group 0 0).task.quad = none ∧ rigPol.policyOf (rigPol.group 0 0) = 2 ∧
    (rigPol.slot 0 0).state = .active := by
  decide +kernel

/-- A full fault queue of one record. -/
def rigFq : State := (rig0.setReg (.ctxFq 0) 0).setReg (.ctxFqHead 0) 1
/-- The last record of a queue of 64 at address 4096, the frame of its page below. -/
def rigFr : State := (rig0.setReg (.ctxFq 0) (4096 + 6)).setReg (.ctxFqHead 0) 63
theorem witness_FaultRecordRoom : (rigFr.ctx 0).recsWaiting = [] ∧ rigFr.faultFull 0 = false ∧
    (let at' := (rigFr.reg (.ctxFq 0)).toNat / 4096 % 2 ^ 44 * 4096 + 64 * (63 % 2 ^ rigFr.fld (.ctxFq 0) 4 0)
     at' = 4096 + 64 * 63 ∧ (rigFr.reach 0 at' 64 true).1 = .present ∧ (rigFr.reach 0 at' 64 true).2.lineAt (.global 0 at' false) = none ∧
       (rigFr.reach 0 at' 64 true).2.pending = []) := by
  decide +kernel
theorem witness_FaultRecords : (2 ^ 16 - 1 < 2 ^ 16 ∧ 2 ^ 8 - 1 < 2 ^ 8 ∧ 2 ^ 32 - 1 < 2 ^ 32) ∧ (rigFq.ctx 0).recsWaiting = [] ∧ rigFq.faultFull 0 = true := by
  decide +kernel

/-! ## Encoding and steps -/

/-- Every field at its greatest value behind six hint words; an event; an unassigned opcode. -/
theorem witness_EncodeThenDecode : (Instr.iadd (List.replicate 6 (.xmod 0xFFFFFF)) ⟨63, 127, 127, 3, 3⟩).codable = true ∧
    (Instr.unassignedOpcode [] 0xFFFFFFFF).codable = true ∧ (Instr.seventhHintWord seven).codable = true := by decide

theorem witness_DecodeThenEncode : (∃ i, decodeWords [0xF4000000, 0x00000000, 0xFFFFFFFF] = .ok (i, [0xFFFFFFFF])) ∧
    (List.replicate 6 (0xF0000000 : Word)).length ≤ 6 ∧ (List.replicate 6 (0xF0000000 : Word)).all isHint = true := ⟨⟨_, rfl⟩, by decide, by decide⟩

/-- A word that a fetch brings. -/
theorem fetched {s : State} {c va : Nat} {w : Word} (h : (s.fetchWord c 0 va).1.toOption = some w) :
    s.fetchWord c 0 va = (.ok w, (s.fetchWord c 0 va).2) := by
  cases e : s.fetchWord c 0 va with
  | mk r t =>
    rw [e] at h
    cases r with
    | error x => cases h
    | ok v => exact congrArg (fun z => (Except.ok z, t)) (Option.some.inj h)

/-- The rig whose program is RUN and NOP, so many hint words issued. -/
def rigRun (n : Nat) : State := (rig fun g => g.setStrand 0 { g.strand 0 with hinted := n }).writeIA 0 0 8 0xF0200000
/-- The same as its core's port turns, after one cycle. -/
def rigTurn (n : Nat) : State := { rigRun n with agenda := [{ delay := 1, what := .issue 0 0 [] }] }
def atTurn (n : Nat) : State := ({ rigTurn n with agenda := [] }.pass 1).refresh 0 0 []
def f1 (s : State) : State := (s.fetchWord 0 0 0).2
def f2 (s : State) : State := ((f1 s).fetchWord 0 0 4).2

/-- The states in which a strand is about to fetch its words. -/
def runs (n : Nat) : State := { rigRun n with cur := { (rigRun n).cur with core := 0 } }
def turns (n : Nat) : State := { atTurn n with cur := { (atTurn n).cur with core := 0 } }

theorem witness_StrandRunsDecoded : ∀ n ∈ [0, 1],
    ((rigRun n).group 0 0).task.ctx = 0 ∧ ((rigRun n).group 0 0).task.ktag = 0 ∧ (((rigRun n).group 0 0).strand 0).pc = 0 ∧
      (((rigRun n).group 0 0).strand 0).hinted = n ∧ ((f2 (runs n)).logHolds ((rigRun n).group 0 0).task (.nop [.run 0x200000] ⟨0, 0, 0, 0⟩)).1 = false ∧
      Fetches 0 0 0 0 (runs n) [0xF0200000, 0] (f2 (runs n)) ∧ decodeWords [0xF0200000, 0] = .ok (.nop [.run 0x200000] ⟨0, 0, 0, 0⟩, []) := by
  intro n hn
  simp only [List.mem_cons, List.not_mem_nil, or_false] at hn
  rcases hn with rfl | rfl
  · exact ⟨by decide +kernel, by decide +kernel, by decide +kernel, by decide +kernel, by decide +kernel,
      .word 0 _ _ _ _ _ (fetched (by decide +kernel)) (.word 1 _ _ _ _ _ (fetched (by decide +kernel)) (.done 2 _)), rfl⟩
  · exact ⟨by decide +kernel, by decide +kernel, by decide +kernel, by decide +kernel, by decide +kernel,
      .word 0 _ _ _ _ _ (fetched (by decide +kernel)) (.word 1 _ _ _ _ _ (fetched (by decide +kernel)) (.done 2 _)), rfl⟩

/-- A deterministic task in replay at an ORDMARK, the log of its context on a page of the absent tier. -/
def rigLog : State :=
  let s := (rig fun g => { g with task := { g.task with det := true } }).writeIA 0 0 4 0xE4000000
  let s := ((s.setReg (.ctxIaSize 0) 2).setReg (.ordBase 0) (2 ^ 30)).setReg (.ordSize 0) 1
  { s with mem := Memory.write s.mem (hbmCell 0x3008) 8 51, ordMode := [(0, 2)] }

theorem witness_LogHolds : let s := { rigLog with cur := { rigLog.cur with core := 0 } }
    (rigLog.group 0 0).task.ctx = 0 ∧ ((rigLog.group 0 0).strand 0).hinted = 0 ∧
    ((f1 s).logHolds (rigLog.group 0 0).task (.ordmark [] ⟨0, 0, 0, 0⟩)).1 = true ∧
    Fetches 0 0 0 0 s [0xE4000000] (f1 s) ∧ decodeWords [0xE4000000] = .ok (.ordmark [] ⟨0, 0, 0, 0⟩, []) :=
  ⟨by decide +kernel, by decide +kernel, by decide +kernel, .word 0 _ _ _ _ _ (fetched (by decide +kernel)) (.done 1 _), rfl⟩

theorem witness_StepRunsDecoded : ∀ n ∈ [0, 1],
    (rigTurn n).agenda = { delay := 1, what := .issue 0 0 [] } :: [] ∧ (∀ q, Bank.look ((atTurn n).core 0).ports 0 = some q → q.time / 2 ≠ (atTurn n).time / 2) ∧
      (atTurn n).issueOrder 0 0 = (0, 0) :: [] ∧ (((atTurn n).group 0 0).strand 0).pc = 0 ∧ (((atTurn n).group 0 0).strand 0).hinted = n ∧
      ((atTurn n).group 0 0).task.ctx = 0 ∧ ((atTurn n).group 0 0).task.ktag = 0 ∧
      ((f2 (turns n)).logHolds ((atTurn n).group 0 0).task (.nop [.run 0x200000] ⟨0, 0, 0, 0⟩)).1 = false ∧
      Fetches 0 0 0 0 (turns n) [0xF0200000, 0] (f2 (turns n)) ∧ decodeWords [0xF0200000, 0] = .ok (.nop [.run 0x200000] ⟨0, 0, 0, 0⟩, []) := by
  have k (n : Nat) (h : Bank.look ((atTurn n).core 0).ports 0 = none) :
      ∀ q, Bank.look ((atTurn n).core 0).ports 0 = some q → q.time / 2 ≠ (atTurn n).time / 2 := by
    intro q e
    rw [h] at e
    cases e
  intro n hn
  simp only [List.mem_cons, List.not_mem_nil, or_false] at hn
  rcases hn with rfl | rfl
  · exact ⟨rfl, k 0 (by decide +kernel), by decide +kernel, by decide +kernel, by decide +kernel, by decide +kernel, by decide +kernel, by decide +kernel,
      .word 0 _ _ _ _ _ (fetched (by decide +kernel)) (.word 1 _ _ _ _ _ (fetched (by decide +kernel)) (.done 2 _)), rfl⟩
  · exact ⟨rfl, k 1 (by decide +kernel), by decide +kernel, by decide +kernel, by decide +kernel, by decide +kernel, by decide +kernel, by decide +kernel,
      .word 0 _ _ _ _ _ (fetched (by decide +kernel)) (.word 1 _ _ _ _ _ (fetched (by decide +kernel)) (.done 2 _)), rfl⟩

/-- The same with a FENCE that waits for an outstanding load: it is STALLED where it stands. -/
def rigFence : State := { rigO.writeIA 0 0 4 0x98000000 with agenda := [{ delay := 1, what := .issue 0 0 [] }] }
def atFence : State := ({ rigFence with agenda := [] }.pass 1).refresh 0 0 []
def fences : State := { atFence with cur := { atFence.cur with core := 0 } }
theorem witness_StepStalls :
    Bank.look (atFence.core 0).ports 0 = none ∧ atFence.issueOrder 0 0 = (0, 0) :: [] ∧ ((atFence.group 0 0).strand 0).hinted = 0 ∧
    (((f1 fences).logHolds (atFence.group 0 0).task (.fence [] ⟨0, 0, 0, 0⟩)).1 = false ∧
      Fetches 0 0 0 0 fences [0x98000000] (f1 fences) ∧ decodeWords [0x98000000] = .ok (.fence [] ⟨0, 0, 0, 0⟩, [])) ∧
    (match exec (.fence [] ⟨0, 0, 0, 0⟩) { f1 fences with cur := { core := 0, slot := 0, strand := 0, pc := 0, addr := 0 } } with
      | .next t => t.notIssued 0 0 0 0
      | _ => false) = true :=
  ⟨by decide +kernel, by decide +kernel, by decide +kernel,
    ⟨by decide +kernel, .word 0 _ _ _ _ _ (fetched (by decide +kernel)) (.done 1 _), rfl⟩, by decide +kernel⟩

theorem witness_StepRunsUnit : ({ State.reset with agenda := [{ delay := 2 ^ 64, what := .unit .wake {} }] } : State).agenda =
    { delay := 2 ^ 64, what := .unit .wake {} } :: [] := rfl

theorem witness_StepKeepsStorageForm : State.Inv (rigRun 0) := ⟨by decide +kernel, by decide +kernel⟩

/-! ## Steps of a group's life -/

/-- A token that claims a strand number, and a deferred entry that does. -/
def rigCl (k : TokenKind) : State := rig fun g => g.setToken 15 { kind := k, mask := 1, arrived := 1, arrivedEm := 1, claim := 1 }
/-- A counter whose oldest operation is done, the strand waiting for it. -/
def rigCt (n : Nat) : State :=
  { rig (fun g => { g.setStrand 0 { g.strand 0 with state := .waiting, wait := { kind := .wait, word := 0x0A000000 } } with
      ld := 1, ms := 1, outst := [{ id := 1, ctr := .ld, done := true }, { id := 2, ctr := .ms, done := true }] }) with arg := { code := n } }

theorem witness_ClaimsAndCounters :
    (∀ k ∈ [TokenKind.reconv, TokenKind.deferred], ((rigCl k).slot 0 0).state = .active ∧ ((rigCl k).group 0 0).firstClaim = some 15 ∧
      ((rigCl k).group 0 0).freeStrand = some 1) ∧
    ((rigCt 0).group 0 0).outst.find? (fun o => o.ctr == .ld) = some { id := 1, ctr := .ld, done := true } ∧
    ((rigCt 4).group 0 0).outst.find? (fun o => o.ctr == .ms) = some { id := 2, ctr := .ms, done := true } := by
  decide +kernel

/-- A record whose future is at address 128, with a class in its first word. -/
def rec0 (w : DWord) : Rec := { id := 1, addr := 0, words := [w, 128] ++ List.replicate 14 0, ctx := 0, ktag := 0, det := false }
/-- On the deque; chosen for slots 1 or 4 to 7; to run in place. -/
def rigSb : State := rig0.setCore 0 { rig0.core 0 with deque := [rec0 0] }
def rigTe (r : Rec) (ks : List Nat) : State :=
  { rig0.setCore 0 { rig0.core 0 with binding := [.record { r with state := .leasing } ks] } with arg := { slot := ks.headD 0 } }
def rigEx : State :=
  let s := rig fun g => g.setStrand 0 { g.strand 0 with state := .waiting, wait := { kind := .exec, head := 1, ring := 1048576 } }
  s.setCore 0 { s.core 0 with binding := [.record { rec0 0 with state := .leasing } []] }

theorem witness_BindAndEnter :
    (((rigSb.reachLogs 0).candidates 0).findSome? (fun r => ((rigSb.reachLogs 0).fits 0 r).map fun g => (r, g))).isSome = true ∧
    (((rigTe (rec0 0) [1]).core 0).bindingAt 1 = some ({ rec0 0 with state := .leasing }, [1]) ∧
      ((rigTe (rec0 (2 ^ 50)) [4, 5, 6, 7]).core 0).bindingAt 4 = some ({ rec0 (2 ^ 50) with state := .leasing }, [4, 5, 6, 7]) ∧
      (rec0 0).toStage = [] ∧ (rec0 0).leaseHeld = true ∧ [4, 5, 6, 7].Nodup ∧ ((rigTe (rec0 0) [1]).regrant 0 [1]).isSome = true ∧
      ((rigTe (rec0 (2 ^ 50)) [4, 5, 6, 7]).regrant 0 [4, 5, 6, 7]).isSome = true) ∧
    (rigEx.core 0).bindingAt 0 = none ∧ rigEx.execRec 0 0 = some { rec0 0 with state := .leasing } ∧ (rigEx.slot 0 0).state = .active ∧ (rigEx.slot 0 0).preempt = none ∧
    (rigEx.group 0 0).drained = true ∧ (rigEx.reach 0 1048576 (rigEx.group 0 0).saveSize true).1 = .present := by
  decide +kernel

/-- Tile granules 4, 12, 20 and 28 in use, and a record that asks for eight in a row. -/
def rigCp : State :=
  let s := rig0.setCore 0 { rig0.core 0 with
    deque := [rec0 (4 * 2 ^ 42)], blocks := [4, 12, 20, 28].map fun b => { cls := 2, base := b, size := 1, slot := 0 } }
  { s with arg := { code := 2 } }
def move0 : Move := { cls := 2, slot := 0, src := 4, dst := 0 }
/-- Its group at a hint word of a sequence. -/
def rigCpH : State := rigCp.setGroup 0 0 ((rigCp.group 0 0).setStrand 0 { (rigCp.group 0 0).strand 0 with hinted := 1 })
/-- The move made; the block on its way. -/
def rigMv (b : BlockState) : State :=
  let s := (rigCp.setSlot 0 0 { rigCp.slot 0 0 with state := .frozen, cause := .compaction })
  s.setCore 0 { s.core 0 with move := some move0, blocks := [{ cls := 2, base := 4, size := 1, slot := 0, state := b }] }

theorem witness_Compaction :
    (∀ s ∈ [rigCp, rigCpH], (s.core 0).move = none ∧ s.wantsRoom 0 2 = true ∧ s.nextMove 0 2 = some move0 ∧ (s.slot 0 0).state = .active) ∧
    ((rigCp.group 0 0).atBoundary = true ∧ (rigCpH.group 0 0).atBoundary = false) ∧
    (((rigMv .bound).core 0).move = some move0 ∧ ((rigMv .bound).slot 0 0).state = .frozen ∧ ((rigMv .bound).slot 0 0).cause = .compaction ∧
      ((rigMv .bound).group 0 0).ld = 0 ∧ ((rigMv .bound).group 0 0).tl = 0 ∧ ((rigMv .bound).core 0).midSegment = none) ∧
    (((rigMv .moving).core 0).move = some move0 ∧ ((rigMv .moving).slot 0 0).state = .frozen ∧ ((rigMv .moving).slot 0 0).cause = .compaction ∧
      ((rigMv .moving).core 0).blocks.find? (fun b => move0.hits b && b.state == .moving) = some { cls := 2, base := 4, size := 1, slot := 0, state := .moving } ∧
      move0.slot < 32 ∧ ((rigMv .moving).slot 0 0).preempt = none ∧ ((rigMv .moving).group 0 0).ending = none) := by
  decide +kernel

/-- Every slot in use, the group of slot 0 parked, a record waiting. -/
def rigPk : State :=
  let s := ((rig fun g => g.setStrand 0 { g.strand 0 with state := .waiting, wait := { kind := .park } }).setKernel (kernel0 []))
  let s := s.setCore 0 { s.core 0 with deque := [rec0 0] }
  (List.range 31).foldl (fun s k => s.setSlot 0 (k + 1) { state := .draining }) s
/-- Pre-emption asked for inside a run and at its point; asked for 2,000 core cycles ago. -/
def rigPr (r : Option Run) : State := (rig fun g => g.setStrand 0 { g.strand 0 with run := r }).setKernel (kernel0 [])
def rigPt : State :=
  let s := rigPr none
  { s.setSlot 0 0 { s.slot 0 0 with preempt := some 0 } with time := 4000 }
def run0 : Run := { left := 1, gap := 0, give := false, opened := 0 }

theorem witness_ParkAndPreempt :
    (rigPk.slotWanted 0 = true ∧ ((List.range 32).filter fun k =>
      (rigPk.slot 0 k).state == .active && rigPk.eligible 0 k && (rigPk.takeBlocks 0 (taskSlots (rigPk.group 0 k) k)).isSome) = [0]) ∧
    (∀ s ∈ [rigPr none, rigPr (some run0)], taskSlots (s.group 0 0) 0 = [0] ∧ (s.slot 0 0).state = .active ∧ (s.slot 0 0).preempt = none ∧
      (s.takeBlocks 0 [0]).isSome = true ∧ (s.group 0 0).ending = none ∧
      ((s.setSlot 0 0 { s.slot 0 0 with preempt := some s.time }).takeBlocks 0 [0]).isSome = true) ∧
    ((rigPr (some run0)).group 0 0).atPoint = false ∧ (((rigPr none).group 0 0).atPoint = true ∧ ((rigPr none).group 0 0).entering = false) ∧
    (taskSlots (rigPt.group 0 0) 0 = [0] ∧ (rigPt.slot 0 0).preempt = some 0 ∧ 4000 ≤ rigPt.coreSince 0 0 ∧ (rigPt.slot 0 0).state = .active ∧
      (rigPt.group 0 0).atBoundary = true ∧ (rigPt.group 0 0).entering = false ∧ (rigPt.group 0 0).ending = none ∧ (rigPt.takeBlocks 0 [0]).isSome = true) := by
  decide +kernel

/-- SAVING with its place taken; a saved group that can go on; a block being read back, whole and with a state byte of 4. -/
def rigSv : State := rig0.setSlot 0 0 { rig0.slot 0 0 with state := .saving, saveAt := some 1048576 }
def saved0 : Saved := { group := (rig0.group 0 0), addr := 1048576, size := 4096, lpBase := 2 ^ 16, preempted := true }
def rigSd : State := rig0.setCore 0 { rig0.core 0 with saved := [saved0] }
def rigRs (v : Nat) : State :=
  let s := (rig0.setSlot 0 0 { rig0.slot 0 0 with state := .restoring }).writeIA 0 (1048576 + 0x119) 1 v
  s.setCore 0 { s.core 0 with binding := [.saved (rig0.group 0 0) 1048576 512 0] }

/-- Whether the block of a group that is being restored, its page present, is bad. -/
def restores (s : State) : Option Bool :=
  match s.regrant 0 [0] with
  | some w =>
    let u := w.reachSaved 0 [0]
    if u.1 = true ∧ (u.2.core 0).restoring 0 = some (rig0.group 0 0, 1048576, 512) then some (blockBad (u.2.readWords 0 1048576 64).1) else none
  | none => none

theorem witness_SaveAndRestore :
    (taskSlots (rigSv.group 0 0) 0 = [0] ∧ (rigSv.slot 0 0).state = .saving ∧ rigSv.slotQuiet 0 0 = true ∧
      (rigSv.group 0 0).servable = false ∧ (rigSv.reachBlocks 0 [0]).1 = .present) ∧
    ((rigSd.restorable 0)[0]? = some saved0 ∧
      (rigSd.chooseSlots 0 false (fun k => classWants k saved0.group.vc saved0.group.tc saved0.group.ac 0)).isSome = true) ∧
    (∀ v ∈ [0, 4], ((rigRs v).slot 0 0).state = .restoring ∧ taskSlots ((rigRs v).group 0 0) 0 = [0] ∧ restores (rigRs v) = some (decide (v = 4))) ∧
    (rigSv.kernel (rigSv.group 0 0).task.ktag).isNone = true := by
  decide +kernel

/-- Draining: done, to be relaunched, and a child of EXEC; a record that ends without a slot. -/
def rigEn (e : Ending) (fs : List Frame) : State :=
  let s := (rig fun g => { g with ending := some e, frames := fs, task := { g.task with record := [0, 128] } }).setKernel (kernel0 [])
  s.setSlot 0 0 { s.slot 0 0 with state := .draining }
def frame0 : Frame := { addr := 1048576, size := 4096, task := {}, dest := 62, cont := 4, fenced := none, mmaqs := 0, tokens := [], made := 0 }
def rigEr : State :=
  { rig0.setCore 0 { rig0.core 0 with ends := [{ record := rec0 0, ending := .failed 0x0601 }] } with arg := { flag := true } }

theorem witness_TasksEnd :
    (∀ s ∈ [rigEn .relaunch [], rigEn .done [], rigEn (.failed 0x0401) [frame0]], endSlots (s.group 0 0) 0 = [0] ∧
      (s.slot 0 0).state = .draining ∧ s.slotQuiet 0 0 = true) ∧
    (rigEn .relaunch []).taskEnding 0 [0] = .relaunch ∧ (rigEn .done []).taskEnding 0 [0] ≠ .relaunch ∧
    ((rigEn .relaunch []).endReady 0 0 .relaunch).1 = true ∧
    ((rigEn .done []).endReady 0 0 ((rigEn .done []).taskEnding 0 [0])).1 = true ∧
    ((rigEn (.failed 0x0401) [frame0]).taskEnding 0 [0] = .failed 0x0401 ∧ ((rigEn (.failed 0x0401) [frame0]).endReady 0 0 (.failed 0x0401)).1 = true) ∧
    (rigEn (.failed 0x0401) [frame0]).cancelling 0 = false ∧ frame0.dest < 63 ∧
    ((rigEn .relaunch [frame0]).endReady 0 0 .relaunch).1 = true ∧ (rigEn .relaunch [frame0]).taskEnding 0 [0] = .relaunch ∧
    (endSlots ((rigEn .relaunch [frame0]).group 0 0) 0 = [0] ∧ ((rigEn .relaunch [frame0]).slot 0 0).state = .draining ∧
      (rigEn .relaunch [frame0]).slotQuiet 0 0 = true ∧ (rigEn .relaunch [frame0]).cancelling 0 = false ∧
      ((rigEn .relaunch [frame0]).group 0 0).task.quad = none) ∧
    (rigEr.core 0).ends = [{ record := rec0 0, ending := .failed 0x0601 }] ∧ (rigEr.futureReady 0 0 128).1 = true := by
  decide +kernel

/-! ## Accesses at their homes -/

/-- An access of lane 0 at address 0, at its home; an operation of one access, the one that a step names. -/
def acc0 : Access := { lane := 0, size := 8, target := .global 0 0 false, place := sliceRouter 0 0, goal := sliceRouter 0 0, owners := [.strand 0], data := 5 }
def op0 (k : OpKind) (a : Access) : MemOp := { i0.op .ld k [a] with id := 1, dest := .uni 62 }
def withOp (s : State) (o : MemOp) : State := { s with ops := [o], arg := { op := 1 } }
def rigA (k : OpKind) : State := withOp rig0 (op0 k acc0)
/-- Performed: a load to a pair, a store among two. -/
def done0 : Access := { acc0 with performed := true, value := 2 ^ 40 + 1 }
def rigLd (d : Dest) : State := withOp rig0 { op0 .load done0 with dest := d }
def rigSt : State := withOp rig0 { op0 .store done0 with ctr := .st }

theorem witness_Completions :
    (∀ d ∈ [Dest.uni 63, .vec 60 2], let s := rigLd d
      s.opAt s.arg.op s.arg.acc = some ({ op0 .load done0 with dest := d }, done0) ∧ done0.performed = true ∧ done0.completed = false ∧
      s.acquireOpen { op0 .load done0 with dest := d } done0 = false) ∧
    rigSt.opAt rigSt.arg.op rigSt.arg.acc = some ({ op0 .store done0 with ctr := .st }, done0) ∧
    ({ op0 .store done0 with ctr := .st } : MemOp).accs.all (fun b => b.completed) = false ∧ [done0].length = 1 := by
  decide +kernel

/-- Whether a gate lets an access go, holds it, or finds no page. -/
def gateIs (n : Nat) (g : Gate) : Bool :=
  match g with
  | .go _ => n == 0
  | .wait => n == 1
  | .gone => n == 2
/-- What the statements ask of an access at its home. -/
def atHome (s : State) (o : MemOp) (a : Access) (write : Bool) (n : Nat) : Bool :=
  Memory.wf s.mem && s.opAt s.arg.op s.arg.acc == some (o, a) && s.mayPerform o s.arg.acc a && decide (a.size ≤ 8) &&
    gateIs n (s.gate a.target true write (some (coreDie o.core))).1
/-- The line of address 0 registered. -/
def atLine (s : State) : State := { s with lines := [{ target := .global 0 0 false, die := 0, slice := 0, ctx := 0, regions := [] }] }
/-- The state at the gate. -/
def gated (s : State) : State := (s.gate (.global 0 0 false) true true (some 0)).2

/-- The first line whose home is not on die 0. -/
def farIa : Nat := (((List.range 64).map fun k => 128 * k).find? fun ia => rig0.goalOf (.global 0 ia true) != sliceRouter 0 (homeSlice ia)).getD 0
/-- A load through a span with RME whose page has its home on another die, at the slice of its own die: without a replica there, and with one. -/
def accN : Access := { lane := 0, size := 4, target := .global 0 farIa true, place := sliceRouter 0 (homeSlice farIa), goal := sliceRouter 0 (homeSlice farIa), owners := [.strand 0] }
def rigNear : State := withOp rig0 (op0 .load accN)
def rigRep : State := { rigNear with pages := [(pageKey 0 0, { size := 2 ^ 30, state := some .replicated, replicas := [0] })] }

theorem witness_LoadsAndStoresAtHome :
    atHome (rigA .load) (op0 .load acc0) acc0 false 0 = true ∧ atHome (rigA .store) (op0 .store acc0) acc0 true 0 = true ∧
    (gated (rigA .store)).lineAt acc0.target = none ∧
    atHome (atLine (rigA .store)) (op0 .store acc0) acc0 true 0 = true ∧ ((gated (atLine (rigA .store))).lineAt acc0.target).isSome = true ∧
    (∀ k ∈ [OpKind.load, .store], (rigA k).atReplica acc0 = false) ∧ (((gated (rigA .load)).settleAt acc0.target 8).group 0 0).unseen = [] ∧
    (atHome rigNear (op0 .load accN) accN false 0 = true ∧ rigNear.atReplica accN = true ∧ rigNear.replicaHere accN (coreDie 0) = false) ∧
    (atHome rigRep (op0 .load accN) accN false 0 = true ∧ rigRep.atReplica accN = true ∧ rigRep.replicaHere accN (coreDie 0) = true) ∧
    (∀ k ∈ [OpKind.load, .store], atHome (leaf0 (rigA k) 0x40000033) (op0 k acc0) acc0 (k == .store) 1 = true ∧
      atHome (leaf0 (rigA k) 0) (op0 k acc0) acc0 (k == .store) 2 = true) := by
  decide +kernel

/-- CAS that compares equal and one that does not. -/
def accC : Access := { acc0 with cmp := 1 }
theorem witness_AtomicsAtHome :
    (∀ k ∈ [OpKind.cas, .xch, .atom 0, .atom 1, .atom 7, .amon 2, .amon 4, .amon 5],
      atHome (rigA k) (op0 k acc0) acc0 true 0 = true ∧ (rigA k).carried 1 0 = [] ∧ ((gated (rigA k)).atomLog (op0 k acc0) acc0).1 = true ∧
      ((gated (rigA k)).atomLog (op0 k acc0) acc0).2.protects acc0.target (atomPermitted k 8 0) = false) ∧
    atHome (withOp rig0 (op0 .cas accC)) (op0 .cas accC) accC true 0 = true ∧
    (atHome (atLine (rigA (.atom 0))) (op0 (.atom 0) acc0) acc0 true 0 = true ∧
      (gated (atLine (rigA (.atom 0)))).protects acc0.target (atomPermitted (.atom 0) 8 0) = false ∧
      ((gated (atLine (rigA (.atom 0)))).lineAt acc0.target).isSome = true ∧ 0 + acc0.data < 2 ^ 64) := by
  decide +kernel

/-- Two adds at one router, each with one carried; a deterministic add. -/
def accW : Access := { acc0 with size := 4, goal := sliceRouter 1 0 }
def opW (n : Nat) : MemOp := { op0 (.amon 1) accW with id := n, ctr := .st, dest := .none, accs := [accW, { accW with carrier := some (n, 0) }] }
def rigMg : State := { rig0 with ops := [opW 1, opW 2], arg := { op := 1, op2 := 2 } }
theorem witness_AddsGather :
    (rigMg.opAt 1 0 = some (opW 1, accW) ∧ rigMg.opAt 2 0 = some (opW 2, accW) ∧ (opW 1).mergeable (opW 2) = true ∧
      rigMg.sameLoc accW.target accW.target = true ∧ accW.place ≠ accW.goal ∧ accW.carrier = none ∧
      rigMg.mayLeave (opW 1) accW = true ∧ rigMg.mayLeave (opW 2) accW = true ∧ accW.performed = false ∧
      (rigMg.packetOf 1 0 ++ rigMg.packetOf 2 0).length = 4 ∧ rigMg.mayMerge (rigMg.packetOf 1 0 ++ rigMg.packetOf 2 0) = true) ∧
    atHome (rigA .det) (op0 .det acc0) acc0 true 0 = true ∧ (gated (rigA .det)).lineAt acc0.target = none ∧
    (gated (rigA .det)).sliceRoom 0 ((gated (rigA .det)).homeOf acc0.target) = true ∧
    (gated (rigA .det)).logMode ((gated (rigA .det)).group 0 0).task ≠ 2 := by
  decide +kernel

/-- A wait of the rig's strand on address 0. -/
def wait0 (st : WaitStage) : WaitReq := { id := 1, who := .strand 0 (rig0.group 0 0).uid 0, ctx := 0, target := .global 0 0 false, value := 1, stage := st }
def rigWt (k : WaitKind) (st : WaitStage) : State :=
  { rig (fun g => g.setStrand 0 { g.strand 0 with state := .waiting, wait := { kind := k, dest := 62, cont := 4 } }) with
    waits := [wait0 st], arg := { id := 1 }, time := 10 ^ 6 }
theorem witness_WaitsOnWords :
    ((rigWt .park .sent).waits.find? (fun w => w.id == 1) = some (wait0 .sent) ∧ (rigWt .park .sent).waitClear (wait0 .sent) = true ∧
      gateIs 0 ((rigWt .park .sent).gate (wait0 .sent).target true false (some (coreDie 0))).1 = true) ∧
    ((rigWt .park .refused).waits.find? (fun w => w.id == 1) = some (wait0 .refused) ∧
      (rigWt .park .refused).retryTime (wait0 .refused).who ≤ (rigWt .park .refused).coreSince 0 (wait0 .refused).since) ∧
    (∀ k ∈ [WaitKind.park, .bwait], (rigWt k (.woken 1 true)).waits.find? (fun w => w.id == 1) = some (wait0 (.woken 1 true)) ∧
      (rigWt k (.woken 1 true)).slotOfGroup 0 (rig0.group 0 0).uid = some 0 ∧ (((rigWt k (.woken 1 true)).group 0 0).strand 0).state = .waiting ∧
      (((rigWt k (.woken 1 true)).group 0 0).strand 0).wait.kind = k ∧ (rigWt k (.woken 1 true)).wakeBehind (wait0 (.woken 1 true)) = false) ∧
    ([({ agent := .copy 0, scope := 6 } : Release)].any fun r => r.includes (.group 0 ((rigWt .park (.woken 1 false)).group 0 0).uid) (wait0 .sent).scope) = true := by
  decide +kernel

/-- A strand of the leased rig that waits as given, woken on address 0. -/
def rigGo (x : Wait) : State :=
  { rig (fun g => (leased g).setStrand 0 { g.strand 0 with state := .waiting, wait := x }) with waits := [wait0 (.woken 1 false)], arg := { id := 1 }, nextId := 2 }
/-- JOIN of the future at address 0; TRAP of lane 0 with the 64 slots from address 4096, its header slot the last. -/
def joins : Wait := { kind := .join, dest := 62, cont := 4 }
def trap0 (n : Nat) : Wait := { kind := .trap, addr := 24, dest := 62, cont := 4, scope := 7, phase := n, lanes := 1, head := 63, vb := 56, ring := 4096, slots := 64 }
/-- The state in which the woken strand has acquired. -/
def goes (x : Wait) : State := (rigGo x).acquireWait 0 0 (wait0 (.woken 1 false))
/-- The state after its access to slot m, and after its write of a value there. -/
abbrev ringed (x : Wait) (s : State) (m : Nat) (wr : Bool) : State := (s.ringAt 0 0 (x.slotPtr m) 128 (!wr) wr).2
abbrev written (s : State) (ia v : Nat) : State := s.storeAt (.global 0 ia false) 128 v [{ agent := .group 0 (s.group 0 0).uid, scope := 7 }]
/-- What the header slot of the TRAP holds. -/
def header0 : Nat := 2 ^ 128 + 2 * 2 ^ 16 * 2 ^ 256
theorem written_step {c k n : Nat} {w : Wait} {m v : Nat} {s t : State} {tgt : Target} (h : m ≤ (ones w.lanes + 7) / 8)
    (hr : (s.ringAt c k (w.slotPtr m) 128 false true).1 = .ok tgt) (hv : SlotHolds ((s.ringAt c k (w.slotPtr m) 128 false true).2.group c k) c k n w m v)
    (ht : RingWritten c k n w (m + 1) ((s.ringAt c k (w.slotPtr m) 128 false true).2.storeAt tgt 128 v
      [{ agent := .group c ((s.ringAt c k (w.slotPtr m) 128 false true).2.group c k).uid, scope := 7 }]) t) : RingWritten c k n w m s t :=
  .slot m v s _ t tgt h (Prod.ext hr rfl) hv ht
theorem read_step {c k : Nat} {w : Wait} {m v : Nat} {s t : State} {tgt : Target} {l : List Nat} (h : m ≤ (ones w.lanes + 7) / 8)
    (hr : (s.ringAt c k (w.slotPtr m) 128 true false).1 = .ok tgt) (hv : ((s.ringAt c k (w.slotPtr m) 128 true false).2.readT tgt 0 128).1 = v)
    (ht : RingRead c k w (m + 1) ((s.ringAt c k (w.slotPtr m) 128 true false).2.readT tgt 0 128).2 l t) : RingRead c k w m s (v :: l) t :=
  .slot m v s (s.ringAt c k (w.slotPtr m) 128 true false).2 ((s.ringAt c k (w.slotPtr m) 128 true false).2.readT tgt 0 128).2 t tgt l h
    (by rw [← hr]) (by rw [← hv]) ht
theorem witness_RingWritten : ∃ t, RingWritten 0 0 0 (trap0 0) 0 (goes (trap0 0)) t :=
  ⟨_, written_step (v := header0) (tgt := .global 0 12160 false) (by decide) (by decide +kernel) (by unfold SlotHolds; decide +kernel)
    (written_step (v := 0) (tgt := .global 0 4096 false) (by decide) (by decide +kernel) (by unfold SlotHolds; decide +kernel) (.done 2 _ (by decide)))⟩
theorem witness_RingRead : ∃ t, RingRead 0 0 (trap0 1) 0 (goes (trap0 1)) [0, 0] t :=
  ⟨_, read_step (tgt := .global 0 12160 false) (by decide) (by decide +kernel) (by decide +kernel)
    (read_step (tgt := .global 0 4096 false) (by decide) (by decide +kernel) (by decide +kernel) (.done 2 _ (by decide)))⟩
theorem witness_JoinAndTrapGoOn :
    (∀ x ∈ [joins, trap0 0, trap0 1], (rigGo x).waits.find? (fun w => w.id == 1) = some (wait0 (.woken 1 false)) ∧
      (rigGo x).slotOfGroup 0 (rig0.group 0 0).uid = some 0 ∧ (((rigGo x).group 0 0).strand 0).state = .waiting ∧
      (((rigGo x).group 0 0).strand 0).wait = x ∧ (wait0 (.woken 1 false)).id < (rigGo x).nextId) ∧
    ((rigGo joins).wholeTarget 0 0 ((rigGo joins).group 0 0).task 8 = some (.global 0 8 false) ∧
      gateIs 0 ((goes joins).gate (.global 0 8 false) true false (some 0)).1 = true ∧
      gateIs 1 ((((leaf0 (rigGo joins) 51)).acquireWait 0 0 (wait0 (.woken 1 false))).gate (.global 0 8 false) true false (some 0)).1 = true) ∧
    ((ringed (trap0 0) (written (ringed (trap0 0) (goes (trap0 0)) 0 true) 12160 header0) 1 true).wholeTarget 0 0
      ((rigGo (trap0 0)).group 0 0).task ((trap0 0).slotPtr 0)).isSome = true ∧ (trap0 1).vb + 4 ≤ 63 := by
  decide +kernel

def fetch0 : Fetch := { slot := 0, strand := 0, pc := 0, ptr := 64 }
def rigFe : State := rig0.setCore 0 { rig0.core 0 with fetches := [fetch0] }
theorem witness_DescriptorsArrive :
    (rigFe.core 0).fetches.find? (fun f => f.slot == 0 && f.strand == 0) = some fetch0 ∧ (rigFe.slot 0 0).state = .active ∧
    ((rigFe.group 0 0).strand 0).pc = 0 ∧ rigFe.wholeTarget 0 0 (rigFe.group 0 0).task 64 = some (.global 0 64 false) ∧
    (rigFe.serve (.global 0 64 false) true false 0).1 = .done ∧
    (((rigFe.serve (.global 0 64 false) true false 0).2.settleAt (.global 0 64 false) 64).core 0).desc.length < 64 := by
  decide +kernel

/-- An access of no bytes, as the units' requests have it; with a full fault queue. -/
def accU : Access := { acc0 with size := 0 }
theorem witness_UnitRequests :
    (∀ k ∈ [OpKind.cache 0, .cache 1, .cache 2, .probe, .event, .publish],
      let s := withOp rigFq (op0 k accU)
      Memory.wf s.mem = true ∧ s.opAt 1 0 = some (op0 k accU, accU) ∧ s.mayPerform (op0 k accU) 0 accU = true ∧ accU.size ≤ 8) ∧
    (rigFq.ctx 0).recsWaiting = [] ∧ rigFq.faultFull 0 = true ∧ rigFq.held = [] ∧
    (rigFq.pending = [] ∧ (rigFq.l2.map (·.1)).Nodup ∧ ptrSpace ((op0 (.cache 0) accU).words.getD 0 0).toNat = 0) ∧
    (let s := withOp rigFr (op0 .event accU)
     (s.ctx 0).recsWaiting = [] ∧ s.faultFull 0 = false ∧ (s.reach 0 (s.faultPlace 0) 64 true).1 = .present) := by
  decide +kernel

/-! ## The engines at work -/

/-- A segment of 4 KiB and a command of one, from a group's instruction. -/
def seg0 : Segment := { dst := 8192, src := 4096, size := 256 }
def cmd0 (k : CopyKind) : CopyCmd := { id := 1, owner := .group 0 0 0 7, ctx := 0, ktag := 0, kind := k, segs := [seg0], spans := rig0.coreSpans 0 0 }
def rigCm (k : CopyKind) : State := { rig0.setCore 0 { rig0.core 0 with cmds := [cmd0 k] } with arg := { id := 1 } }
theorem witness_SegmentsLand :
    (∀ k ∈ [CopyKind.range, .slot 1], let s := rigCm k
      (s.core 0).cmds.find? (fun d => d.id == 1) = some (cmd0 k) ∧ (s.segRead 0 (cmd0 k) seg0 0 256).1 = .done ∧ s.mdldWaits 0 0 (cmd0 k) = false ∧
      (s.core 0).segTurn 1 0 = true ∧ s.arg.flag = false ∧ seg0.got < seg0.size) ∧
    (let s := rigCm .range
     let v := s.segRead 0 (cmd0 .range) seg0 0 256
     let u := v.2.2.onCmd 0 1 fun d => { d with segs := d.segs.modify 0 fun _ => { seg0 with got := 256, bytes := v.2.1 } }
     let w := u.destReady (State.cmdFind 0 0 (cmd0 .range)) true 0 (rangePieces 2 8192 256)
     w.1 = .done ∧ w.2.destRoom (State.cmdFind 0 0 (cmd0 .range)) (rangePieces 2 8192 256) = true ∧ (w.2.writeLines (State.cmdFind 0 0 (cmd0 .range)) (linePieces 4 8192 256) v.2.1).1 = false) ∧
    (let s := { rigCm .range with arg := { id := 1, size := 100 } }
     (s.segRead 0 (cmd0 .range) seg0 0 100).1 = .done ∧ (s.core 0).segTurn 1 0 = true ∧ s.arg.size ≠ 0) := by
  decide +kernel

/-- A list of 65,535 entries at address 4096, its last to come; that entry copies 256 bytes from 4096 to 8192. -/
def list0 : CopyList := { id := 1, owner := .group 0 0 0 7, ctx := 0, ktag := 0, base := 4096, count := 65535, next := 65534, scope := 5, spans := rig0.coreSpans 0 0 }
def rigLs : State :=
  let s := rigM.writeIA 0 (4096 + 32 * 65534) 20 (8192 + 2 ^ 64 * 4096 + 2 ^ 128 * 256)
  { s.setCore 0 { s.core 0 with lists := [list0] } with arg := { id := 1 } }
def entryWord : Nat × State :=
  let u := (rigLs.serve (.global 0 (4096 + 32 * 65534) false) true false 0).2
  (u.settleAt (.global 0 (4096 + 32 * 65534) false) 32).fetchT (.global 0 (4096 + 32 * 65534) false) 32
theorem witness_CopyLists :
    ((rigLs.core 0).lists.find? (fun y => y.id == 1) = some list0 ∧
      rigLs.ptrStep 0 (rigLs.listGroup 0 list0).1 (rigLs.leaseSet (rigLs.listGroup 0 list0).1.task)
        { size := 32, align := 32, rd := true, whole := true, leased := true } (4096 + 32 * 65534) = 0 ∧
      (rigLs.listGroup 0 list0).2.1 = 0 ∧ (rigLs.listGroup 0 list0).2.2 = true ∧
      rigLs.heldTarget list0.spans 0 0 (rigLs.listGroup 0 list0).1.task (4096 + 32 * 65534) = some (.global 0 (4096 + 32 * 65534) false) ∧
      (rigLs.serve (.global 0 (4096 + 32 * 65534) false) true false 0).1 = .done) ∧
    (entryCode entryWord.1 = 0 ∧ (entryWord.2.entryPtrs 0 (entryWord.2.listGroup 0 list0).1 true entryWord.1).1 = 0 ∧
      entryWord.1 / 2 ^ 128 % 2 ^ 32 ≠ 0 ∧
      (entryWord.2.piecesIn (fun (s : State) p => s.heldTarget list0.spans 0 0 (entryWord.2.listGroup 0 list0).1.task p)
        (cmdRanges .range (segments 8192 4096 256))).any (fun y => entryWord.2.pageAwaits y.1 y.2) = false) ∧
    (let s : State := { State.reset with arg := { v := 65535 } }
     s.arg.v.toNat % 2 ^ 16 ≠ 0 ∧ s.fld (.cpeStat 0) 0 0 ≠ 1 ∧ (s.setFld (.cpeStat 0) 0 0 1).fld (.cpeStat 0) 0 0 = 1 ∧
       State.reset.arg.v.toNat % 2 ^ 16 = 0) := by
  decide +kernel

/-- A descriptor of two f32 elements at address 4096. -/
def descSm : Nat := 4096 + 2 ^ 64 * 14 + 2 ^ 68 + 2 ^ 128 * 2 + 2 ^ 416
/-- A tile operation of the rig's group that started at 0 and has run its time. -/
def tileOp (k : TileKind) : TileOp := { id := 1, slot := 0, strand := 0, pc := 0, em := BitVec.allOnes 64, kind := k, started := true, spans := rig0.coreSpans 0 0 }
def ripe (o : TileOp) : State :=
  { rig0.setCore 0 { rig0.core 0 with tileOps := [o], lastTile := 2 * o.kind.cycles } with arg := { op := 1 }, time := 2 * o.kind.cycles }
/-- Metadata that names the places 0 and 1 of every four. -/
def meta01 : Bank Byte := (List.range 1024).map fun b => (b, 0x44)
theorem ripe_holds (k : TileKind) : Ripe (ripe (tileOp k)) (tileOp k) k := by
  have hc : (ripe (tileOp k)).core 0 = { rig0.core 0 with tileOps := [tileOp k], lastTile := 2 * k.cycles } := State.core_setCore_same _ _ _
  refine ⟨?_, rfl, rfl, ?_, ?_⟩
  · show List.find? _ ((ripe (tileOp k)).core 0).tileOps = _
    rw [hc]
    rfl
  · show 2 * k.cycles ≤ (ripe (tileOp k)).coreSince 0 0
    have ht : (ripe (tileOp k)).time = 2 * k.cycles := rfl
    have hs : (ripe (tileOp k)).slow = [] := rfl
    simp [State.coreSince, State.coreAt, ht, hs]
  · show (ripe (tileOp k)).engineHung 0 = false
    have ht : (ripe (tileOp k)).time = 2 * k.cycles := rfl
    have hs : (ripe (tileOp k)).slow = [] := rfl
    simp [State.engineHung, State.coreSince, State.coreAt, hc, ht, hs]
theorem unmoved_holds (k : TileKind) : Unmoved (ripe (tileOp k)) (tileOp k) := ⟨rfl, rfl, rfl, rfl⟩
theorem witness_TileRegistersWritten :
    (let s : State := { rig0.setCore 0 { rig0.core 0 with tileOps := [{ tileOp (.tzero 7) with started := false }] } with arg := { op := 1 } }
     (s.core 0).tileOps.find? (fun o => o.id == 1) = some { tileOp (.tzero 7) with started := false } ∧
       (s.core 0).startsNext { tileOp (.tzero 7) with started := false } = true) ∧
    Ripe (ripe (tileOp (.tzero 7))) (tileOp (.tzero 7)) (.tzero 7) ∧
    (∀ f ∈ [(false, false, false), (true, false, false), (false, true, false), (false, false, true)],
      let k := TileKind.tld 7 (natWords descSm 8) [0, 0, 0, 0, 0] f.1 f.2.1 f.2.2
      let s := ripe (tileOp k)
      Ripe s (tileOp k) k ∧ Unmoved s (tileOp k)) ∧
    ((ripe (tileOp (.tzero 7))).boxRead (State.opFind 0 (tileOp (.tzero 7))) 0 descSm [0, 0, 0, 0, 0] (descCount descSm) 0).1 = .done ∧
    (let k := TileKind.tst 7 (natWords descSm 8) [0, 0, 0, 0, 0] false true
     Ripe (ripe (tileOp k)) (tileOp k) k ∧ Unmoved (ripe (tileOp k)) (tileOp k)) ∧
    (let w := (ripe (tileOp (.tzero 7))).boxReady (State.opFind 0 (tileOp (.tzero 7))) 0 descSm [0, 0, 0, 0, 0] (List.range (descCount descSm))
     w.1 = .done ∧ w.2.boxRoom (State.opFind 0 (tileOp (.tzero 7))) descSm [0, 0, 0, 0, 0] (List.range (descCount descSm)) = true) ∧
    ∀ ty ∈ [6, 7, 8, 11, 12], 6 ≤ ty ∧ ty ≤ 12 ∧ Ripe (ripe (tileOp (.tcvt 7 1 ty 1 true 4 true))) (tileOp (.tcvt 7 1 ty 1 true 4 true)) (.tcvt 7 1 ty 1 true 4 true) :=
  ⟨by decide +kernel, ripe_holds _, fun _ _ => ⟨ripe_holds _, unmoved_holds _⟩, by decide +kernel, ⟨ripe_holds _, unmoved_holds _⟩, by decide +kernel,
    fun ty h => ⟨(by decide : ∀ ty ∈ [6, 7, 8, 11, 12], 6 ≤ ty) ty h, (by decide : ∀ ty ∈ [6, 7, 8, 11, 12], ty ≤ 12) ty h, ripe_holds _⟩⟩

theorem witness_AccumulatorsWritten :
    (∀ k ∈ [TileKind.mma 1 7 6 8 8 true, .mmaq 1 7 6 8 8 false 0, .mmas 1 7 4 8 8 true, .ascale 1 (Lanes.of fun _ => 0), .aexp 1 (Lanes.of fun _ => 0) 0, .azero 1],
      Ripe (ripe (tileOp k)) (tileOp k) k) ∧
    slotValid (bankNat meta01 2048) (lineCount 8) = true ∧ slotValid (bankNat (tileOp (.azero 0)).slotBytes 2048) (lineCount 8) = false :=
  ⟨fun _ _ => ripe_holds _, by decide +kernel, by decide +kernel⟩

theorem witness_EngineVectors : (62 : Nat) < 63 ∧ (63 : Nat) < 64 ∧
    ∀ k ∈ [TileKind.ard 1 63 62, .arow 1 1 62, .scout 7 6 0 62], Ripe (ripe (tileOp k)) (tileOp k) k :=
  ⟨by decide, by decide, fun _ _ => ripe_holds _⟩

/-- A watchdog of 5 core cycles, an operation started at 0; a TLD whose reads fail; a relaunched record. -/
def rigDog (t : Nat) : State :=
  { (rig0.setCore 0 { rig0.core 0 with tileOps := [tileOp (.azero 1)] }).setReg (.tleCfg 0) 5 with time := t }
def rigTf (idem : Bool) : State :=
  let s := rig fun g => { g with task := { g.task with record := [if idem then 2 ^ 51 else 0, 128] } }
  { (s.setCore 0 { s.core 0 with tileOps := [tileOp (.tld 7 (natWords descSm 8) [0, 0, 0, 0, 0] false false false)] }).setReg (.tleCfg 0) (1 <<< 32) with
    arg := { op := 1, code := 0x0802 } }
def rigRl : State := State.reset.setCore 0 { State.reset.core 0 with relaunch := [rec0 0] }
theorem witness_EngineRecovery :
    ((rigDog 10).fld (.tleCfg 0) 31 0 = 5 ∧ 2 * 5 ≤ (rigDog 10).coreSince 0 ((rigDog 10).core 0).lastTile ∧ ¬2 * 5 ≤ (rigDog 9).coreSince 0 ((rigDog 9).core 0).lastTile ∧
      ∃ o ∈ ((rigDog 10).core 0).tileOps, o.started = true) ∧
    (∀ b ∈ [true, false], ((rigTf b).fetchCode 0 1).isSome = true ∧ ((rigTf b).group 0 0).faulted = false ∧ ((rigTf b).group 0 0).frames = [] ∧
      ((rigTf b).group 0 0).task.quad = none ∧ ((rigTf b).group 0 0).ending = none ∧ (rigTf b).relaunches 0 ((rigTf b).group 0 0) = b ∧
      (rigTf b).policyOf ((rigTf b).group 0 0) = 0 ∧ ((rigTf b).core 0).binding = [] ∧
      ((leaf0 (rigTf b) 0).fetchCode 0 1).map (fun x => x.2.2.2.1.code) = some 0x0405 ∧ (leaf0 (rigTf b) 0).relaunches 0 ((leaf0 (rigTf b) 0).group 0 0) = b) ∧
    (rigRl.core 0).relaunch = [rec0 0] ∧ (rigRl.core 0).deque.length < 512 := by
  refine ⟨⟨by decide +kernel, by decide +kernel, by decide +kernel, tileOp (.azero 1), ?_, rfl⟩, by decide +kernel, by decide +kernel, by decide +kernel⟩
  decide +kernel

/-! ## The task unit at work -/


/-- A record with one operand, at descriptor 0, its own region's first bytes its place, a megabyte at address 0 leased. -/
def recOp : Rec := { rec0 0 with words := [0, 128, 0, 1, 0, 0, 0, 5] ++ List.replicate 8 0 }
def dequeOf (s : State) (r : Rec) : State := { s.setCore 0 { s.core 0 with deque := [r] } with arg := { id := 1 } }
def rigS1 : State := dequeOf (rig0.setReg (.stgDepth 0) 2) recOp
def stagingRec : Rec := { recOp with state := .staging, toStage := [0], leased := true }
/-- The descriptor valid; and all zeros. -/
def rigS2 : State := dequeOf (rig0.writeIA 0 0 56 descSm) stagingRec
def rigS3 : State := dequeOf rig0 { recOp with state := .staging, leased := true }
def rigS5 : State := dequeOf rig0 stagingRec
def rootRec : Rec := { rec0 0 with root := true }
def rigS4 : State :=
  { (rig0.setCore 0 { rig0.core 0 with binding := [.record rootRec []] }).setKernel { kernel0 [] with state := .launching } with arg := { id := 1 } }
theorem witness_Staging :
    ((rigS1.core 0).recOf 1 = some recOp ∧ (rigS1.stageWindow 0).contains 1 = true ∧ recOp.state = .pushed ∧ recOperands recOp.words = [0]) ∧
    ((rigS2.core 0).recOf 1 = some stagingRec ∧ rigS2.stageTurn 0 stagingRec = true ∧ (rigS2.stageLook 0 stagingRec 0).1 = .ready descSm ∧
      ((rigS2.stageLook 0 stagingRec 0).2.piecesIn (fun (s : State) p => s.wholeTarget 0 64 (stagingRec.task none) p)
        (cmdRanges (.box (natWords descSm 8) (List.replicate 5 0)) (segments (stageDst 1) 0 (descBytes descSm)))).any
        (fun y => (rigS2.stageLook 0 stagingRec 0).2.pageAwaits y.1 y.2) = false) ∧
    ((rigS3.core 0).recOf 1 = some { recOp with state := .staging, leased := true } ∧
      ({ recOp with state := .staging, leased := true } : Rec).leaseHeld = true ∧ (rigS3.core 0).bindSlots 1 = none) ∧
    ((rigS4.core 0).recOf 1 = some rootRec ∧ rootRec.toStage = [] ∧ rootRec.leaseHeld = true ∧ (rigS4.core 0).bindSlots 1 = some [] ∧
      (rigS4.futureReady 0 0 128).1 = true ∧ (rigS4.kernel 0).map (fun k => (k.tag, k.cancelHeld)) = some (0, false)) ∧
    ((rigS5.core 0).recOf 1 = some stagingRec ∧ (rigS5.stageFault 0 stagingRec).isSome = true ∧ rigS5.recPolicy stagingRec = 0) := by
  decide +kernel

/-- A request of the rig's task; posted; over no page. -/
def reqOf (posted : Bool) (base : Nat) : LeaseReq := { request none with base := base, posted := posted, pieces := rig0.spanPieces (rig0.coreSpans 0 0) 0 40 base 65536 }
def rigQr (posted : Bool) (base : Nat) : State := { rig0 with leaseReqs := [reqOf posted base], arg := { id := 1 } }
def lease0 : Lease := { id := 1, holder := .task 0 (rig0.group 0 0).uid 0, ctx := 0, base := 0, size := 65536, pieces := (reqOf true 0).pieces, granted := 0, expiry := 0, renewed := 0 }
def rigEe (t : Nat) : State := { rig0 with leases := [lease0], arg := { id := 1 }, real := t }
/-- Its page drains, the lease's time on it known. -/
def rigDr (t : Nat) : State := { rigEe t with pages := [(pageKey 0 0, { size := 2 ^ 30, state := some .draining, lapses := [(1, 5)] })] }
theorem witness_LeasesServed :
    ((rigQr false (2 ^ 40)).leasePages 0 (reqOf false (2 ^ 40)).pieces = .gone ∧ (rigQr false 0).leasePages 0 (reqOf false 0).pieces ≠ .gone) ∧
    ((rigQr true 0).leaseReqs.find? (fun q => q.id == 1) = some (reqOf true 0) ∧ (rigQr true 0).leasePages 0 (reqOf true 0).pieces = .resident ∧
      (rigQr true 0).leaseHolderHere (reqOf true 0).holder = true ∧ (rigQr true 0).leaseShort (reqOf true 0) = none ∧ ∀ d ∈ (rigQr true 0).leaseDies 0 (reqOf true 0).pieces, (rigQr true 0).leaseRoom 0 d = true) ∧
    (lease0.renewed + (rigEe (10 ^ 18)).leasePeriod 0 / 2 ≤ (rigEe (10 ^ 18)).real ∧ (rigEe (10 ^ 18)).leaseDrains lease0 = false ∧
      lease0 ∈ (rigEe (10 ^ 18)).leases) ∧
    (lease0.renewed + (rigDr (10 ^ 18)).leasePeriod 0 / 2 ≤ (rigDr (10 ^ 18)).real ∧ (rigDr (10 ^ 18)).leaseDrains lease0 = true ∧
      lease0 ∈ (rigDr (10 ^ 18)).leases) := by
  decide +kernel

/-- Core 1 idle beside core 0, whose deque holds a record of a kernel of every cluster; a request, and its reply. -/
def rigSt1 : State :=
  let s := rigSb.setKernel { kernel0 [] with eff := { (kernel0 []).eff with clusters := BitVec.allOnes 96 } }
  { (s.setReg (.ctxCluLo 0) (BitVec.allOnes 64)).setCore 1 { s.core 1 with steal := { victim := some 0, stepNo := 2, asked := [0] } } with
    arg := { core := 1 }, time := 10 ^ 7 }
def rigSt2 (r : Option Rec) : State := { rig0.setCore 1 { rig0.core 1 with steal := { victim := some 0, answered := true, reply := r } } with arg := { core := 1 } }
def rigSt3 (x : Steal) : State := { rig0.setCore 1 { rig0.core 1 with steal := x } with arg := { core := 1 }, time := 7 }
/-- Core 0's record is replayed, and its log at address 8192 names core 1 as its thief. -/
def rigLv : State :=
  let s := rigSt1.writeIA 0 8192 32 (2 ^ 64 * (2 ^ 32 - 1) + 2 ^ 96 + 2 ^ 128)
  let s := (((s.setReg (.ordBase 0) 8192).setReg (.ordSize 0) 1).setCore 0 { s.core 0 with deque := [{ rec0 0 with det := true }] }).setCore 1 { s.core 1 with steal := {} }
  { s with ordMode := [(0, 2)] }
/-- The state in which every log has been reached. -/
def logsReached (s : State) : State := s.cores.foldl (fun s (v, _) => s.reachLogs v) s
theorem witness_Steals :
    (rec0 0 ∈ (rigSt1.core 0).deque ∧ 2 * rigSt1.fld (.tskCfg 0) 15 0 ≤ rigSt1.coreSince 0 (rec0 0).pushedAt ∧
      2 * (16 * rigSt1.fld (.tskCfg 0) 47 32) ≤ rigSt1.coreSince 0 (rec0 0).pushedAt) ∧
    ((logsReached rig0).idle 1 = true ∧ ((logsReached rig0).core 1).steal = {} ∧ (logsReached rig0).loggedVictim 1 = none ∧ (1 : Nat) < 1536) ∧
    (let u := logsReached (rigSt3 { stepNo := 5 })
     u.idle 1 = true ∧ (u.core 1).steal.victim = none ∧ (u.core 1).steal.backoff = none ∧ u.loggedVictim 1 = none ∧
       (u.nextVictim 1 8 (u.core 1).steal (u.core 1).lfsr).1 = none) ∧
    (let u := logsReached rigLv
     u.idle 1 = true ∧ (u.core 1).steal.victim = none ∧ (u.core 1).steal.backoff = none ∧ u.loggedVictim 1 = some 0 ∧ 0 ∉ (u.core 1).steal.asked) ∧
    ((rigSt3 { backoff := some 7 }).core 1).steal.backoff = some 7 ∧
    ((rigSt1.core 1).steal.victim = some 0 ∧ (rigSt1.core 1).steal.answered = false ∧ rigSt1.stealGrant 0 1 = some (rec0 0) ∧ rig0.stealGrant 0 1 = none) ∧
    (((rigSt2 (some (rec0 0))).core 1).steal.reply = some (rec0 0) ∧ ((rigSt2 (some (rec0 0))).core 1).deque.length < 512) ∧
    ((rigSt2 none).core 1).steal.answered = true ∧ ((rigSt2 none).core 1).steal.reply = none := by
  decide +kernel

/-- A spawned record on its way to core 1; arrived; refused. -/
def msg0 : SpawnMsg :=
  { id := 1, core := 0, slot := 0, strand := 0, uid := (rig0.group 0 0).uid, pc := 0, op := 9, ctx := 0, ktag := 0, target := 1, rank := none, blk := true, dest := 62
    future := 128, record := rec0 0 }
def rigSp (m : SpawnMsg) (n : Nat) : State :=
  { (rigSt1.setCore 1 { inbound := List.replicate n (rec0 0), grants := [1] }) with spawns := [m], arg := { id := 1, core := 1 } }
theorem witness_RemoteRecords :
    ((rigSp msg0 63).spawns.find? (fun m => m.id == 1) = some msg0 ∧ (rigSp msg0 63).kernelLive 0 = true ∧
      ((rigSp msg0 63).kernelClusters 0).getLsbD (coreBit 1) = true ∧ ((rigSp msg0 63).core 1).inbound.length < 64 ∧
      ((rigSp msg0 63).futureReady 1 0 128).1 = true ∧ 64 ≤ ((rigSp msg0 64).core 1).inbound.length) ∧
    (∀ m ∈ [{ msg0 with arrived := true, accepted := true }, { msg0 with arrived := true, blk := false }],
      (rigSp m 0).spawns.find? (fun m => m.id == 1) = some m) ∧
    (((rigSp msg0 63).core 1).grants = 1 :: [] ∧
      ((rigSp msg0 63).core 1).inbound.length + ((rigSp msg0 63).spawns.filter fun m => m.target == 1 && m.rank.isNone && m.granted).length < 64 ∧ Bank.look (rigSp msg0 63).peerRefused 1 = none) ∧
    (let m := { msg0 with refused := true, rank := some 1 }
     (rigSp m 0).spawns.find? (fun m => m.id == 1) = some m ∧ ((rigSp m 0).group 0 0).ending = none ∧ m.rank ≠ none ∧ m.arrived = false ∧
       2 * max 1 ((rigSp m 0).fld (.tskCfg 0) 31 16) ≤ (rigSp m 0).coreSince 0 m.since) := by
  decide +kernel


/-! ## Queues -/

/-- The last queue, of context 0 with base 0 and 64 slots, enabled, in a state. -/
def rigQu (st : Nat) : State :=
  { ((rig0.setReg (.queCtl 4095) (2048 + 6)).setReg (.queStat 4095) (BitVec.ofNat 64 (2 ^ 18 + st * 2 ^ 16))) with arg := { id := 4095 } }
/-- ACTIVE at a packet. -/
def rigPkt (v : Nat) : State := (rigQu 2).setQueue 4095 { current := some (natWords v 16) }
/-- Whether the last queue offers a packet of a type. -/
def offers (s : State) (type v : Nat) : Bool :=
  s.queState 4095 == 2 && (match (s.queue 4095).current with
    | some ws => wordsNat ws == v
    | none => false) && bits v 3 0 == type && s.mayStart 4095 v && !packetBad type v

/-- A valid packet's first byte stands in slot 0. -/
def rigSlot (v : Nat) : State := ((rigQu 1).writeIA 0 0 1 v).setReg .queCfg 1
theorem witness_QueueRegisters :
    (let s : State := { State.reset with arg := { id := 4095, v := 2048 + 16 } }
     s.fld (.queCtl 4095) 11 11 = 0 ∧ s.arg.v.getLsbD 11 = true ∧ bits s.arg.v.toNat 4 0 = 16) ∧
    ((rigQu 2).fld (.queCtl 4095) 11 11 = 1 ∧ (rigQu 2).arg.v.getLsbD 11 = false) ∧
    ((rigQu 3).queState 4095 = 3 ∧ (6144 : DWord).getLsbD 11 = true ∧ (6144 : DWord).getLsbD 12 = true) ∧
    (let s : State := { (rigSlot 0x8A).setQueue 4095 { (rigSlot 0x8A).queue 4095 with poll := 1 } with time := 1 }
     s.queState 4095 = 1 ∧ (s.queue 4095).reading = false ∧ (s.queue 4095).poll ≠ 0 ∧ (s.queue 4095).pollFrom + (s.queue 4095).poll ≤ s.time) ∧
    (∀ v ∈ [0x8A, 0x0A], let r := (rigSlot v).startPoll 4095
      (rigSlot v).queState 4095 = 1 ∧ (rigSlot v).ctxOpen ((rigSlot v).queCtx 4095) = true ∧ ((rigSlot v).queue 4095).current = none ∧
        r.frontFault 0 (r.slotPtr 4095) 128 true false = 0 ∧ (r.frontRead 0 (r.slotPtr 4095) 128).1 = .done ∧
        (bit (r.frontRead 0 (r.slotPtr 4095) 128).2.1 7 == (((r.frontRead 0 (r.slotPtr 4095) 128).2.2.slotNow 4095).2 == 1)) = (v == 0x8A)) ∧
    (255 : Nat) < 256 := by
  decide +kernel

/-- LAUNCH of a record at address 128, and with a misaligned record; GRAPH of one node at address 4096. -/
def vLaunch : Nat := 0x81 + 2 ^ 512 * 128
def vGraph : Nat := 0x82 + 2 ^ 64 * 4096 + 2 ^ 128
def l0 (v : Nat) : Launch := launchOf (.packet 4095 0) 0 0 v
def graph0 (image : DWord) (ready : List Nat) (n : Nat) : GraphRun :=
  { id := 1, queue := 4095, pkt := 0, ctx := 0, addr := 0, nodes := [(image, [])], counters := [0], ready := ready, finished := n }
/-- A run of one node. -/
def rigGr (image : DWord) (ready : List Nat) (n : Nat) : State :=
  { (rigQu 2).writeIA 0 8192 1 1 with graphs := [graph0 image ready n] }
def found (s : State) : Option GraphRun := s.graphs.find? fun g => g.queue == 4095 && (!g.ready.isEmpty || g.running.isEmpty)
theorem witness_LaunchPackets :
    (offers (rigPkt vLaunch) 1 vLaunch = true ∧ (rigPkt vLaunch).launchCode (l0 vLaunch) = 0 ∧
      offers (rigPkt (vLaunch + 2 ^ 512)) 1 (vLaunch + 2 ^ 512) = true ∧ (rigPkt (vLaunch + 2 ^ 512)).launchCode (l0 (vLaunch + 2 ^ 512)) ≠ 0) ∧
    (let s := rigPkt vGraph
     found s = none ∧ offers s 2 vGraph = true ∧ s.frontFault 0 4096 64 true false = 0 ∧ s.spansOk (s.ctx 0).spans 0 (spanAllows true false) 40 4096 64 = true ∧
       (s.frontRead 0 4096 64).1 = .done ∧ (s.frontRead 0 4096 64).2.2.queues = s.queues ∧ (s.frontRead 0 4096 64).2.2.mgmt = s.mgmt ∧
       (graphNodes 1 (s.frontRead 0 4096 64).2.1).isSome = true) ∧
    (found (rigGr 0 [0] 0) = some (graph0 0 [0] 0) ∧ (rigGr 0 [0] 0).ctxOpen 0 = true) ∧
    (found (rigGr 8192 [0] 0) = some (graph0 8192 [0] 0) ∧ (rigGr 8192 [0] 0).frontFault 0 8192 8 true false = 0 ∧
      ((rigGr 8192 [0] 0).frontRead 0 8192 128).1 = .done ∧ ((rigGr 8192 [0] 0).frontRead 0 8192 128).2.1 = 1 ∧ packetBad 1 1 = false ∧
      ((rigGr 8192 [0] 0).frontRead 0 8192 128).2.2.launchCode (launchOf (.node 1 0) 0 8192 1) = 0) ∧
    (found (rigGr 0 [] 1) = some (graph0 0 [] 1) ∧ (graph0 0 [] 1).finished = (graph0 0 [] 1).nodes.length) ∧
    (found (rigGr 0 [] 0) = some (graph0 0 [] 0) ∧ (graph0 0 [] 0).finished ≠ (graph0 0 [] 0).nodes.length ∧ (rigGr 0 [] 0).fld (.queCtl 4095) 11 11 = 1) := by
  decide +kernel

/-- COPY of 65,535 entries on the last core; BARRIER_ADD and BARRIER_WAIT at address 0; LINK packets of link 255; PUBLISH of window 15;
MARKER at address 0 and at 4096; a packet of type 15. -/
def vCopy : Nat := 0x83 + 2 ^ 128 * 65535 + 2 ^ 144 * 1535
def vAdd : Nat := 0x84 + 2 ^ 128 * 5 + 2 ^ 192 * 7
def vWait : Nat := 0x85 + 2 ^ 128 * 5
def vLink (type k : Nat) : Nat := 0x80 + type + 2 ^ 64 * 255 + 2 ^ 96 * k
def vPub : Nat := 0x88 + 2 ^ 64 * 15
def vMark (p : Nat) : Nat := 0x89 + 2 ^ 64 * 7 + 2 ^ 128 * p
/-- A wait of the queue; link 255 between the queue and itself with a count; a finished packet. -/
def waitQ (st : WaitStage) : WaitReq := { wait0 st with who := .queue 4095 }
def rigQw (st : WaitStage) : State := { rigPkt vWait with waits := [waitQ st] }
def rigLk (type k c : Nat) : State :=
  ((rigPkt (vLink type k)).setReg (.qlinkCfg 255) (BitVec.ofNat 64 (2 ^ 31 + 4095 * 65537))).setReg (.qlinkCnt 255) (BitVec.ofNat 64 c)
def rigPu : State := (rigPkt vPub).setReg (.hwCtl 15) (2 ^ 39 + 1)
def packet0 (b : DWord) : Started := { id := 0, ctx := 0, addr := 0, barrier := b, region := 0, finished := true }
def rigPc (b : DWord) : State := (rigQu 1).setQueue 4095 { started := [packet0 b] }
theorem witness_OtherPackets :
    (let s := rigPkt vCopy
     offers s 3 vCopy = true ∧ bits vCopy 143 128 = 65535 ∧ bits vCopy 159 144 = 1535 ∧ s.frontFault 0 0 32 true false = 0 ∧
       s.fld (.cpeStat 1535) 0 0 = 0) ∧
    (let s := rigPkt vAdd
     offers s 4 vAdd = true ∧ s.frontFault 0 0 128 true true = 0 ∧ (s.frontReach 0 0 true).1 = .done ∧
       (s.frontReach 0 0 true).2.1 = some (.global 0 0 false) ∧ (s.frontReach 0 0 true).2.2.queues = s.queues ∧ (s.frontReach 0 0 true).2.2.mgmt = s.mgmt) ∧
    (offers (rigPkt vWait) 5 vWait = true ∧ ((rigPkt vWait).waits.find? fun w => w.who == .queue 4095) = none ∧
      (∀ b ∈ [true, false], offers (rigQw (.woken 5 b)) 5 vWait = true) ∧ (rigPkt vWait).frontFault 0 0 8 true false = 0 ∧
      (rigPkt vWait).ownTarget 0 0 8 = some (.global 0 0 false) ∧
      (rigQw (.woken 5 false)).waits.find? (fun w => w.who == .queue 4095) = some (waitQ (.woken 5 false)) ∧
      (rigQw (.woken 5 true)).waits.find? (fun w => w.who == .queue 4095) = some (waitQ (.woken 5 true)) ∧
      (rigQw (.woken 5 true)).wakeBehind (waitQ (.woken 5 true)) = false) ∧
    (∀ x ∈ [(6, 1, 0), (6, 2, 2 ^ 32 - 2), (7, 3, 3), (7, 3, 2)], let s := rigLk x.1 x.2.1 x.2.2
      offers s x.1 (vLink x.1 x.2.1) = true ∧ s.fld (.qlinkCfg 255) 31 31 = 1 ∧ s.fld (.qlinkCfg 255) 11 0 = 4095 ∧
        s.fld (.qlinkCfg 255) 27 16 = 4095 ∧ s.fld (.qlinkCnt 255) 31 0 = x.2.2) ∧
    (offers rigPu 8 vPub = true ∧ rigPu.fld (.hwCtl 15) 39 39 = 1 ∧ rigPu.fld (.hwCtl 15) 37 32 = rigPu.queCtx 4095 ∧ rigPu.held = [] ∧
      Memory.wf rigPu.mem = true) ∧
    (let s := rigPkt (vMark 4096)
     offers (rigPkt (vMark 0)) 9 (vMark 0) = true ∧ offers s 9 (vMark 4096) = true ∧ s.frontFault 0 4096 8 false true = 0 ∧
       (s.frontReach 0 4096 true).1 = .done ∧ (s.frontReach 0 4096 true).2.1 = some (.global 0 4096 false) ∧
       (s.frontReach 0 4096 true).2.2.lineAt (.global 0 4096 false) = none) ∧
    ((rigPkt 0x8F).queState 4095 = 2 ∧ ((rigPkt 0x8F).queue 4095).current = some (natWords 0x8F 16)) ∧
    ((rigPc 0).queue 4095).started.find? (fun y => y.id == 0 && y.finished) = some (packet0 0) ∧
    ((rigPc 4096).queue 4095).started.find? (fun y => y.id == 0 && y.finished) = some (packet0 4096) ∧
    (((rigPc 4096).frontReach 0 4096 true).1 = .done ∧ ((rigPc 4096).frontReach 0 4096 true).2.1 = some (.global 0 4096 false)) ∧
    (((leaf0 (rigPc 4096) 0).queue 4095).started.find? (fun y => y.id == 0 && y.finished) = some (packet0 4096) ∧
      (match ((leaf0 (rigPc 4096) 0).frontReach 0 4096 true).1 with | .bad _ => true | _ => false) = true) := by
  decide +kernel


/-! ## Kernels and contexts -/

/-- The rig with the top cluster, and its one region's block at frame address 2³¹: no parent, context 0, valid, with a watchdog period of
one microsecond and a policy. -/
def rigN (policy : Nat) : State :=
  let s := ((rig0.setReg (.ctxCluHi 0) (2 ^ 31)).setReg .rgnBase (2 ^ 31)).setReg .rgnCnt 1
  { s with mem := Memory.write s.mem (hbmCell (2 ^ 31)) 128 (0xFFFFFFFF + 2 ^ 39 + policy * 2 ^ 48 + 2 ^ 256) }
/-- A record at address 128 whose future is at 128; its launch waits. -/
def rigLn : State := { ((rigN 0).writeIA 0 128 128 (128 * 2 ^ 64)) with launches := [l0 vLaunch] }
def kEff (s : State) : Effective := (s.effective 0 0).getD {}
def kern (s : State) (st : KernelState) : Kernel := { tag := 0, launch := l0 vLaunch, eff := kEff s, state := st }
def rigKl (k : Kernel) : State := { (rigN 0).setKernel k with arg := { id := 0 } }
def kRoot : Kernel := { kern (rigN 0) .launching with root := natWords (128 * 2 ^ 64) 16 }
def rigWd (policy : Nat) (st : KernelState) : State :=
  { (rigN policy).setKernel (kern (rigN policy) st) with arg := { id := 0 }, real := realMicro }
theorem witness_Kernels :
    (let s : State := { rig0 with launches := [l0 vLaunch] }
     s.freeEntry = some 0 ∧ s.effective (l0 vLaunch).ctx (l0 vLaunch).region = none) ∧
    (let s := rigLn
     let k : Kernel := { tag := 0, launch := l0 vLaunch, eff := kEff s, state := .launching }
     let taken := { s with launches := [], reuse := Bank.put s.reuse 0 (Bank.lookD s.reuse 0 0 + 1) }.setKernel k
     let f := (taken.watchFrom 0).frontReach 0 128 true
     let r := (f.2.2.settleAt (.global 0 128 false) 128).readT (.global 0 128 false) 0 128
     let d := r.2.descsReady ((maskCores (kEff s).clusters).headD 0) 0 (natWords r.1 16)
     s.freeEntry = some 0 ∧ s.effective 0 0 = some (kEff s) ∧ f.1 = .done ∧ f.2.1 = some (.global 0 128 false) ∧
       d.1 = true ∧ d.2.recInvalid ((maskCores (kEff s).clusters).headD 0) 0 0 (natWords r.1 16) = false) ∧
    (let s := rigKl kRoot
     s.kernel 0 = some kRoot ∧ kRoot.root ≠ [] ∧ kRoot.tag = 0 ∧ kRoot.state = .launching ∧ s.fld .fwStat 4 2 ≠ 2 ∧ kRoot.placed = none ∧ kRoot.leasesLeft = 0 ∧
       candidatesAt (maskCores (s.kernelClusters 0)) (Bank.lookD s.regions 0 {}).cursor ≠ []) ∧
    ((rigKl (kern (rigN 0) .draining)).kernel 0 = some (kern (rigN 0) .draining) ∧ (kern (rigN 0) .draining).live = 0 ∧
      (kern (rigN 0) .draining).cancelled = false ∧ (kern (rigN 0) .draining).launch.source = .packet 4095 0) ∧
    (∀ st ∈ [KernelState.running, .launching, .draining], (rigKl (kern (rigN 0) st)).kernel 0 = some (kern (rigN 0) st) ∧
      ((rigKl (kern (rigN 0) st)).ctx 0).handlers = []) ∧
    ((∀ x ∈ (rigKl (kern (rigN 0) .running)).kernels, x.2.tag = x.1) ∧ (kern (rigN 0) .running).launch.ctx < 64 ∧
      (kern (rigN 0) .running).eff.path.contains 0 = true) ∧
    (∀ p ∈ [0, 1, 3], ∀ st ∈ [KernelState.running, .launching], let s := rigWd p st
      s.kernels.find? (fun x => x.2.launch.region == 0) = some (0, kern (rigN p) st) ∧
        (kern (rigN p) st).eff.watchdog = 1 ∧ (kern (rigN p) st).eff.policy = p ∧ s.regionFrozen 0 = false ∧
        (Bank.lookD s.regions 0 {}).restarted + realMicro * 1 ≤ s.real) := by
  decide +kernel

/-- Context 63, which is FREE, to be opened; the part is READY, or in phase 2 of a hand-over. -/
def rigCo : State :=
  { (((State.reset.setReg (.ctxIaSize 63) 1).setReg (.ctxFq 63) 4096).setReg (.ctxCluHi 63) 1) with boot := .ready, arg := { ctx := 63 } }

/-- Context 63 RELEASING its cluster; CLOSING; SCRUBBING. -/
def rigCr (x : Context) : State := { rigCo.setCtx 63 x with arg := { ctx := 63 } }
/-- A host access at port p of two to one address or context in one cycle: port 0's is still to come. -/
def rigTie (i : Instr) : State :=
  { rigCo with arg := { ctx := 63, port := 1 }, agenda := [{ delay := 0, what := .unit i { ctx := 63, port := 0 } }] }
theorem witness_First (p : Instr → StepArgs → Bool) : First rigCo p := .inl rfl
theorem witness_NotFirst : portTakes 1 true = true ∧ ¬First (rigTie .contextClose) (sameReg (rigTie .contextClose) .contextClose) :=
  ⟨rfl, fun h => h.elim (by decide) fun h => absurd (h _ (List.mem_singleton.mpr rfl) _ _ rfl rfl) (by decide +kernel)⟩
theorem witness_NotFirstRead : ¬First (rigTie .semAcquire) (sameReg (rigTie .semAcquire) .semAcquire) :=
  fun h => h.elim (by decide) fun h => absurd (h _ (List.mem_singleton.mpr rfl) _ _ rfl rfl) (by decide +kernel)
theorem witness_ComesAlone : Comes { rigTie .semRelease with arg := { (rigTie .semRelease).arg with flag := true } } .contextOpen :=
  ⟨rfl, .inr fun x hx i a e _ => by
    have hx : x = { delay := 0, what := .unit .semRelease { ctx := 63, port := 0 } } := List.mem_singleton.mp hx
    subst hx; cases e; rfl⟩
/-- Whether a port takes traffic without IDE rests on a constant that nothing evaluates (log entry 100). -/
theorem witness_PortTakes : ∀ port, portTakes port false = true ∨ portTakes port false = false :=
  fun p => by cases portTakes p false <;> simp
theorem witness_Contexts :
    2 ≤ (rigCo.setFld .fwStat 4 2 2).fld .fwStat 4 2 ∧
    ((63 : Nat) < 64 ∧ rigCo.fld .fwStat 4 2 < 2 ∧ (rigCo.ctx 63).state = .free ∧ rigCo.boot = .ready ∧ rigCo.mayOpen 63 = true ∧
      (rigCo.setReg (.ctxIaSize 63) 0).mayOpen 63 = false ∧ ((rigCo.setReg (.ctxIaSize 63) 0).ctx 63).state = .free) ∧
    ((rigKl (kern (rigN 0) .running)).ctxOpen 0 = true ∧ ∀ x ∈ (rigKl (kern (rigN 0) .running)).kernels, x.2.tag = x.1) ∧
    ((rigCr { state := .opened }).ctx 63).state = .opened ∧ ((rigCr { state := .opened }).setReg (.ctxRel 63) (2 ^ 33 + 1)).fld (.ctxRel 63) 33 32 < 3 ∧
    (let s := rigCr { state := .releasing, releasing := 2 ^ 64 }
     (s.ctx 63).state = .releasing ∧ (maskCores (s.ctx 63).releasing).length = 16 ∧
       (maskCores (s.ctx 63).releasing).all (fun c => !s.coreHolds c 63) = true) ∧
    ((rigCr { state := .closing }).ctx 63).state = .closing ∧ (rigCr { state := .closing }).ctxDrained 63 = true ∧
    ((rigCr { state := .scrubbing }).ctx 63).state = .scrubbing := by
  decide +kernel

/-- The semaphore is port 1's since cycle 0. -/
def rigSe (t : Nat) : State := { State.reset.setReg .semOwner 3 with real := t, arg := { port := 1 } }
theorem witness_HostRegisters :
    (State.reset.semHolder = none ∧ (rigTie .semAcquire).semHolder = none ∧ (rigSe 0).semHolder = some 1 ∧ (1 : Nat) ≠ 0 ∧ (0 : DWord).getLsbD 0 = false ∧
      let s := rigSe (10 ^ 7 * realMicro)
      s.fld .semOwner 0 0 = 1 ∧ s.semBeat + 10 ^ 7 * realMicro ≤ s.real) ∧
    (∀ x ∈ (rigCo.core 1535).slots, x.2.state = .free) ∧ (4096 * bits 0x3F00 7 0 + 16384 * bits 0x3F00 13 8 ≤ 2 ^ 20 ∧
      ¬4096 * bits 0x3FFF 7 0 + 16384 * bits 0x3FFF 13 8 ≤ 2 ^ 20) ∧
    ¬∀ x ∈ (rig0.core 0).slots, x.2.state = .free := by
  decide +kernel


/-! ## Pages, links and other agents -/

/-- A page command of context 0 and the state with it, and the leaf of the rig's one page. -/
def pc0 (op a b : Nat) : PageCmd := { id := 1, op := op, ctx := 0, a := BitVec.ofNat 64 a, b := BitVec.ofNat 64 b, tag := 7 }
def rigPg (op a b : Nat) : State := { rig0 with pageCmds := [pc0 op a b], arg := { id := 1 } }
def leafR : Leaf := ((rig0.walk 0 0).1).getD { level := 0, base := 0, size := 0, entry := 0, entryAddr := 0 }
/-- The premises of a command. -/
def commanded (s : State) (op : Nat) (q : PageCmd) : Bool :=
  s.pageCmds.find? (fun q => q.id == s.arg.id && q.op == op) == some q && s.ctxOpen q.ctx && !q.started &&
    (s.pageCmds.takeWhile fun x => x.id != s.arg.id).all fun x => x.started
/-- What command 1 finds: the page's address aligned, its new frame, its state, a barrier line, a reference. -/
def finds (s : State) (q : PageCmd) (ok mov line ref : Bool) : Bool :=
  let w := (s.startCmd 1).walk q.ctx q.a.toNat
  commanded s 1 q && w.1 == some leafR && (w.2.page 0 leafR).cmd == none && (w.2.page 0 leafR).state != some .migrating &&
    (q.a.toNat % leafR.size == 0) == ok && (!ok || q.frameOk leafR) && w.2.movable 0 leafR == mov && w.2.holdsLine 0 leafR == line &&
    w.2.referenced 0 leafR == ref
def inState (s : State) (st : PageState) : State := s.setPage 0 leafR { size := 2 ^ 30, state := some st, cmd := some 1 }
theorem witness_PageCommands :
    (finds (rigPg 1 0 (2 ^ 31)) (pc0 1 0 (2 ^ 31)) true true false false = true ∧
      finds (rigPg 1 65536 (2 ^ 31)) (pc0 1 65536 (2 ^ 31)) false true false false = true ∧
      finds ((rigPg 1 0 (2 ^ 31)).setPage 0 leafR { size := 2 ^ 30, state := some .draining }) (pc0 1 0 (2 ^ 31)) true false false false = true ∧
      finds { rigPg 1 0 (2 ^ 31) with lines := [bar0] } (pc0 1 0 (2 ^ 31)) true true true false = true ∧
      finds { rigPg 1 0 (2 ^ 31) with cores := (rigCm .range).cores } (pc0 1 0 (2 ^ 31)) true true false true = true) ∧
    (let s := { rigPg 2 0 (2 ^ 31) with pageUse := [(0, pageKey 0 0)] }
     commanded s 2 (pc0 2 0 (2 ^ 31)) = true ∧ bits (2 ^ 31) 15 0 = 0 ∧ (s.startCmd 1).victim 0 0 = some leafR ∧
       (pc0 2 0 (2 ^ 31)).frameOk leafR = true ∧ ((rigPg 2 0 0).startCmd 1).victim 0 0 = none) ∧
    (commanded (rigPg 3 0 (2 ^ 30)) 3 (pc0 3 0 (2 ^ 30)) = true ∧ ((rigPg 3 0 (2 ^ 30)).startCmd 1).cmdLeaves (pc0 3 0 (2 ^ 30)) = [leafR] ∧
      leafR.base = 0 ∧ leafR.size = 2 ^ 30 ∧ ((rigPg 3 (2 ^ 30) 65536).startCmd 1).cmdLeaves (pc0 3 (2 ^ 30) 65536) = []) ∧
    (commanded (rigPg 4 0 4096) 4 (pc0 4 0 4096) = true ∧ ((rigPg 4 0 4096).ctx 0).recsWaiting = [] ∧ ((rigPg 4 0 4096).ctx 0).logWaiting = [] ∧
      ((rigPg 4 0 4096).ctx 0).handlers = []) ∧
    (commanded (rigPg 5 0 0) 5 (pc0 5 0 0) = true ∧ (rigPg 5 0 0).ringHeld = [] ∧ (rigPg 5 0 0).ringRoom = true ∧
      Memory.wf (rigPg 5 0 0).mem = true) ∧
    (∀ lag ∈ [[(0, [])], [(0, []), (1, [])]],
      let q : PageCmd := { pc0 5 0 0 with started := true }
      let s := { (rigPg 5 0 0).setCtx 0 { (rigPg 5 0 0).ctx 0 with lag := lag } with pageCmds := [q] }
      s.pageCmds.find? (fun q => q.id == 1 && q.op == 5) = some q ∧ q.started = true ∧ s.ctxOpen q.ctx = true ∧
        ((s.ctx 0).lag.all (fun x => x.1 == 0) = true ↔ lag.length = 1) ∧ s.ringHeld = [] ∧ s.ringRoom = true ∧ Memory.wf s.mem = true) ∧
    (∀ y ∈ [(2 ^ 40, 0, true), (2 ^ 40, 48, false), (2 ^ 40 + 1, 0, false)],
      let q := pc0 1 y.1 y.2.1
      let s := rigPg 1 y.1 y.2.1
      commanded s 1 q = true ∧ ((s.startCmd 1).walk 0 y.1).1 = none ∧
        decide (y.1 % 65536 = 0 ∧ q.frameOk { level := 0, base := y.1, size := 65536, entry := 0, entryAddr := 0 } = true) = y.2.2) := by
  decide +kernel

/-- The page in a state, as the walk finds it. -/
def pageIs (s : State) (st : PageState) : Bool :=
  Memory.wf s.mem && (s.walk 0 s.arg.ia).1 == some leafR && ((s.walk 0 s.arg.ia).2.page 0 leafR).state == some st
theorem witness_PageMoves :
    (pageIs (inState rig0 .collapsing) .collapsing = true ∧ (((inState rig0 .collapsing).walk 0 0).2.ctx 0).recsWaiting = [] ∧
      (((inState rig0 .collapsing).walk 0 0).2.ctx 0).logWaiting = [] ∧ (((inState rig0 .collapsing).walk 0 0).2.ctx 0).handlers = []) ∧
    (let s := rig0.setPage 0 leafR { size := 2 ^ 30, state := some .draining, collapse := true }
     pageIs s .draining = true ∧ ((s.walk 0 0).2.page 0 leafR).collapse = true) ∧
    (let s := inState (rigPg 1 0 (2 ^ 31)) .migrating
     pageIs s .migrating = true ∧ (s.walk 0 0).2.pageCmds.find? (fun q => ((s.walk 0 0).2.page 0 leafR).cmd == some q.id) = some (pc0 1 0 (2 ^ 31)) ∧
       Memory.wf (s.walk 0 0).2.mem = true ∧ leafR.base % leafR.size = 0 ∧ leafR.base < 2 ^ 56) ∧
    (let s := inState rig0 .draining
     pageIs s .draining = true ∧ (s.walk 0 0).2.allLapsed 0 leafR = true ∧ (s.walk 0 0).2.referenced 0 leafR = false ∧
       (s.walk 0 0).2.pageCmds = []) := by
  decide +kernel

/-- A link in a state, since cycle 0, after some resends. -/
def rigLnk (n : Nat) (st : LinkState) (resends t : Nat) : State :=
  { rig0.setLink n { state := st, resends := resends } with boot := .ready, arg := { id := n }, time := t }
/-- The last real link: it leads from cache router 191's die in the y direction. -/
def link1 : Nat := 50 + 5 * 166 + 4
theorem witness_LinkStates :
    (∀ n ∈ [47, 49, 50, link1],
      let s := rigLnk n .training 0
      (s 0).link n = { state := .training, since := 0 } ∧ (s (2 * 10 ^ 7 - 1)).time < 2 * 10 ^ 7 ∧ 2 * 10 ^ 7 ≤ (s (2 * 10 ^ 7)).time ∧
        ((rigLnk n .up 0 0).link n).state = .up ∧ (rigLnk n .up 0 0).arg.flag = false ∧
        ∀ r ∈ [1, 15, 16], ∀ b ∈ [0, 1], let s := rigLnk n .retry r 0
          let y := { s with arg := { s.arg with acc := b } }
          (y.link n).state = .retry ∧ (decide ((y.link n).bad = y.arg.acc % 4096) == (b == 0)) = true ∧
            (decide (max 1 (y.fld (.nocCfg (linkDie n)) 47 40) ≤ (y.link n).resends) == (r == 16)) = true) ∧
    (((rigLnk 47 .down 0 0).link 47).state = .down ∧ (rigLnk 47 .down 0 0).boot ≠ .reset ∧ linkReal 47 = true ∧ linkReal 49 = true ∧
      linkReal 1970 = false) ∧
    (({ rig0 with arg := { id := link1 } } : State).link link1).state = .down ∧ linkReal link1 = true ∧ Bank.look rig0.links link1 = none ∧
      ({ rig0 with boot := .ready } : State).boot ≠ .reset ∧ (Bank.look (rigLnk link1 .down 0 0).links link1).isSome = true ∧
    ((List.range 256).all fun r => !((rig0.reg (.lnkRoute r)).getLsbD 47)) = true ∧
    max 1 ((rigLnk 47 .retry 16 0).fld (.nocCfg (47 / 6)) 47 40) ≤ ((rigLnk 47 .retry 16 0).link 47).resends := by
  decide +kernel

theorem witness_Arbitration :
    ((3 : Nat) < 4 ∧ 3 ∈ [0, 3] ∧ ∀ u, u < 3 → ¬(u ∈ [0, 3] ∧ u ∈ [1, 3])) ∧
    ((∀ v, v < 4 → ¬(v ∈ [0, 3] ∧ v ∈ [1, 2])) ∧ ∃ v, v < 4 ∧ v ∈ [0, 3] ∧ (fun v => v) v ≠ 0) := by
  decide

/-- An access that has the whole package to cross, its routers' first link UP; router 383 in a state. -/
def accH : Access := { acc0 with goal := sliceRouter 7 23 }
def hop1 : Router × Nat × Nat := ({ accH.place with x := 1 }, 1, 50 + 5 * accH.place.num)
def rigHop (x : RouterRt) (code : Nat) : State :=
  { ((withOp rig0 (op0 .load accH)).setLink hop1.2.2 { state := .up }).setRouter accH.place x with arg := { op := 1, code := code } }
def rigRo (power idle t : Nat) : State :=
  { rig0.setRouter (routerOf 383) { power := power, idleFrom := idle } with arg := { id := 383 }, time := t }
/-- What ROUTER_FORWARD finds, and the VC that the arbitration picks. -/
def hops (x : RouterRt) (code : Nat) (v : Nat) : Bool :=
  let s := rigHop x code
  let y := s.router accH.place
  let key := 16 * hop1.2.1 + 4 * planeOf accH.target accH.goal
  let goes := s.mayLeave (op0 .load accH) accH && s.firstSent (op0 .load accH) accH
  let waiting := (if goes then [0] else []) ++ [1, 2, 3].filter fun v => bit s.arg.code v
  let turn := Bank.lookD y.turns (key / 4) (3, 0)
  decide (s.hopAt 1 0 = some (op0 .load accH, accH, hop1)) && y.power == 0 && (s.router hop1.1).power == 0 && (s.link hop1.2.2).state == .up &&
    waiting.all (fun v => decide (Bank.lookD y.ages (key + v) 0 < s.fld (.nocCfg accH.place.die) 7 0) || y.promoted.contains (key + v)) &&
    (nextVc (s.vcWeight accH.place.die) waiting ([0, 1, 2, 3].filter fun v => y.promoted.contains (key + v)) turn.1 turn.2).1 == v
/-- What waits at an output where no request does. -/
def waitingOf (code : Nat) : List Nat := [1, 2, 3].filter fun v => bit code v
theorem witness_Routers :
    (hops {} 0 0 = true ∧ (rigHop {} 0).mayLeave (op0 .load accH) accH = true ∧ (rigHop {} 0).firstSent (op0 .load accH) accH = true ∧
      hop1.1.num ≠ accH.place.num) ∧
    (hops { promoted := [16 + 4 * planeOf accH.target accH.goal + 3] } 8 3 = true ∧
      hops { ages := [(16 + 4 * planeOf accH.target accH.goal, 64)], promoted := [16 + 4 * planeOf accH.target accH.goal] } 8 0 = true) ∧
    (let s := (rigRo 0 0 0).setRouter (routerOf 383) { ages := [(0, 64)] }
     s.fld (.nocCfg (routerOf 383).die) 7 0 ≤ Bank.lookD (s.router (routerOf 383)).ages 0 0 ∧ (s.router (routerOf 383)).promoted.contains 0 = false) ∧
    (let s := rigRo 0 0 1024
     let x := s.router (routerOf 383)
     x.power = 0 ∧ s.fld (.nocCfg (routerOf 383).die) 39 24 ≠ 0 ∧ x.idleFrom + s.fld (.nocCfg (routerOf 383).die) 39 24 ≤ s.time ∧ x.hold ≤ s.time ∧
       s.routerWanted (routerOf 383) = false) ∧
    (let a : Access := { acc0 with place := routerOf 383 }
     let s := withOp (rigRo 1 0 0) (op0 .load a)
     (s.router (routerOf 383)).power = 1 ∧ { s with arg := { id := 383 } }.routerWanted (routerOf 383) = true) ∧
    (((rigRo 2 0 0).router (routerOf 383)).power = 2 ∧ ((rigRo 2 0 0).router (routerOf 383)).hold ≤ (rigRo 2 0 0).time) ∧
    (let s : State := { (rig0.setLink 50 { state := .up }) with arg := { op := 1, slot := 4, code := 14 } }
     let r := routerOf (s.arg.id % 384)
     s.hopAt s.arg.op s.arg.acc = none ∧ outputTo r (4 * (s.arg.slot % 20) / 16) = some (routerOf 1, 50) ∧ (s.router r).power = 0 ∧
       (s.router (routerOf 1)).power = 0 ∧ (s.link 50).state = .up ∧ Bank.lookD (s.router r).ages 17 0 < s.fld (.nocCfg r.die) 7 0) ∧
    waitingOf 14 = [1, 2, 3] ∧ waitingOf 0 = [] := by
  decide +kernel

/-- Rank 255's packet of a kind to context 0 or 63, or to rank 1 or 2; rank 1 can be reached by port 0. -/
def rigPe (code ctx : Nat) : State := { rig0 with arg := { id := 255, op := 4095, code := code, ctx := ctx, size := if code < 2 then 8 else 128, ia := 128 } }
def rigVia (rank hops : Nat) : State :=
  { (rig0.setReg (.lnkRoute 1) 1).setLink 0 { state := .up } with arg := { id := 255, op := 4095, size := 8, rank := rank, hops := hops } }
def gone (s : State) : Bool := decide (4 ≤ s.arg.hops) || (s.rankPort s.arg.rank (homeHash s.arg.ia)).isNone
/-- A packet that has not been applied, of a form. -/
def isNew (s : State) : Bool := !s.tagKnown s.arg.id s.arg.op && peerForm s.arg
theorem witness_Peers :
    ({ rigPe 0 0 with tags := [(255, [4095])] }.tagKnown 255 4095 = true ∧
      peerForm { (rigPe 0 0).arg with size := 257 } = false ∧ peerForm { (rigPe 2 0).arg with ia := 4 } = false) ∧
    (∀ y ∈ [(1, 3, false), (1, 4, true), (2, 0, true)], let s := rigVia y.1 y.2.1
      isNew s = true ∧ s.arg.rank ≠ s.fld .lnkDom 7 0 ∧ gone s = y.2.2) ∧
    (isNew (rigPe 0 63) = true ∧ (rigPe 0 63).arg.rank = (rigPe 0 63).fld .lnkDom 7 0 ∧ ((rigPe 0 63).ctx 63).state ≠ .opened) ∧
    (∀ code ∈ [0, 1, 3, 4], let s := rigPe code 0
      let g := s.rangeGate (.global 0 128 false) s.arg.size true (code != 0 && code != 2)
      isNew s = true ∧ s.arg.rank = s.fld .lnkDom 7 0 ∧ (s.ctx 0).state = .opened ∧ gateIs 0 g.1 = true ∧
        (((g.2.tagged 255 4095).settleAt (.global 0 128 false) s.arg.size).readT (.global 0 128 false) 0 s.arg.size).2.protectsRange
          (.global 0 128 false) s.arg.size = false) ∧
    gateIs 1 (((rigPe 1 0).setPage 0 leafR { size := 2 ^ 30, state := some .migrating }).rangeGate (.global 0 128 false) 8 true true).1 = true := by
  decide +kernel

/-- A host port's access through aperture 15, of 128 bytes at the end of its window. -/
def rigAp : State :=
  { rig0.setReg (.aptCtl 1 15) (1 + 2 ^ 38 + 2 ^ 39) with arg := { port := 1, addr := 15 * 2 ^ 36 + 65408, size := 128, flag := true } }
/-- Whether a port takes traffic without IDE rests on a constant that nothing evaluates (log entry 100). -/
theorem witness_Hosts :
    (∀ port, portTakes port false = true ∨ portTakes port false = false) ∧
    (portTakes 1 true = true ∧ (0 : Nat) < rigAp.arg.size ∧ rigAp.arg.size ≤ 128 ∧ Bank.look rigAp.hostQ 1 = none ∧
      rig0.aperture 1 rigAp.arg.addr 128 false = none) ∧
    (∀ w ∈ [false, true], let g := rigAp.rangeGate (.global 0 65408 false) 128 false w
      rigAp.aperture 1 rigAp.arg.addr 128 w = some (0, 65408) ∧ gateIs 0 g.1 = true ∧ g.2.protectsRange (.global 0 65408 false) 128 = false) ∧
    (let s := rigAp.setPage 0 leafR { size := 2 ^ 30, state := some .migrating }
     s.aperture 1 s.arg.addr 128 true = some (0, 65408) ∧ gateIs 1 (s.rangeGate (.global 0 65408 false) 128 false true).1 = true) ∧
    rig0.ctxOpen 0 = true := by
  refine ⟨fun p => by cases portTakes p false <;> simp, ?_⟩
  decide +kernel


/-! ## The part, the debugger and the registers -/

/-- Port 1 holds the semaphore. -/
def rigSem (s : State) (v : Nat) : State := { s.setReg .semOwner 3 with arg := { port := 1, v := BitVec.ofNat 64 v, id := 3 } }
def rigPh (n : Nat) : State := (rigSem State.reset 0).setFld .fwStat 4 2 n
/-- Whether an image verifies rests on functions that nothing evaluates (log entry 3): a state meets the hypotheses of one clause or of the
other. -/
theorem witness_PartLife :
    (∀ b, imageVerifies b = true ∨ imageVerifies b = false) ∧
    (State.reset.boot = .reset ∧ State.reset.arg.flag = false ∧ State.reset.fld .fwCtl 1 1 = 0) ∧
    (State.reset.semHolder ≠ some 0 ∧ (rigPh 0).semHolder = some 1 ∧ (rigPh 0).fld .fwStat 4 2 = 0 ∧ (rigPh 1).fld .fwStat 4 2 = 1 ∧
      { rigPh 1 with boot := .halted }.boot = .halted ∧ { rigPh 1 with boot := .ready }.running = true ∧ bistPath 0xFFFF = false ∧ bistPath 0 = true ∧ ¬8192 ≤ (imageBytes ([] ++ [0])).length) ∧
    (let ws : List DWord := List.replicate 1024 0
     8192 ≤ (imageBytes ws).length ∧ imageSize (imageBytes ws) ≤ (imageBytes ws).length) ∧
    ((rigPh 2).fld .fwStat 4 2 = 2 ∧ (∀ x ∈ (rigPh 2).permits, x.2.sent = []) ∧ (rigPh 4).fld .fwStat 4 2 = 4 ∧ (rigPh 4).ctxCmds = []) ∧
    (let s : State := { State.reset with permits := [(191, { sent := List.range 8 })], real := 1000 * realMicro, arg := { id := 191 }, boot := .ready }
     Bank.lookD State.reset.permits 191 {} = {} ∧ (Bank.lookD s.permits 191 {}).sent = List.range 8 ∧ State.reset.fld .fwStat 4 2 ≠ 2 ∧ s.boot = .ready ∧
       0 + 1000 * realMicro ≤ s.real ∧ (∀ c, c < 64 → s.ctxOpen c = false) ∧ (∀ d, d < 64 → (rig0.ctxOpen d = true ↔ d = 0))) ∧
    (State.reset.reefAt + 2 * 10 ^ 6 ≤ { State.reset with time := 2 * 10 ^ 6 }.time) ∧
    ((479 : Nat) < 480 ∧ (1535 : Nat) < 1536 ∧
      (let s : State := { State.reset with droops := [(0, 0)], time := 2000 }
       (∀ x ∈ s.droops, coreBit x.1 = 0 → x.2 + 2000 ≤ s.time) ∧ s.slow = [])) := by
  refine ⟨fun b => by cases imageVerifies b <;> simp, ?_⟩
  decide +kernel

/-- The rig's group of an attached context, its slot FROZEN by a halt or as given, and a command of port 1. -/
def rigDb (op : Nat) (f : Slot → Slot) : State :=
  rigSem ((rig0.setReg .dbgAttach 1).setSlot 0 0 (f (rig0.slot 0 0))) op
def halted (x : Slot) : Slot := { x with state := .frozen, cause := .halt }
def stepping (w i : Bool) (x : Slot) : Slot :=
  let x := halted x
  { x with group := { x.group.setStrand 0 { x.group.strand 0 with state := if w then .waiting else .ready } with
    step := some { strand := 0, waits := w, issued := i } } }
def debugs (s : State) (op : Nat) : Bool :=
  portTakes 1 true && s.dbgCmd == none && dbgOp s.arg.v == op && s.semHolder == some 1 && s.dbgMine s.arg.v && dbgCore s.arg.v == 0 && dbgSlot s.arg.v == 0
theorem witness_Debugger :
    (debugs (rigDb 1 id) 1 = true ∧ ((rigDb 1 id).slot 0 0).state = .active) ∧
    (debugs (rigDb 2 halted) 2 = true ∧ ((rigDb 2 halted).slot 0 0).debugged = true ∧ ((rigDb 2 halted).slot 0 0).preempt = none ∧
      ((rigDb 2 halted).slot 0 0).group.ending = none) ∧
    (debugs (rigDb 2 id) 2 = true ∧ ((rigDb 2 id).slot 0 0).debugged = false) ∧
    (let s := rigDb 3 halted
     debugs s 3 = true ∧ (s.slot 0 0).debugged = true ∧ (s.slot 0 0).group.step = none ∧ dbgStrand s.arg.v (s.slot 0 0).group = some 0) ∧
    (let s := rigDb 4 (stepping true false)
     debugs s 4 = true ∧ (s.slot 0 0).group.step = some { strand := 0, waits := true, issued := false } ∧
       ((s.slot 0 0).group.strand 0).state = .waiting) ∧
    (∀ op ∈ [5, 6], let s := rigDb op halted
      let r := s.reach (s.slot 0 0).group.task.ctx s.dbgBase (s.slot 0 0).group.saveSize (op == 5)
      debugs s op = true ∧ (s.slot 0 0).debugged = true ∧ s.slotQuiet 0 0 = true ∧ r.1 = .present ∧ r.2.cores = s.cores ∧ r.2.mgmt = s.mgmt) ∧
    (let s := rigDb 0 fun x => { x with halting := true }
     s.dbgEvents.length < 64 ∧ (s.slot 0 0).halting = true ∧ (s.slot 0 0).state = .active ∧ (s.slot 0 0).group.atBoundary = true) ∧
    ((rigDb 0 (stepping false true)).group 0 0).step = some { strand := 0, waits := false, issued := true } ∧
    (let e : DbgEvent := { kind := 4, core := 1535, slot := 31, strand := 7, code := 63, ctx := 63 }
     { rig0 with dbgEvents := [e] }.dbgEvents = e :: []) ∧
    (let s := rigDb 0 halted
     s.semHolder = some (s.arg.port % 2) ∧ (s.cores.all fun c => c.2.slots.all fun x => x.2.cause != .policy) = true ∧
       (s.slot 0 0).debugged = true ∧ (s.slot 0 0).halting = false ∧ (s.slot 0 0).preempt = none ∧ (s.slot 0 0).group.ending = none ∧
       (s.reg .dbgAttach &&& ~~~ s.arg.v).getLsbD (s.slot 0 0).group.task.ctx = true) := by
  decide +kernel

/-- A write of 8 bytes at a register's place. -/
def rigWr (r : Reg) : State := { rig0 with arg := { addr := r.addr, size := 8, v := 1 } }
theorem witness_ComesWrite : Comes { rigWr (.ctxCtl 63) with arg := { (rigWr (.ctxCtl 63)).arg with flag := true } } .registerWrite := ⟨rfl, .inl rfl⟩
/-- Two ports write CTX_CTL of context 63 in one cycle: port 0's write is still to come. -/
def rigWrTie : State :=
  { rigWr (.ctxCtl 63) with
    arg := { (rigWr (.ctxCtl 63)).arg with port := 1 }
    agenda := [{ delay := 0, what := .unit .registerWrite { (rigWr (.ctxCtl 63)).arg with port := 0 } }] }
theorem witness_StandsBackWrite : Reg.ofAddr rigWrTie.arg.addr = some (.ctxCtl 63) ∧ ¬First rigWrTie (sameReg rigWrTie .registerWrite) :=
  ⟨by decide +kernel, fun h => h.elim (by decide) fun h => absurd (h _ (List.mem_singleton.mpr rfl) _ _ rfl rfl) (by decide +kernel)⟩
theorem witness_RegisterAccess :
    (let s : State := { rig0 with agenda := [{ delay := 3, what := .read 1 Reg.fwCtl.addr 8 true }] }
     s.agenda ≠ [] ∧ portTakes 1 true = true ∧ Reg.ofAddr Reg.fwCtl.addr = some .fwCtl ∧ Reg.fwCtl ∉ [Reg.semOwner, .fwStat, .dbgEvt]) ∧
    ((4 : Nat) ≠ 8 ∧ Reg.ofAddr (2 ^ 40) = none) ∧
    (Reg.ofAddr (rigWr .lnkDom).arg.addr = some .lnkDom ∧ plainReg .lnkDom = true ∧ Reg.ofAddr (rigWr .dbgAttach).arg.addr = some .dbgAttach ∧
      Reg.dbgAttach.control = true ∧ (rigWr .dbgAttach).semHolder ≠ some 0) ∧
    (Reg.ofAddr (rigWr (.ctxIa 0)).arg.addr = some (.ctxIa 0) ∧ ((rigWr (.ctxIa 0)).ctx 0).state ≠ .free) := by
  decide +kernel

end Sys2Proof.Tests
end

/-! PROOFS. Every step keeps the canonical form of storage and flash. One lemma `State.Inv.f` stands for each operation `f` of the model
that a step can reach: from `h : s.Inv` it gives the form after `f`, so that a chain `h.f.g` follows the operations of the model's text
in their order. Only few operations write storage or flash (`setMem`); those whose text is nothing but an update of other fields are `same`. -/
namespace Sys2Proof.Machine

-- One proof after another: hundreds of short ones at once, each on a thread of its own, take more memory than the check gives.
set_option Elab.async false

variable {s t : State} {α β : Type}

/-! ## How the canonical form passes from state to state -/

/-- An update of other fields leaves the form as it is. -/
theorem State.Inv.same (h : s.Inv) (hm : t.mem = s.mem := by rfl) (hf : t.flash = s.flash := by rfl) : t.Inv :=
  ⟨hm ▸ h.1, hf ▸ h.2⟩

/-- An update of the storage alone: the write has to keep the form. -/
theorem State.Inv.setMem (h : s.Inv) (hm : Memory.wf t.mem = true) (hf : t.flash = s.flash := by rfl) : t.Inv :=
  ⟨hm, hf ▸ h.2⟩

theorem State.Inv.ite {c : Prop} [Decidable c] (hs : s.Inv) (ht : t.Inv) : (if c then s else t).Inv := by
  split
  · exact hs
  · exact ht

theorem State.Inv.iteSnd {c : Prop} [Decidable c] {p q : α × State} (hp : p.2.Inv) (hq : q.2.Inv) : (if c then p else q).2.Inv := by
  split
  · exact hp
  · exact hq

theorem State.Inv.foldl {l : List α} {f : State → α → State} (h : s.Inv) (hf : ∀ {s} x, s.Inv → (f s x).Inv) :
    (l.foldl f s).Inv := by
  induction l generalizing s with
  | nil => exact h
  | cons x l ih => exact ih (hf x h)

theorem State.Inv.foldlSnd {l : List β} {f : α × State → β → α × State} {p : α × State} (h : p.2.Inv)
    (hf : ∀ {p} x, p.2.Inv → (f p x).2.Inv) : (l.foldl f p).2.Inv := by
  induction l generalizing p with
  | nil => exact h
  | cons x l ih => exact ih (hf x h)

/-- The state of a pair that a match has taken apart. -/
theorem State.Inv.snd {p : α × State} {x : α} (h : p.2.Inv) (e : p = (x, t)) : t.Inv := by
  subst e; exact h

/-- The state of a triple that a match has taken apart. -/
theorem State.Inv.thd {p : α × β × State} {x : α} {y : β} (h : p.2.2.Inv) (e : p = (x, y, t)) : t.Inv := by
  subst e; exact h

/-- The next state of an outcome, if there is one, has storage and flash in canonical form. -/
def NextInv (o : Host.Outcome State Fault Refusal) : Prop :=
  match o with
  | .next t => t.Inv
  | _ => True

theorem nextInv_iff {o : Host.Outcome State Fault Refusal} : NextInv o ↔ ∀ t, o = .next t → t.Inv := by
  cases o <;> simp [NextInv]

theorem NextInv.next {o : Host.Outcome State Fault Refusal} (h : NextInv o) (e : o = .next t) : t.Inv :=
  nextInv_iff.1 h t e

theorem NextInv.ite {c : Prop} [Decidable c] {o r : Host.Outcome State Fault Refusal} (ho : NextInv o) (hr : NextInv r) :
    NextInv (if c then o else r) := by
  split
  · exact ho
  · exact hr

/-! ## Single fields that a chain updates between operations -/

theorem State.Inv.setPending (h : s.Inv) (l : List Pending) : { s with pending := l }.Inv := h.same

theorem State.Inv.setCur (h : s.Inv) (x : Cur) : { s with cur := x }.Inv := h.same

theorem State.Inv.setWaits (h : s.Inv) (l : List WaitReq) : { s with waits := l }.Inv := h.same

theorem State.Inv.setPageUse (h : s.Inv) (l : List (Nat × Nat)) : { s with pageUse := l }.Inv := h.same

theorem State.Inv.setPeerRefused (h : s.Inv) (l : Bank Nat) : { s with peerRefused := l }.Inv := h.same

theorem State.Inv.setSpawns (h : s.Inv) (l : List SpawnMsg) : { s with spawns := l }.Inv := h.same

/-! ## Operations that write neither the storage nor the flash -/

theorem State.Inv.setReg (h : s.Inv) {r v} : (s.setReg r v).Inv := h.same

theorem State.Inv.setFld (h : s.Inv) {r hi lo v} : (s.setFld r hi lo v).Inv := h.same

theorem State.Inv.bump (h : s.Inv) {r hi lo n} : (s.bump r hi lo n).Inv := h.same

theorem State.Inv.setCore (h : s.Inv) {c x} : (s.setCore c x).Inv := h.same

theorem State.Inv.setSlot (h : s.Inv) {c k x} : (s.setSlot c k x).Inv := h.same

theorem State.Inv.setGroup (h : s.Inv) {c k g} : (s.setGroup c k g).Inv := h.same

theorem State.Inv.setCtx (h : s.Inv) {n x} : (s.setCtx n x).Inv := h.same

theorem State.Inv.setPage (h : s.Inv) {n l p} : (s.setPage n l p).Inv := h.same

theorem State.Inv.pass (h : s.Inv) {n} : (s.pass n).Inv := h.same

theorem State.Inv.setKernel (h : s.Inv) {k} : (s.setKernel k).Inv := h.same

theorem State.Inv.progress (h : s.Inv) {tag} : (s.progress tag).Inv := h.same

theorem State.Inv.overtakes (h : s.Inv) {t n core uid} : (s.overtakes t n core uid).Inv := h.same

theorem State.Inv.countProtect (h : s.Inv) {t} : (s.countProtect t).Inv := h.same

theorem State.Inv.peerAnswer (h : s.Inv) : (s.peerAnswer).2.Inv := h.same

theorem State.Inv.thaw (h : s.Inv) {tag} : (s.thaw tag).Inv := h.same

theorem State.Inv.fresh (h : s.Inv) : (s.fresh).2.Inv := h.same

theorem State.Inv.freezeSlot (h : s.Inv) {c k cause} : (s.freezeSlot c k cause).Inv := h.same

theorem State.Inv.dropLease (h : s.Inv) {c id} : (s.dropLease c id).Inv := h.same

theorem State.Inv.stall (h : s.Inv) {i} : (s.stall i).Inv := h.same

theorem State.Inv.onAccess (h : s.Inv) {id n f} : (s.onAccess id n f).Inv := h.same

theorem State.Inv.redoEarly (h : s.Inv) {o a all} : (s.redoEarly o a all).Inv := h.same

theorem State.Inv.performed (h : s.Inv) {o n v early} : (s.performed o n v early).Inv := h.same

theorem State.Inv.peerReply (h : s.Inv) {rank v code} : (s.peerReply rank v code).Inv := h.same

theorem State.Inv.endWait (h : s.Inv) {c k n pc} : (s.endWait c k n pc).Inv := h.same

theorem State.Inv.putS (h : s.Inv) {c k d v} : (s.putS c k d v).Inv := h.same

theorem State.Inv.hides (h : s.Inv) {old c k op find rs} : (s.hides old c k op find rs).Inv := h.same

theorem State.Inv.takeSave (h : s.Inv) {ctx base size} : (s.takeSave ctx base size).Inv := h.same

theorem State.Inv.holdAccess (h : s.Inv) {o n} : (s.holdAccess o n).Inv := h.same

theorem State.Inv.dropWait (h : s.Inv) {id} : (s.dropWait id).Inv := h.same

theorem State.Inv.acquireWait (h : s.Inv) {c k w} : (s.acquireWait c k w).Inv := h.same

theorem State.Inv.dropFetch (h : s.Inv) {c f} : (s.dropFetch c f).Inv := h.same

theorem State.Inv.freeSlot (h : s.Inv) {c k keep} : (s.freeSlot c k keep).Inv := h.same

theorem State.Inv.leaseToTask (h : s.Inv) {c uid id no} : (s.leaseToTask c uid id no).Inv := h.same

theorem State.Inv.dropBinding (h : s.Inv) {c r} : (s.dropBinding c r).Inv := h.same

theorem State.Inv.renameGroup (h : s.Inv) {c k uid} : (s.renameGroup c k uid).Inv := h.same

theorem State.Inv.returnFrame (h : s.Inv) {c k f rest status} : (s.returnFrame c k f rest status).Inv := h.same

theorem State.Inv.cancelFrame (h : s.Inv) {c k f rest e} : (s.cancelFrame c k f rest e).Inv := h.same

theorem State.Inv.tagged (h : s.Inv) {rank tag} : (s.tagged rank tag).Inv := h.same

theorem State.Inv.setQueue (h : s.Inv) {q x} : (s.setQueue q x).Inv := h.same

theorem State.Inv.setQueState (h : s.Inv) {q st} : (s.setQueState q st).Inv := h.same

theorem State.Inv.startPoll (h : s.Inv) {q} : (s.startPoll q).Inv := h.same

theorem State.Inv.onGraph (h : s.Inv) {id f} : (s.onGraph id f).Inv := h.same

theorem State.Inv.hostReads (h : s.Inv) {port v} : (s.hostReads port v).Inv := h.same

theorem State.Inv.rekey (h : s.Inv) {src dst size} : (s.rekey src dst size).Inv := h.same

theorem State.Inv.setLink (h : s.Inv) {n x} : (s.setLink n x).Inv := h.same

theorem State.Inv.setRouter (h : s.Inv) {r x} : (s.setRouter r x).Inv := h.same

theorem State.Inv.flitMeets (h : s.Inv) {r} : (s.flitMeets r).Inv := h.same

theorem State.Inv.furtherWords (h : s.Inv) {at' v n} : (s.furtherWords at' v n).Inv := h.same

theorem State.Inv.dbgResult (h : s.Inv) {n} : (s.dbgResult n).Inv := h.same

theorem State.Inv.tileDone (h : s.Inv) {c o} : (s.tileDone c o).Inv := h.same

theorem State.Inv.tileMoved (h : s.Inv) {c o} : (s.tileMoved c o).Inv := h.same

theorem State.Inv.issueHint (h : s.Inv) {c k n i} : (s.issueHint c k n i).Inv := h.same

/-! ## Storage, page tables and places (R334, R335) -/

theorem State.Inv.pteRead (h : s.Inv) {n level ia addr} : (s.pteRead n level ia addr).2.Inv := by
  dsimp only [State.pteRead]
  split
  · exact h.same
  · exact .iteSnd h h.same

theorem State.Inv.walkFrom (h : s.Inv) {n ia fuel level table} : (s.walkFrom n ia fuel level table).2.Inv := by
  induction fuel generalizing s level table with
  | zero => exact h
  | succ fuel ih => exact .iteSnd h.pteRead (.iteSnd (ih h.pteRead) h.pteRead)

theorem State.Inv.walk (h : s.Inv) {n ia} : (s.walk n ia).2.Inv := h.walkFrom

theorem State.Inv.pteWrite (h : s.Inv) {n l e} : (s.pteWrite n l e).Inv := h.setMem (Memory.wf_write h.1 ..)

theorem State.Inv.place (h : s.Inv) {t o} : (s.place t o).2.Inv := by
  dsimp only [State.place]
  split
  · split <;> exact h.walk.snd ‹_›
  · exact h
  · exact h
  · exact h
  · exact h
  · exact h

theorem State.Inv.setByteAt (h : s.Inv) {p v} : (s.setByteAt p v).Inv := by
  dsimp only [State.setByteAt]
  split
  · exact h.setMem (Memory.wf_setByte h.1 ..)
  · exact h.same
  · split
    · exact h.same
    · exact h.same
  · exact h

theorem State.Inv.writePlace (h : s.Inv) {p n v} : (s.writePlace p n v).Inv := by
  induction n generalizing s p v with
  | zero => exact h
  | succ n ih => exact ih h.setByteAt

theorem State.Inv.noteCode (h : s.Inv) {p n} : (s.noteCode p n).Inv := by
  dsimp only [State.noteCode]
  split
  · exact (h.foldl fun _ h => h.same).ite h
  · exact h

theorem State.Inv.putPlace (h : s.Inv) {p n v} : (s.putPlace p n v).Inv := h.noteCode.writePlace

theorem State.Inv.readRun (h : s.Inv) {t fuel o n} : (s.readRun t fuel o n).2.Inv := by
  induction fuel generalizing s o n with
  | zero => exact h
  | succ fuel ih => exact .iteSnd h (ih h.place)

theorem State.Inv.readT (h : s.Inv) {t o n} : (s.readT t o n).2.Inv := by
  dsimp only [State.readT]
  exact h.readRun

theorem State.Inv.writeRun (h : s.Inv) {t fuel o n v} : (s.writeRun t fuel o n v).Inv := by
  induction fuel generalizing s o n v with
  | zero => exact h
  | succ fuel ih => exact h.ite (ih h.place.putPlace)

theorem State.Inv.writeT (h : s.Inv) {t o n v} : (s.writeT t o n v).Inv := h.writeRun

theorem State.Inv.readIA (h : s.Inv) {n ia size} : (s.readIA n ia size).2.Inv := by
  dsimp only [State.readIA]
  exact h.readT

/-! ## Kernels, spans and the pages' states (R307 to R316, R337) -/

theorem State.Inv.onKernel (h : s.Inv) {tag f} : (s.onKernel tag f).Inv := by
  dsimp only [State.onKernel]
  split
  · exact h.same
  · exact h

theorem State.Inv.liveUp (h : s.Inv) {tag} : (s.liveUp tag).Inv := h.onKernel

theorem State.Inv.liveDown (h : s.Inv) {tag} : (s.liveDown tag).Inv := h.onKernel

theorem State.Inv.liveEnd (h : s.Inv) {tag natural} : (s.liveEnd tag natural).Inv := h.liveDown.onKernel

theorem State.Inv.waiterReads (h : s.Inv) {w} : (s.waiterReads w).Inv := by
  dsimp only [State.waiterReads]
  split
  · exact h.same
  · exact h

theorem State.Inv.wakeAt (h : s.Inv) {t n} : (s.wakeAt t n).2.Inv := by
  refine .foldlSnd h fun {p} w h => .iteSnd ?_ h
  split
  exact .iteSnd (h.readT.snd ‹_›).waiterReads.same (h.readT.snd ‹_›)

theorem State.Inv.joinChain (h : s.Inv) {t n r} : (s.joinChain t n r).Inv := by
  dsimp only [State.joinChain]
  split
  · exact h
  · exact h.same

theorem State.Inv.unhide (h : s.Inv) {t n} : (s.unhide t n).Inv := h.ite h.same

theorem State.Inv.storeAt (h : s.Inv) {t n v rel} : (s.storeAt t n v rel).Inv := h.writeT.same.unhide.wakeAt

theorem State.Inv.applyPending (h : s.Inv) {p} : (s.applyPending p).Inv := by
  dsimp only [State.applyPending]
  exact h.readT.writeT.unhide.wakeAt

theorem State.Inv.settleWhere (h : s.Inv) {hit} : (s.settleWhere hit).Inv := h.same.foldl fun _ h => h.applyPending

theorem State.Inv.settleAt (h : s.Inv) {t n} : (s.settleAt t n).Inv := h.ite h.settleWhere

theorem State.Inv.writeNotice (h : s.Inv) {p n} : (s.writeNotice p n).Inv := h.setMem (Memory.wf_write h.1 ..)

theorem State.Inv.notice (h : s.Inv) {n} : (s.notice n).Inv := h.writeNotice.ite h.same

theorem State.Inv.flushNotices (h : s.Inv) {p n} : (s.flushNotices p n).Inv := by
  induction n generalizing s with
  | zero => exact h
  | succ n ih =>
    dsimp only [State.flushNotices]
    split
    · exact h
    · exact (ih h.same.writeNotice).ite h

theorem State.Inv.writeRing (h : s.Inv) {e} : (s.writeRing e).Inv :=
  .notice (.setFld (h.setMem (Memory.wf_write h.1 ..)))

theorem State.Inv.postRing (h : s.Inv) {e} : (s.postRing e).Inv := h.writeRing.ite h.same

theorem State.Inv.flushRing (h : s.Inv) {n} : (s.flushRing n).Inv := by
  induction n generalizing s with
  | zero => exact h
  | succ n ih =>
    dsimp only [State.flushRing]
    split
    · exact h
    · exact (ih h.same.writeRing).ite h

theorem State.Inv.requestPage (h : s.Inv) {n l kind} : (s.requestPage n l kind).Inv := h.same.postRing.ite h

theorem State.Inv.requestAt (h : s.Inv) {n ia kind} : (s.requestAt n ia kind).Inv := by
  dsimp only [State.requestAt]
  split
  · have h := h.walk.snd ‹_›
    exact h.requestPage.ite h
  · exact h.walk.snd ‹_›

theorem State.Inv.zeroCells (h : s.Inv) {base size} : (s.zeroCells base size).Inv := h.setMem (Memory.wf_filter h.1 _)

theorem State.Inv.claimPage (h : s.Inv) {n l} : (s.claimPage n l).Inv := by
  dsimp only [State.claimPage]
  refine h.ite (.same (s := List.foldl _ _ _) ?_)
  exact h.foldl fun _ h => h.zeroCells

theorem State.Inv.unitPage (h : s.Inv) {n l write} : (s.unitPage n l write).2.Inv := by
  dsimp only [State.unitPage]
  split
  · exact h
  · split
    · exact h.requestPage
    · split
      · exact h
      · exact h
      · exact .iteSnd h.same h
      · exact h
      · exact h.claimPage

theorem State.Inv.reachFrom (h : s.Inv) {n ia size write fuel o} : (s.reachFrom n ia size write fuel o).2.Inv := by
  induction fuel generalizing s o with
  | zero => exact h
  | succ fuel ih =>
    refine .iteSnd h (.iteSnd h ?_)
    split
    · exact h.walk.snd ‹_›
    · split
      · exact .iteSnd ((h.walk.snd ‹_›).unitPage.snd ‹_›) (ih ((h.walk.snd ‹_›).unitPage.snd ‹_›))
      · exact (h.walk.snd ‹_›).unitPage

theorem State.Inv.reach (h : s.Inv) {n ia size write} : (s.reach n ia size write).2.Inv := h.reachFrom

theorem State.Inv.unitStore (h : s.Inv) {t n v rel} : (s.unitStore t n v rel).Inv := h.same.ite h.settleAt.storeAt

/-! ## What an access finds at its home (R337 to R341) -/

theorem State.Inv.pageWrite (h : s.Inv) {n l g} : (s.pageWrite n l g).2.Inv := by
  dsimp only [State.pageWrite]
  split
  · exact h.same
  · exact h
  · exact .iteSnd h h.same
  · exact h

theorem State.Inv.pageRead (h : s.Inv) {n l rme die ia g} : (s.pageRead n l rme die ia g).2.Inv := by
  dsimp only [State.pageRead]
  split
  · exact .iteSnd h.same h
  · exact h

theorem State.Inv.pageGate (h : s.Inv) {n ia task write rme die kind} : (s.pageGate n ia task write rme die kind).2.Inv := by
  dsimp only [State.pageGate]
  split
  · exact h.walk.snd ‹_›
  · have h := h.walk.snd ‹_›
    split
    · exact h
    · split
      · exact h.requestPage
      · split
        · exact h
        · exact .iteSnd h.claimPage.same (.iteSnd h.claimPage.same.pageWrite h.claimPage.same.pageRead)

theorem State.Inv.gate (h : s.Inv) {t task write die} : (s.gate t task write die).2.Inv := by
  dsimp only [State.gate]
  split
  · exact h.pageGate
  · exact .iteSnd h h
  · exact h

theorem State.Inv.readReady (h : s.Inv) {c ctx p size} : (s.readReady c ctx p size).2.Inv := by
  dsimp only [State.readReady]
  split
  · exact h
  · split <;> exact h.gate.snd ‹_›

/-! ## Fault records, tasks, kernels and domains (R93 to R95, R310 to R328) -/

theorem State.Inv.writeRecordNow (h : s.Inv) {n r} : (s.writeRecordNow n r).Inv := by
  dsimp only [State.writeRecordNow]
  split
  · exact h.same
  · split
    · exact (h.reach.snd ‹_›).same
    · exact (h.reach.snd ‹_›).same
    · exact (h.reach.snd ‹_›).unitStore.same.setCtx.notice

theorem State.Inv.writeRecord (h : s.Inv) {n r} : (s.writeRecord n r).Inv := h.writeRecordNow.ite h.same

theorem State.Inv.flushRecords (h : s.Inv) {n} : (s.flushRecords n).Inv := h.same.foldl fun _ h => h.writeRecord

theorem State.Inv.launchOver (h : s.Inv) {l tag code} : (s.launchOver l tag code).Inv := by
  dsimp only [State.launchOver]
  split
  · refine .same (s := if _ then _ else _) ?_
    exact h.same.ite h
  · split
    · exact h.same.ite h
    · refine .same (s := if _ then _ else _) ?_
      exact h.same.ite h

theorem State.Inv.launchCancelled (h : s.Inv) {l tag} : (s.launchCancelled l tag).Inv := h.same.launchOver

theorem State.Inv.withdraw (h : s.Inv) {c k os} : (s.withdraw c k os).Inv := by
  dsimp only [State.withdraw]
  split
  · exact h
  · exact h.same

theorem State.Inv.withdrawLoose (h : s.Inv) {c k} : (s.withdrawLoose c k).Inv := h.foldl fun _ h => h.withdraw

theorem State.Inv.endTask (h : s.Inv) {c k e} : (s.endTask c k e).Inv := ((h.withdrawLoose.ite h).foldl fun _ h => h.same).thaw

theorem State.Inv.cancelPoint (h : s.Inv) {c k force} : (s.cancelPoint c k force).Inv := (h.foldl fun _ h => h.endTask.ite h).ite h

theorem State.Inv.dropHandlers (h : s.Inv) {ctx ktag} : (s.dropHandlers ctx ktag).Inv := h.ite (h.same.foldl fun _ h => h.liveEnd)

theorem State.Inv.cancelKernel (h : s.Inv) {tag} : (s.cancelKernel tag).Inv := by
  dsimp only [State.cancelKernel]
  split
  · exact h
  · split
    · exact h.same
    · exact h
    · exact h.same.dropHandlers.foldl fun _ h => h.foldl fun _ h => h.cancelPoint.ite h

theorem State.Inv.cancelWhere (h : s.Inv) {ctx p} : (s.cancelWhere ctx p).Inv :=
  (h.same.foldl fun _ h => h.launchCancelled).foldl fun _ h => h.cancelKernel

theorem State.Inv.endDomain (h : s.Inv) {tag} : (s.endDomain tag).Inv := by
  dsimp only [State.endDomain]
  split
  · exact h.cancelWhere
  · exact h

theorem State.Inv.dbgEvent (h : s.Inv) {e} : (s.dbgEvent e).Inv := h.same.ite h.same

theorem State.Inv.descsReady (h : s.Inv) {c ctx r} : (s.descsReady c ctx r).2.Inv :=
  .foldlSnd h fun _ h => .iteSnd h.readReady h

theorem State.Inv.placeHandler (h : s.Inv) {c ctx ktag w words} : (s.placeHandler c ctx ktag w words).Inv := h.fresh.same.liveUp

theorem State.Inv.handlerReady (h : s.Inv) {ctx x} : (s.handlerReady ctx x).2.Inv := by
  dsimp only [State.handlerReady]
  split
  · exact h
  · split
    · exact h.readReady.snd ‹_›
    · have h := h.readReady.snd ‹_›
      split
      · exact h
      · exact h.descsReady

theorem State.Inv.handlerRead (h : s.Inv) {ctx x} : (s.handlerRead ctx x).Inv := by
  dsimp only [State.handlerRead]
  split
  · exact h.placeHandler
  · exact h.writeRecord

theorem State.Inv.handle (h : s.Inv) {ctx x} : (s.handle ctx x).Inv := by
  dsimp only [State.handle]
  split
  · exact (h.handlerReady.snd ‹_›).handlerRead
  · exact (h.handlerReady.snd ‹_›).same.liveUp

theorem State.Inv.flushHandlers (h : s.Inv) {ctx} : (s.flushHandlers ctx).Inv := h.same.foldl fun _ h => h.handle.liveEnd

theorem State.Inv.freezePolicy (h : s.Inv) {c k strand code} : (s.freezePolicy c k strand code).Inv :=
  (h.foldl fun _ h => h.same.setSlot.ite h).dbgEvent

theorem State.Inv.applyPolicy (h : s.Inv) {c k r seq} : (s.applyPolicy c k r seq).Inv := by
  dsimp only [State.applyPolicy]
  split
  · exact h.endTask.endDomain
  · exact h.freezePolicy.ite h.endTask
  · exact h.handle.endTask
  · exact h.endTask

theorem State.Inv.takeFault (h : s.Inv) {c k strand pc f} : (s.takeFault c k strand pc f).Inv :=
  h.writeRecord.same.ite h.writeRecord.same.applyPolicy

theorem State.Inv.regionFault (h : s.Inv) {ctx r} : (s.regionFault ctx r).Inv := h.writeRecord

theorem State.Inv.breakLine (h : s.Inv) {t v b} : (s.breakLine t v b).Inv := h.ite h.same.regionFault

theorem State.Inv.addWord (h : s.Inv) {t v rel b} : (s.addWord t v rel b).2.Inv := by
  dsimp only [State.addWord]
  exact .iteSnd h.readT.writeT.joinChain.unhide.breakLine h.readT.writeT.joinChain.unhide.wakeAt

theorem State.Inv.askLease (h : s.Inv) {c r} : (s.askLease c r).Inv := by
  dsimp only [State.askLease]
  split
  · exact h
  · exact h.ite h.fresh.same

theorem State.Inv.logWrite (h : s.Inv) {ctx e} : (s.logWrite ctx e).Inv := by
  dsimp only [State.logWrite]
  split
  · exact h
  · split
    · exact h.same
    · split
      · exact (h.reach.snd ‹_›).unitStore.same
      · exact (h.reach.snd ‹_›).same
      · exact (h.reach.snd ‹_›).same

theorem State.Inv.logAppend (h : s.Inv) {ctx id idx kind val addr} : (s.logAppend ctx id idx kind val addr).Inv := h.logWrite.ite h.same

theorem State.Inv.flushLog (h : s.Inv) {ctx} : (s.flushLog ctx).Inv := h.same.foldl fun _ h => h.logWrite.ite h.same

theorem State.Inv.flushHeld (h : s.Inv) {ctx} : (s.flushHeld ctx).Inv := h.flushRecords.flushLog.flushHandlers

theorem State.Inv.logReach (h : s.Inv) {ctx} : (s.logReach ctx).2.Inv := by
  dsimp only [State.logReach]
  split
  · exact (h.reach.snd ‹_›).settleAt
  · exact h.reach

theorem State.Inv.decideFor (h : s.Inv) {c k kind val addr} : (s.decideFor c k kind val addr).2.Inv := by
  dsimp only [State.decideFor]
  split
  · exact h.same.logAppend
  · split <;> exact h.same
  · exact h.same.ite h

/-! ## The frame of an instruction -/

theorem State.Inv.sampleClk (h : s.Inv) {i f} : (s.sampleClk i f).2.Inv := .iteSnd h.decideFor h

/-- Every instruction runs in this frame: it faults, or its effect follows the sampling of the clock (R68). -/
theorem State.Inv.perform (h : s.Inv) {hs reserved f route operand own} {eff : Issue → State → State}
    (he : ∀ i (s : State), s.Inv → (eff i s).Inv) : NextInv (perform hs s reserved f route operand own eff) := by
  unfold Machine.perform
  split
  · trivial
  · split
    · exact h.takeFault
    · exact he _ _ h.sampleClk

theorem State.Inv.retire (h : s.Inv) {i g pc ends} : (s.retire i g pc ends).Inv := h.same.ite h.same

/-! ## Results and flags (R39, R94) -/

theorem State.Inv.settle (h : s.Inv) {i g m flags} : (s.settle i g m flags).Inv := h.retire.ite h.retire.takeFault

theorem State.Inv.vec (h : s.Inv) {i r} : (s.vec i r).Inv := h.settle

theorem State.Inv.simple (h : s.Inv) {hs op p f} {eff : Issue → State → State}
    (he : ∀ i (s : State), s.Inv → (eff i s).Inv) : NextInv (simple hs s op p f eff) := h.perform he

/-! ## Accesses on their way (R195 to R205) -/

theorem State.Inv.post (h : s.Inv) {i o} : (s.post i o).Inv := h.same.ite (h.fresh.ite h.fresh.same).retire

theorem State.Inv.acquires (h : s.Inv) {o a} : (s.acquires o a).Inv := h.same.ite h

theorem State.Inv.hears (h : s.Inv) {o a} : (s.hears o a).Inv := h.ite h.same

theorem State.Inv.sees (h : s.Inv) {o a} : (s.sees o a).Inv := h.ite h.same

theorem State.Inv.seen (h : s.Inv) {o a v} : (s.seen o a v).2.Inv := by
  refine .iteSnd h (.foldlSnd h fun {p} _ h => ?_)
  dsimp only
  split
  · exact h
  · exact .iteSnd h.same h.same

theorem State.Inv.finishOp (h : s.Inv) {id} : (s.finishOp id).Inv := by
  dsimp only [State.finishOp]
  split
  · exact h
  · exact (h.same.ite h).ite (h.same.ite h)

theorem State.Inv.accessFault (h : s.Inv) {o n a code} : (s.accessFault o n a code).Inv := h.same.takeFault.finishOp

theorem State.Inv.engineFault (h : s.Inv) {o n a b code} : (s.engineFault o n a b code).Inv := by
  dsimp only [State.engineFault]
  split
  · exact h.same.takeFault.finishOp
  · exact (h.same.ite h.same).regionFault.finishOp

theorem State.Inv.homeFault (h : s.Inv) {o n a code} : (s.homeFault o n a code).Inv := by
  dsimp only [State.homeFault]
  split
  · exact h.engineFault
  · exact h.accessFault

theorem State.Inv.storeVia (h : s.Inv) {t p n v rel} : (s.storeVia t p n v rel).Inv := by
  dsimp only [State.storeVia]
  split
  · exact h.putPlace.same.unhide.wakeAt
  · exact h.writeT.same.unhide.wakeAt

theorem State.Inv.atomicVia (h : s.Inv) {o a p} : (s.atomicVia o a p).2.Inv := by
  dsimp only [State.atomicVia]
  generalize (!(o.kind == .cas && _ != a.cmp)) = changes
  generalize hs1 : (if changes = true then _ else s) = s1
  have h1 : s1.Inv := by
    rw [← hs1]
    cases p with
    | some q => exact h.putPlace.ite h
    | none => exact h.writeT.ite h
  generalize hs2 : (if changes = true then _ else s1) = s2
  have h2 : s2.Inv := hs2 ▸ (h1.foldl fun _ h => h.joinChain).unhide.ite h1
  exact .iteSnd h2.breakLine (h2.wakeAt.ite h2)

theorem State.Inv.futureGate (h : s.Inv) {c ctx p} : (s.futureGate c ctx p).2.2.Inv := by
  dsimp only [State.futureGate]
  split
  · exact h
  · exact h
  · exact h.gate

theorem State.Inv.futureReady (h : s.Inv) {c ctx p} : (s.futureReady c ctx p).2.Inv := by
  dsimp only [State.futureReady]
  split <;> exact h.futureGate.thd ‹_›

theorem State.Inv.futureDown (h : s.Inv) {rank c ctx ktag p} : (s.futureDown rank c ctx ktag p).Inv := h.regionFault.ite h

theorem State.Inv.completeFuture (h : s.Inv) {c slot t e} : (s.completeFuture c slot t e).Inv := by
  dsimp only [State.completeFuture]
  split
  · exact (h.futureGate.thd ‹_›).futureDown
  · exact (h.futureGate.thd ‹_›).unitStore.unitStore.settleAt.addWord.unitStore
  · exact h.futureGate.thd ‹_›

/-! ## Loads and stores as they issue (R174 to R183) -/

theorem State.Inv.descStall (h : s.Inv) {i p} : (s.descStall i p).Inv := (h.ite h.same).stall

theorem State.Inv.withDesc (h : s.Inv) {i b} {eff : Nat → State} (he : ∀ d, (eff d).Inv) : (s.withDesc i b eff).Inv := by
  dsimp only [State.withDesc]
  split
  · exact he _
  · exact h.descStall

theorem State.Inv.execPref (h : s.Inv) {hs f} : NextInv (execPref hs f s) := by
  dsimp only [Machine.execPref]
  exact h.perform fun _ _ h => (h.foldl fun _ h => by
    split
    · split
      · exact h.requestAt
      · exact h
    · exact h).retire

/-! ## Waiting strands (R109, R215) -/

theorem State.Inv.waitOn (h : s.Inv) {i kind p target dest scope cont} : (s.waitOn i kind p target dest scope cont).Inv := by
  dsimp only [State.waitOn]
  split <;> exact h.same

/-! ## Atomics and barriers as they issue (R209 to R225) -/

theorem State.Inv.postReturning (h : s.Inv) {i o} : (s.postReturning i o).Inv := h.post

theorem State.Inv.atomUni (h : s.Inv) {i f kind data cmp} : (s.atomUni i f kind data cmp).Inv := h.postReturning

theorem State.Inv.binitAt (h : s.Inv) {t v rel b e} : (s.binitAt t v rel b e).2.Inv := by
  dsimp only [State.binitAt]
  split
  · exact .iteSnd h.settleAt.readT.writeT.same.breakLine h.settleAt.readT.storeAt
  · exact .iteSnd h.settleAt h.settleAt.same.storeAt

theorem State.Inv.binit (h : s.Inv) {i t v} : (s.binit i t v).2.Inv := h.binitAt

theorem State.Inv.atBarrier (h : s.Inv) {i p dest n} {act : State → Target → Nat × State}
    (ha : ∀ {s : State} t, s.Inv → (act s t).2.Inv) : (s.atBarrier i p dest n act).Inv := by
  dsimp only [State.atBarrier]
  split
  · exact h.same
  · exact h.takeFault.ite (h.same.ite (h.same.takeFault.ite h.same.retire))
  · split
    · exact (h.gate.snd ‹_›).same
    · exact (h.gate.snd ‹_›).takeFault
    · exact (ha _ (h.gate.snd ‹_›)).retire

theorem State.Inv.bdropAt (h : s.Inv) {t b} : (s.bdropAt t b).2.Inv := by
  dsimp only [State.bdropAt]
  split
  · exact h
  · exact h.readT.breakLine.same

theorem State.Inv.bdrop (h : s.Inv) {i t} : (s.bdrop i t).2.Inv := h.bdropAt

theorem State.Inv.execBdrop (h : s.Inv) {hs f} : NextInv (execBdrop hs f s) := by
  dsimp only [Machine.execBdrop]
  exact h.perform fun _ _ h => by
    split
    · exact (h.atBarrier fun _ h => h.bdrop).ite h.same
    · exact h.same

/-! ## Compares and predicates (R123 to R127) -/

theorem State.Inv.execCmp (h : s.Inv) {op xmod k intOnly rel flags hs f} : NextInv (execCmp op xmod k intOnly rel flags hs f s) := by
  unfold Machine.execCmp
  exact h.perform fun _ _ h => h.settle

theorem State.Inv.execPred2 (h : s.Inv) {op fn hs f} : NextInv (execPred2 op fn hs f s) := by
  unfold Machine.execPred2
  exact h.perform fun _ _ h => h.retire

theorem State.Inv.execPredS (h : s.Inv) {op fn hs f} : NextInv (execPredS op fn hs f s) := by
  unfold Machine.execPredS
  exact h.perform fun _ _ h => h.retire

/-! ## Boxes of tensors (R172, R187, R272) -/

theorem State.Inv.serve (h : s.Inv) {t task write core} : (s.serve t task write core).2.Inv := by
  dsimp only [State.serve]
  split
  · exact h
  · split <;> exact h.gate.snd ‹_›

theorem State.Inv.fetchT (h : s.Inv) {t n} : (s.fetchT t n).2.Inv := by
  dsimp only [State.fetchT]
  split
  · exact .foldlSnd h fun _ h => h.same
  · exact h.readT

theorem State.Inv.boxRead (h : s.Inv) {find core d origin n j} : (s.boxRead find core d origin n j).2.2.Inv := by
  induction n generalizing s j with
  | zero => exact h
  | succ n ih =>
    dsimp only [State.boxRead]
    split
    · exact ih h
    · split
      · exact h
      · split
        · exact ih (h.serve.snd ‹_›).settleAt.fetchT
        · exact h.serve.snd ‹_›

theorem State.Inv.boxReady (h : s.Inv) {find core d origin l} : (s.boxReady find core d origin l).2.Inv := by
  induction l generalizing s with
  | nil => exact h
  | cons j l ih =>
    dsimp only [State.boxReady]
    split
    · exact ih h
    · split
      · exact h
      · split
        · exact .iteSnd (h.serve.snd ‹_›).same (ih (h.serve.snd ‹_›))
        · exact h.serve

theorem State.Inv.boxWrite (h : s.Inv) {find d origin v js} : (s.boxWrite find d origin v js).Inv := by
  dsimp only [State.boxWrite]
  exact h.foldl fun _ h => by
    split
    · exact h
    · split
      · exact h
      · exact h
      · exact h.settleAt.readT.storeAt.ite h.settleAt.storeAt

theorem State.Inv.rangeRead (h : s.Inv) {find task core l} : (s.rangeRead find task core l).2.2.Inv := by
  induction l generalizing s with
  | nil => exact h
  | cons x l ih =>
    dsimp only [State.rangeRead]
    split
    · exact h
    · split
      · exact ih (h.serve.snd ‹_›).settleAt.fetchT
      · exact h.serve.snd ‹_›

theorem State.Inv.rangeWrite (h : s.Inv) {find l v} : (s.rangeWrite find l v).Inv := by
  induction l generalizing s v with
  | nil => exact h
  | cons x l ih =>
    refine ih ?_
    split
    · exact h
    · exact h.settleAt.storeAt
    · exact h

/-! ## Copies as they issue (R184 to R188) -/

theorem State.Inv.postCopy (h : s.Inv) {i kind segs barrier} : (s.postCopy i kind segs barrier).Inv :=
  h.same.ite (h.fresh.ite h.fresh.same).retire

/-! ## Tile operations as they issue (R263 to R290) -/

theorem State.Inv.postTile (h : s.Inv) {i kind} : (s.postTile i kind).Inv := h.same.ite h.fresh.same.retire

theorem State.Inv.execTile (h : s.Inv) {op hs f bad kind} : NextInv (execTile op hs f s bad kind) := by
  unfold Machine.execTile
  exact h.perform fun _ _ h => h.postTile

theorem State.Inv.mmaqFault (h : s.Inv) {i e} : (s.mmaqFault i e).Inv := by
  dsimp only [State.mmaqFault]
  exact h.takeFault.foldl fun _ h => by
    split
    · exact h.withdraw.takeFault
    · exact h.same

theorem State.Inv.execMmaq (h : s.Inv) {hs f} : NextInv (execMmaq hs f s) := by
  unfold Machine.execMmaq
  split
  · trivial
  · split
    · exact h.takeFault
    · split
      · exact h.takeFault.ite h.mmaqFault
      · exact h.postTile

/-! ## The copy engine's steps (R184 to R190) -/

theorem State.Inv.loseTask (h : s.Inv) {c k strand pc f} : (s.loseTask c k strand pc f).Inv := by
  dsimp only [State.loseTask]
  generalize hu : List.foldl _ (s.writeRecord _ _) _ = u
  have hu : u.Inv := hu ▸ h.writeRecord.foldl fun _ h => h.same
  exact (hu.ite (hu.endTask.bump.ite (hu.endTask.ite hu.applyPolicy))).endDomain.ite
    (hu.ite (hu.endTask.bump.ite (hu.endTask.ite hu.applyPolicy)))

theorem State.Inv.operandFault (h : s.Inv) {c k strand pc f} : (s.operandFault c k strand pc f).Inv :=
  (h.foldl fun _ h => h.same).setCore.loseTask

theorem State.Inv.endList (h : s.Inv) {c l} : (s.endList c l).Inv := by
  dsimp only [State.endList]
  split <;> exact h.same

theorem State.Inv.listCheck (h : s.Inv) {c id} : (s.listCheck c id).Inv := by
  dsimp only [State.listCheck]
  split
  · exact h
  · exact h.endList.ite h

theorem State.Inv.entryOver (h : s.Inv) {c list cmd ok} : (s.entryOver c list cmd ok).Inv := by
  dsimp only [State.entryOver]
  split
  · exact h
  · split <;> exact h.same.listCheck

theorem State.Inv.cmdCheck (h : s.Inv) {c id} : (s.cmdCheck c id).Inv := by
  dsimp only [State.cmdCheck]
  split
  · exact h
  · split
    · split
      · exact h.same
      · exact h.same.entryOver
      · exact h.same
    · exact h

theorem State.Inv.listFault (h : s.Inv) {c l code addr} : (s.listFault c l code addr).Inv := by
  dsimp only [State.listFault]
  split
  · exact h.same.takeFault.listCheck
  · exact h.same.regionFault.setFld.listCheck

theorem State.Inv.cmdFault (h : s.Inv) {c cmd reads code addr} : (s.cmdFault c cmd reads code addr).Inv := by
  dsimp only [State.cmdFault]
  split
  · exact h.listFault
  · split
    · exact h.operandFault.ite h.takeFault
    · exact h

theorem State.Inv.boxPart (h : s.Inv) {find c d origin off size} : (s.boxPart find c d origin off size).2.2.Inv := h.boxRead

theorem State.Inv.segRead (h : s.Inv) {c cmd g o n} : (s.segRead c cmd g o n).2.2.Inv := by
  dsimp only [State.segRead]
  split
  · exact h.boxPart
  · exact h.rangeRead

theorem State.Inv.destReady (h : s.Inv) {find task c l} : (s.destReady find task c l).2.Inv := by
  induction l generalizing s with
  | nil => exact h
  | cons x l ih =>
    dsimp only [State.destReady]
    split
    · exact h
    · split
      · exact ih (h.serve.snd ‹_›)
      · exact h.serve

theorem State.Inv.writeLines (h : s.Inv) {find l v} : (s.writeLines find l v).2.Inv := by
  induction l generalizing s v with
  | nil => exact h
  | cons x l ih =>
    refine .iteSnd (ih ?_) (ih h.rangeWrite)
    split
    · exact h.same
    · exact h

theorem State.Inv.barrierBytes (h : s.Inv) {c cmd b n} : (s.barrierBytes c cmd b n).Inv := by
  dsimp only [State.barrierBytes]
  split
  · exact h
  · exact h.fresh.same

theorem State.Inv.landed (h : s.Inv) {c id n bad} : (s.landed c id n bad).Inv := h.same.cmdCheck

theorem State.Inv.segBytes (h : s.Inv) {c cmd g o n v} : (s.segBytes c cmd g o n v).2.Inv := by
  dsimp only [State.segBytes]
  split
  · exact h.writeLines.hides
  · exact h.writeLines

theorem State.Inv.segEnds (h : s.Inv) {c cmd n g} : (s.segEnds c cmd n g).Inv := by
  dsimp only [State.segEnds]
  split
  · exact h.cmdFault.landed
  · split
    · exact h.barrierBytes.landed
    · exact h.landed

theorem State.Inv.segWrite (h : s.Inv) {c cmd n g m} : (s.segWrite c cmd n g m).Inv := by
  dsimp only [State.segWrite]
  split
  · exact h.same.segEnds.ite h.same
  · split
    · exact h.destReady.snd ‹_›
    · exact (h.destReady.snd ‹_›).cmdFault.landed
    · have h := h.destReady.snd ‹_›
      exact (h.segBytes.segEnds.ite h.segBytes.same).ite h

theorem State.Inv.copySegment (h : s.Inv) {c id n} : (s.copySegment c id n).Inv := by
  dsimp only [State.copySegment]
  split
  · exact h
  · split
    · exact h
    · split
      · exact h
      · split
        · exact h.same
        · split
          · exact h.same.ite h.cmdFault.landed
          · split
            · exact h.cmdFault.landed
            · split
              · split
                · have h := h.segRead.thd ‹_›
                  exact h.same.ite h
                · have h := h.segRead.thd ‹_›
                  exact (h.same.ite h).ite h.cmdFault.landed
                · have h := h.segRead.thd ‹_›
                  exact h.same.segWrite.ite h.same
              · exact h.segWrite

theorem State.Inv.startEntry (h : s.Inv) {c l v p} : (s.startEntry c l v p).Inv := by
  dsimp only [State.startEntry]
  split
  · exact h.listFault
  · split
    · exact h.ite (h.ite (h.fresh.same.setCore.cmdCheck.ite h.fresh.same.setCore))
    · exact h.listFault

theorem State.Inv.listEntry (h : s.Inv) {c id} : (s.listEntry c id).Inv := by
  dsimp only [State.listEntry]
  split
  · exact h
  · split
    · exact h
    · split
      · exact h.listFault
      · split
        · exact h.listFault
        · split
          · exact h.serve.snd ‹_›
          · exact (h.serve.snd ‹_›).listFault
          · exact (h.serve.snd ‹_›).settleAt.fetchT.startEntry

theorem State.Inv.cpeKick (h : s.Inv) {c v} : (s.cpeKick c v).Inv := h.ite (h.same.ite h.same)

/-! ## Transfers, waits and service requests (R80 to R82, R100 to R113) -/

theorem State.Inv.flow (h : s.Inv) {i g pc} : (s.flow i g pc).Inv := by
  dsimp only [State.flow]
  split
  · exact h.retire
  · exact ((h.same.ite h.same).setSlot.thaw.ite (h.same.ite h.same).setSlot).ite (h.same.ite h.same)

theorem State.Inv.transfer (h : s.Inv) {i g pc} : (s.transfer i g pc).Inv := h.flow.same

theorem State.Inv.call (h : s.Inv) {i target} : (s.call i target).Inv := by
  dsimp only [State.call]
  split
  · exact h.transfer
  · exact h

theorem State.Inv.arriveAt (h : s.Inv) {i m a u} : (s.arriveAt i m a u).Inv := h.same.flow

theorem State.Inv.execRet (h : s.Inv) {hs f} : NextInv (execRet hs f s) := by
  dsimp only [Machine.execRet]
  exact h.perform fun _ _ h => by
    split
    · exact h.arriveAt
    · exact h

theorem State.Inv.execRcv (h : s.Inv) {hs f} : NextInv (execRcv hs f s) := by
  dsimp only [Machine.execRcv]
  exact h.perform fun _ _ h => by
    split
    · exact h.retire
    · exact h

theorem State.Inv.execFuse (h : s.Inv) {hs f} : NextInv (execFuse hs f s) := by
  dsimp only [Machine.execFuse]
  exact h.perform fun _ _ h => by
    split
    · exact h.arriveAt
    · exact h.flow

theorem State.Inv.execBrk (h : s.Inv) {hs f} : NextInv (execBrk hs f s) := by
  dsimp only [Machine.execBrk]
  exact h.perform fun _ _ h => by
    split
    · exact h
    · exact h.flow.ite (h.arriveAt.ite h.arriveAt)

theorem State.Inv.trapImprecise (h : s.Inv) {c k n pc em code p} : (s.trapImprecise c k n pc em code p).Inv := h.takeFault

theorem State.Inv.ringAt (h : s.Inv) {c k p n rd wr} : (s.ringAt c k p n rd wr).2.Inv := by
  dsimp only [State.ringAt]
  split
  · exact h
  · split
    · exact h
    · split
      · exact h.gate.snd ‹_›
      · exact h.gate.snd ‹_›
      · have h := h.gate.snd ‹_›
        exact .iteSnd h.same h.settleAt

theorem State.Inv.execTrap (h : s.Inv) {hs f} : NextInv (execTrap hs f s) := by
  dsimp only [Machine.execTrap]
  exact h.perform fun _ _ h => by
    split
    · exact h.retire
    · split
      · exact h.same
      · split
        · exact (h.ringAt.snd ‹_›).same
        · exact (h.ringAt.snd ‹_›).trapImprecise
        · have h := h.ringAt.snd ‹_›
          exact h.readT.trapImprecise.ite h.readT.addWord.same

theorem State.Inv.trapWriteOne (h : s.Inv) {c k n w m} : (s.trapWriteOne c k n w m).2.Inv := by
  dsimp only [State.trapWriteOne]
  split
  · exact (h.ringAt.snd ‹_›).storeAt
  · exact h.ringAt

theorem State.Inv.trapWrite (h : s.Inv) {c k n w j m} : (s.trapWrite c k n w j m).2.Inv := by
  induction j generalizing s m with
  | zero => exact h.trapWriteOne
  | succ j ih =>
    dsimp only [State.trapWrite]
    split
    · exact ih (h.trapWriteOne.snd ‹_›)
    · exact h.trapWriteOne

theorem State.Inv.trapPost (h : s.Inv) {c k n} : (s.trapPost c k n).2.Inv := by
  dsimp only [State.trapPost]
  split
  · exact h.trapWrite.snd ‹_›
  · exact (h.trapWrite.snd ‹_›).trapImprecise
  · split
    · exact h.trapWrite.snd ‹_›
    · exact (h.trapWrite.snd ‹_›).notice.fresh.setGroup.setWaits _

theorem State.Inv.trapRead (h : s.Inv) {c k w j m} : (s.trapRead c k w j m).2.Inv := by
  induction j generalizing s m with
  | zero => exact h
  | succ j ih =>
    dsimp only [State.trapRead]
    split
    · exact h.ringAt.snd ‹_›
    · exact h.ringAt.snd ‹_›
    · split
      · exact (ih (h.ringAt.snd ‹_›).readT).snd ‹_›
      · exact ih (h.ringAt.snd ‹_›).readT

theorem State.Inv.trapDone (h : s.Inv) {c k n} : (s.trapDone c k n).2.Inv := by
  dsimp only [State.trapDone]
  split
  · exact h.trapRead.snd ‹_›
  · exact (h.trapRead.snd ‹_›).trapImprecise
  · exact h.trapRead.snd ‹_›
  · exact (h.trapRead.snd ‹_›).same.endWait

/-! ## Save blocks (R86, R312) -/

theorem State.Inv.saveRoom (h : s.Inv) {ctx ktag size} : (s.saveRoom ctx ktag size).2.Inv := by
  dsimp only [State.saveRoom]
  split
  · exact h
  · split <;> exact h.reach.snd ‹_›

theorem State.Inv.writeLinesOf (h : s.Inv) {ctx fuel ia ws} : (s.writeLinesOf ctx fuel ia ws).Inv := by
  induction fuel generalizing s ia ws with
  | zero => exact h
  | succ fuel ih => exact h.ite (ih h.unitStore)

theorem State.Inv.writeWords (h : s.Inv) {ctx ia ws} : (s.writeWords ctx ia ws).Inv := h.writeLinesOf

theorem State.Inv.readWords (h : s.Inv) {ctx ia n} : (s.readWords ctx ia n).2.Inv := h.settleAt

/-! ## Records, leases and marks as they issue (R248 to R259) -/

theorem State.Inv.markRecord (h : s.Inv) {i p words id} : (s.markRecord i p words id).Inv := h.storeAt.storeAt

theorem State.Inv.clearFuture (h : s.Inv) {a c ctx ktag words} : (s.clearFuture a c ctx ktag words).Inv := by
  dsimp only [State.clearFuture]
  split
  · exact (h.futureGate.thd ‹_›).futureDown
  · exact (h.futureGate.thd ‹_›).unitStore.unitStore
  · exact h.futureGate.thd ‹_›

theorem State.Inv.takeOrdinal (h : s.Inv) {i} : (s.takeOrdinal i).2.2.Inv := h.decideFor.ite h

theorem State.Inv.recReady (h : s.Inv) {i p} : (s.recReady i p).2.Inv := h.settleAt.descsReady

theorem State.Inv.withRecord (h : s.Inv) {i p bad} {eff : State → List DWord → State}
    (he : ∀ {s : State} ws, s.Inv → (eff s ws).Inv) : (s.withRecord i p bad eff).Inv := by
  refine h.same.ite ?_
  split
  · exact (h.recReady.snd ‹_›).same
  · exact (h.recReady.snd ‹_›).takeFault.ite ((h.recReady.snd ‹_›).same.ite (he _ (h.recReady.snd ‹_›)))

theorem State.Inv.pushOwn (h : s.Inv) {c r} : (s.pushOwn c r).Inv := h.same.ite h.same

theorem State.Inv.execSpawn (h : s.Inv) {hs f} : NextInv (execSpawn hs f s) := by
  dsimp only [Machine.execSpawn]
  exact h.perform fun _ _ h => h.withRecord fun _ h => by
    split
    · exact ((State.Inv.iteSnd h h.futureReady).snd ‹_›).stall
    · have h := (State.Inv.iteSnd h h.futureReady).snd ‹_›
      exact h.takeOrdinal.markRecord.retire.ite h.takeOrdinal.markRecord.clearFuture.fresh.pushOwn.liveUp.retire

theorem State.Inv.execSpawnr (h : s.Inv) {hs f} : NextInv (execSpawnr hs f s) := by
  dsimp only [Machine.execSpawnr]
  exact h.perform fun _ _ h => h.stall.ite (h.withRecord fun _ h =>
    (h.takeOrdinal.markRecord.fresh.fresh.setSpawns _).setGroup.ite (h.takeOrdinal.markRecord.fresh.fresh.setSpawns _).retire)

theorem State.Inv.execExecR (h : s.Inv) {hs f} : NextInv (execExecR hs f s) := by
  dsimp only [Machine.execExecR]
  exact h.perform fun _ _ h => h.withRecord fun _ h => by
    split
    · exact (h.saveRoom.snd ‹_›).takeFault
    · have h := h.saveRoom.snd ‹_›
      split
      · exact h.fresh.takeSave.setCore.askLease.setGroup
      · exact h.takeOrdinal.fresh.takeSave.setCore.askLease.setGroup

theorem State.Inv.setAdded (h : s.Inv) {c k ls} : (s.setAdded c k ls).Inv := h.foldl fun _ h => h.same

theorem State.Inv.execLease (h : s.Inv) {hs f} : NextInv (execLease hs f s) := by
  dsimp only [Machine.execLease]
  exact h.perform fun _ _ h => by
    split
    · split
      · exact h.same
      · exact h.same.retire
    · exact h.retire.ite (h.retire.ite h.fresh.same.stall)

theorem State.Inv.execUnlease (h : s.Inv) {hs f} : NextInv (execUnlease hs f s) := by
  dsimp only [Machine.execUnlease]
  exact h.simple fun _ _ h => by
    split
    · exact h.retire
    · exact h.setAdded.same.retire

/-! ## Accesses at their homes (R192 to R227) -/

theorem State.Inv.loadComplete (h : s.Inv) {id n} : (s.loadComplete id n).Inv := by
  dsimp only [State.loadComplete]
  split
  · exact h.same.finishOp.ite h
  · exact h

theorem State.Inv.storeAck (h : s.Inv) {id n} : (s.storeAck id n).Inv := by
  dsimp only [State.storeAck]
  split
  · exact h.same.finishOp.ite h
  · exact h

theorem State.Inv.atPeer (h : s.Inv) {o n a r} : (s.atPeer o n a r).Inv := by
  dsimp only [State.atPeer]
  split
  · exact h.homeFault
  · split
    · exact h.homeFault
    · split
      · exact (State.Inv.iteSnd h.peerAnswer h).setGroup.redoEarly.performed
      · exact (State.Inv.iteSnd h.peerAnswer h).performed

theorem State.Inv.loadValue (h : s.Inv) {o n a p} : (s.loadValue o n a p).Inv := h.settleAt.hears.acquires.seen.same

theorem State.Inv.plainAtHome (h : s.Inv) {o n a} : (s.plainAtHome o n a).Inv := by
  dsimp only [State.plainAtHome]
  split
  · exact h.atPeer
  · split
    · exact h.same
    · split
      · exact (h.gate.snd ‹_›).same
      · exact (h.gate.snd ‹_›).accessFault
      · have h := h.gate.snd ‹_›
        exact (h.same.accessFault.ite h.settleAt.storeVia.sees.same).ite h.loadValue

theorem State.Inv.writeBack (h : s.Inv) {ctx hit} : (s.writeBack ctx hit).Inv :=
  h.foldl fun _ h => (h.setMem (Memory.wf_setByte h.1 ..)).ite h

theorem State.Inv.cacheAtHome (h : s.Inv) {o kind} : (s.cacheAtHome o kind).Inv := h.same.ite (h.ite h.settleWhere.writeBack)

theorem State.Inv.probePage (h : s.Inv) {ctx ia det} : (s.probePage ctx ia det).2.Inv := by
  dsimp only [State.probePage]
  split <;> exact h.walk

theorem State.Inv.probeAtHome (h : s.Inv) {o n a} : (s.probeAtHome o n a).Inv := h.probePage.same

theorem State.Inv.eventAtHome (h : s.Inv) {o n x} : (s.eventAtHome o n x).Inv := by
  dsimp only [State.eventAtHome]
  split
  · exact h
  · split
    · exact h.writeRecordNow.same
    · split
      · exact h.reach.snd ‹_›
      · exact (h.reach.snd ‹_›).writeRecordNow.same

theorem State.Inv.publish (h : s.Inv) {n} : (s.publish n).Inv :=
  h.setMem (Memory.wf_write (Memory.wf_foldl _ _ (fun _ _ hm => Memory.wf_foldl _ _ (fun _ _ hm => Memory.wf_setByte hm ..) hm) h.1) ..)

theorem State.Inv.requestAtHome (h : s.Inv) {id n} : (s.requestAtHome id n).Inv := by
  dsimp only [State.requestAtHome]
  split
  · exact h
  · split
    · split
      · exact h.plainAtHome
      · exact h.plainAtHome
      · exact h.cacheAtHome.same
      · exact h.probeAtHome
      · exact h.eventAtHome
      · exact h.publish.same
      · exact h
    · exact h

theorem State.Inv.lineCounted (h : s.Inv) {t a} : (s.lineCounted t a).Inv := h.same.ite h

theorem State.Inv.atomLog (h : s.Inv) {o a} : (s.atomLog o a).2.Inv := by
  dsimp only [State.atomLog]
  split
  · exact h.lineCounted
  · split
    · exact h.lineCounted.logAppend
    · split
      · exact h.logReach.snd ‹_›
      · exact (h.logReach.snd ‹_›).same.lineCounted
      · have h := h.logReach.snd ‹_›
        split
        · exact .iteSnd h h.lineCounted.same
        · exact h.lineCounted.same
    · exact h.lineCounted

theorem State.Inv.applyAtomic (h : s.Inv) {o a more p} : (s.applyAtomic o a more p).2.Inv := by
  dsimp only [State.applyAtomic]
  split
  · exact h.atomicVia
  · split
    · exact h.foldl fun _ h => h.atomicVia
    · exact h.atomicVia.foldl fun _ h => h.foldl fun _ h => h.joinChain

theorem State.Inv.atomicAtPlace (h : s.Inv) {o n a more p} : (s.atomicAtPlace o n a more p).Inv := by
  dsimp only [State.atomicAtPlace]
  split
  · split
    · exact h.same.homeFault
    · exact h.foldl fun _ h => h.same.homeFault
  · split
    · split
      · exact (h.settleAt.hears.ite h.settleAt).acquires.applyAtomic.performed
      · exact (h.settleAt.hears.ite h.settleAt).acquires.applyAtomic.sees.performed
    · split
      · exact h.settleAt.hears.acquires.applyAtomic.foldl fun _ h => (h.ite h.sees).performed
      · exact h.settleAt.acquires.applyAtomic.foldl fun _ h => (h.ite h.sees).performed

theorem State.Inv.atomicAtHome (h : s.Inv) {id n} : (s.atomicAtHome id n).Inv := by
  dsimp only [State.atomicAtHome]
  split
  · exact h
  · refine State.Inv.ite ?_ h
    split
    · exact h.atPeer.ite (h.foldl fun _ h => h.atPeer)
    · split
      · exact (h.gate.snd ‹_›).holdAccess
      · exact (h.gate.snd ‹_›).homeFault.ite ((h.gate.snd ‹_›).foldl fun _ h => h.homeFault)
      · split
        · exact (h.gate.snd ‹_›).atomLog.snd ‹_›
        · exact (((h.gate.snd ‹_›).atomLog.snd ‹_›).foldl fun _ h => h.atomLog).atomicAtPlace

theorem State.Inv.routerMerge (h : s.Inv) {id n id2 n2} : (s.routerMerge id n id2 n2).Inv := by
  dsimp only [State.routerMerge]
  split
  · exact (h.same.foldl fun _ h => h.same).ite h
  · exact h

theorem State.Inv.spillReach (h : s.Inv) {d ctx} : (s.spillReach d ctx).2.Inv := .iteSnd h h.reach

theorem State.Inv.settleReach (h : s.Inv) {o} : (s.settleReach o).2.Inv := by
  dsimp only [State.settleReach]
  split
  · split
    · exact (h.logReach.snd ‹_›).same
    · exact h.logReach
  · exact h

theorem State.Inv.earlySettle (h : s.Inv) {o a die} : (s.earlySettle o a die).Inv := h.settleAt.same.decideFor

theorem State.Inv.amonArrival (h : s.Inv) {id n} : (s.amonArrival id n).Inv := by
  dsimp only [State.amonArrival]
  split
  · exact h
  · refine State.Inv.ite ?_ h
    split
    · exact h.atPeer
    · split
      · exact (h.gate.snd ‹_›).holdAccess
      · exact (h.gate.snd ‹_›).accessFault
      · have h := h.gate.snd ‹_›
        refine h.countProtect.accessFault.ite ?_
        split
        · exact (h.settleReach.snd ‹_›).holdAccess
        · have h := h.settleReach.snd ‹_›
          split
          · exact ((State.Inv.iteSnd h h.spillReach).snd ‹_›).holdAccess
          · have h := (State.Inv.iteSnd h h.spillReach).snd ‹_›
            exact (((h.sees.setPending _).foldl fun _ h => h.joinChain).earlySettle.ite
              ((h.sees.setPending _).foldl fun _ h => h.joinChain)).performed

theorem State.Inv.waitFault (h : s.Inv) {w code} : (s.waitFault w code).Inv := by
  dsimp only [State.waitFault]
  split
  · split
    · exact h.same.takeFault
    · exact h
  · exact h
  · exact h.same

theorem State.Inv.waitAtHome (h : s.Inv) {id} : (s.waitAtHome id).Inv := by
  dsimp only [State.waitAtHome]
  split
  · exact h
  · split
    · split
      · exact h.waitFault.ite (h.waitFault.ite (h.peerAnswer.same.ite h))
      · split
        · exact h.gate.snd ‹_›
        · exact (h.gate.snd ‹_›).waitFault
        · have h := h.gate.snd ‹_›
          exact h.settleAt.readT.waiterReads.same.ite (h.settleAt.readT.same.ite h.settleAt.readT.same)
    · exact h

theorem State.Inv.execWaitRequestRetry (h : s.Inv) : NextInv (execWaitRequestRetry s) := by
  dsimp only [Machine.execWaitRequestRetry]
  split
  · exact h.same.ite h
  · exact h

theorem State.Inv.joinStatus (h : s.Inv) {c k n} : (s.joinStatus c k n).2.Inv := by
  dsimp only [State.joinStatus]
  split
  · exact h
  · exact .iteSnd h.takeFault h.peerAnswer
  · split
    · exact h.gate.snd ‹_›
    · exact (h.gate.snd ‹_›).takeFault
    · exact (h.gate.snd ‹_›).settleAt.readT

theorem State.Inv.wakeStrand (h : s.Inv) {c k n w broken} : (s.wakeStrand c k n w broken).2.Inv := by
  dsimp only [State.wakeStrand]
  split
  · exact h.same
  · exact h.same
  · split
    · exact h.acquireWait.joinStatus.snd ‹_›
    · exact h.acquireWait.joinStatus.snd ‹_›
    · exact (h.acquireWait.joinStatus.snd ‹_›).putS.endWait
  · exact .iteSnd h.acquireWait.trapPost h.acquireWait.trapDone
  · exact h.acquireWait

theorem State.Inv.wake (h : s.Inv) {id} : (s.wake id).Inv := by
  dsimp only [State.wake]
  split
  · exact h
  · split
    · exact h.ite h.dropWait.peerReply
    · refine h.ite ?_
      split
      · refine State.Inv.ite ?_ h.dropWait
        split
        · exact (h.wakeStrand.snd ‹_›).dropWait
        · exact h.wakeStrand.snd ‹_›
      · exact h.ite (h.ite h.dropWait)
    · exact h

theorem State.Inv.addDesc (h : s.Inv) {c e} : (s.addDesc c e).Inv := h.same.ite h.same

theorem State.Inv.descFetch (h : s.Inv) {c k n} : (s.descFetch c k n).Inv := by
  dsimp only [State.descFetch]
  split
  · exact h
  · refine h.dropFetch.ite ?_
    split
    · exact h.dropFetch
    · refine h.dropFetch.takeFault.ite ?_
      split
      · exact h.serve.snd ‹_›
      · exact (h.serve.snd ‹_›).dropFetch.takeFault
      · exact (h.serve.snd ‹_›).settleAt.fetchT.addDesc.dropFetch

/-! ## Steps of a group's life (R75 to R97) -/

theorem State.Inv.execClaimServed (h : s.Inv) : NextInv (execClaimServed s) := by
  dsimp only [Machine.execClaimServed]
  split
  · split
    · exact h.same
    · exact h
  · exact h

theorem State.Inv.reachLogs (h : s.Inv) {c} : (s.reachLogs c).Inv := by
  dsimp only [State.reachLogs]
  exact h.foldl fun _ h => by
    split
    · split
      · exact (h.logReach.snd ‹_›).same
      · exact h.logReach.snd ‹_›
    · exact h

theorem State.Inv.slotBind (h : s.Inv) {c} : (s.slotBind c).Inv := by
  dsimp only [State.slotBind]
  split
  · exact h.reachLogs
  · exact (h.reachLogs.same.foldl fun _ h => h.same).askLease.progress

theorem State.Inv.regrant (h : s.Inv) {c ks} (e : s.regrant c ks = some t) : t.Inv := by
  induction ks generalizing s with
  | nil => cases e; exact h
  | cons k ks ih =>
    simp only [State.regrant] at e
    split at e
    · exact ih h e
    · split at e
      · cases e
      · exact ih h.same e

theorem State.Inv.enter (h : s.Inv) {c r ks} : (s.enter c r ks).Inv := (h.same.fresh.foldl fun _ h => h.fresh.same).leaseToTask

theorem State.Inv.enterChild (h : s.Inv) {c k r} : (s.enterChild c k r).Inv :=
  h.writeWords.dropBinding.fresh.setGroup.leaseToTask

theorem State.Inv.taskEntry (h : s.Inv) {c k} : (s.taskEntry c k).Inv := by
  dsimp only [State.taskEntry]
  split
  · split
    · split
      · exact (h.regrant ‹_›).enter
      · exact h
    · exact h
  · split
    · exact h
    · split
      · split
        · exact h.reach.snd ‹_›
        · exact (h.reach.snd ‹_›).enterChild
        · exact (h.reach.snd ‹_›).same.dropBinding.dropLease.takeFault
      · exact h

theorem State.Inv.takeBlocks (h : s.Inv) {c ks} (e : s.takeBlocks c ks = some t) : t.Inv := by
  induction ks generalizing s with
  | nil => cases e; exact h
  | cons k ks ih =>
    simp only [State.takeBlocks] at e
    split at e
    · cases e
    · exact ih (h.saveRoom.snd ‹_›).same e

theorem State.Inv.beginSave (h : s.Inv) {c k} : (s.beginSave c k).Inv := by
  dsimp only [State.beginSave]
  split
  · exact h.foldl fun _ h => h.same
  · exact (h.takeBlocks ‹_›).withdrawLoose.foldl fun _ h => h.same

theorem State.Inv.park (h : s.Inv) {c} : (s.park c).Inv := by
  dsimp only [State.park]
  split
  · split
    · exact h.beginSave
    · exact h
  · exact h

theorem State.Inv.stopCheck (h : s.Inv) {c k force} : (s.stopCheck c k force).Inv := h.cancelPoint.ite (h.beginSave.ite h)

theorem State.Inv.preempt (h : s.Inv) {c k} : (s.preempt c k).Inv := (h.foldl fun _ h => h.same).stopCheck.ite h.stopCheck

theorem State.Inv.execPreemptTimeout (h : s.Inv) : NextInv (execPreemptTimeout s) := by
  dsimp only [Machine.execPreemptTimeout]
  split
  · exact h.stopCheck.ite h
  · exact h

theorem State.Inv.compactionMove (h : s.Inv) {c cls} : (s.compactionMove c cls).Inv := by
  dsimp only [State.compactionMove]
  split
  · exact h.same.ite h
  · split
    · split
      · exact h
      · exact h.same.ite h
    · exact h

theorem State.Inv.movePool (h : s.Inv) {c src dst size} : (s.movePool c src dst size).Inv := by
  dsimp only [State.movePool]
  exact h.settleAt.readT.writeT.same

theorem State.Inv.compactionEnd (h : s.Inv) {c} : (s.compactionEnd c).Inv := by
  dsimp only [State.compactionEnd]
  split
  · exact h
  · split
    · split
      · exact h
      · exact (h.movePool.ite h).setCore.setSlot.stopCheck
    · exact h.same

theorem State.Inv.saveTask (h : s.Inv) {c ks} : (s.saveTask c ks).Inv :=
  h.foldl fun _ h => h.writeWords.setCore.freeSlot

theorem State.Inv.reachBlocks (h : s.Inv) {c ks} : (s.reachBlocks c ks).2.Inv := by
  induction ks generalizing s with
  | nil => exact h
  | cons k ks ih =>
    dsimp only [State.reachBlocks]
    split
    · exact ih (h.reach.snd ‹_›)
    · exact h.reach

theorem State.Inv.unsave (h : s.Inv) {c ks} : (s.unsave c ks).Inv := h.foldl fun _ h => h.same.setSlot

theorem State.Inv.saveComplete (h : s.Inv) {c k} : (s.saveComplete c k).Inv := by
  dsimp only [State.saveComplete]
  split
  · split
    · have h := h.reachBlocks.snd ‹_›
      exact h.saveTask.same.ite h.saveTask
    · exact h.reachBlocks.snd ‹_›
    · exact (h.reachBlocks.snd ‹_›).unsave
  · exact h

theorem State.Inv.restoreGroup (h : s.Inv) {c} : (s.restoreGroup c).Inv := by
  dsimp only [State.restoreGroup]
  split
  · exact h
  · split
    · exact h
    · exact h.same.foldl fun _ h => h.same

theorem State.Inv.reachSaved (h : s.Inv) {c ks} : (s.reachSaved c ks).2.Inv := by
  induction ks generalizing s with
  | nil => exact h
  | cons k ks ih =>
    dsimp only [State.reachSaved]
    split
    · exact h
    · split
      · exact ih (h.reach.snd ‹_›)
      · exact h.reach.snd ‹_›

theorem State.Inv.restoreOne (h : s.Inv) {c k} : (s.restoreOne c k).Inv := by
  dsimp only [State.restoreOne]
  split
  · exact h
  · split
    · exact h.readWords.same.setCore.setSlot.renameGroup.takeFault.endTask
    · exact h.readWords.same.setCore.setSlot.renameGroup

theorem State.Inv.restoreComplete (h : s.Inv) {c k} : (s.restoreComplete c k).Inv := by
  dsimp only [State.restoreComplete]
  split
  · split
    · exact h
    · have h := h.regrant ‹_›
      split
      · exact (h.reachSaved.snd ‹_›).foldl fun _ h => h.restoreOne
      · exact h.reachSaved.snd ‹_›
  · exact h

theorem State.Inv.leaveSlot (h : s.Inv) {c k} : (s.leaveSlot c k).Inv := by
  dsimp only [State.leaveSlot]
  split <;> exact h.same

theorem State.Inv.relaunchChild (h : s.Inv) {c k f rest t} : (s.relaunchChild c k f rest t).Inv := h.fresh.same.setCore.askLease

theorem State.Inv.frameReady (h : s.Inv) {c k} : (s.frameReady c k).2.Inv := by
  dsimp only [State.frameReady]
  split
  · exact h
  · split
    · exact h
    · split
      · exact h
      · have h := h.regrant ‹_›
        split
        · exact (h.reach.snd ‹_›).settleAt
        · exact h.reach.snd ‹_›

theorem State.Inv.endReady (h : s.Inv) {c k e} : (s.endReady c k e).2.Inv := by
  dsimp only [State.endReady]
  split
  · exact (State.Inv.iteSnd h h.futureReady).snd ‹_›
  · exact ((State.Inv.iteSnd h h.futureReady).snd ‹_›).frameReady

theorem State.Inv.dropExec (h : s.Inv) {c k} : (s.dropExec c k).Inv := by
  dsimp only [State.dropExec]
  split
  · split <;> exact h.same
  · split
    · exact h.same
    · exact h

theorem State.Inv.finishTask (h : s.Inv) {c k ks e} : (s.finishTask c k ks e).Inv := by
  dsimp only [State.finishTask]
  split
  · exact (h.dropExec.fresh.same.foldl fun _ h => h.leaveSlot).setCore
  · split
    · exact h.dropExec.same.relaunchChild
    · split
      · split
        · exact h.dropExec.completeFuture.same.progress.cancelFrame
        · exact h.dropExec.completeFuture.same.progress.returnFrame
      · exact (h.dropExec.completeFuture.same.progress.foldl fun _ h => h.leaveSlot).liveEnd

theorem State.Inv.resumeExec (h : s.Inv) {c id status} : (s.resumeExec c id status).Inv := by
  dsimp only [State.resumeExec]
  exact h.foldl fun _ h => by
    split
    · exact h.same.putS.endWait.ite h
    · exact h

theorem State.Inv.finishEnd (h : s.Inv) {c r rest} : (s.finishEnd c r rest).Inv := by
  dsimp only [State.finishEnd]
  split
  · exact h.futureReady.snd ‹_›
  · have h := h.futureReady.snd ‹_›
    split
    · split
      · exact (h.completeFuture.same.ite h.completeFuture.same).setCore.liveEnd.progress
      · exact (h.completeFuture.same.ite h.completeFuture.same).setCore.resumeExec.liveEnd.progress
    · split
      · exact (h.completeFuture.same.ite h.completeFuture.same).setCore.progress
      · exact (h.completeFuture.same.ite h.completeFuture.same).setCore.resumeExec.progress

theorem State.Inv.taskEnd (h : s.Inv) {c k} : (s.taskEnd c k).Inv := by
  dsimp only [State.taskEnd]
  split
  · split
    · exact h.finishEnd
    · exact h
  · split
    · split
      · exact (h.endReady.snd ‹_›).finishTask
      · exact h.endReady.snd ‹_›
    · exact h

theorem State.Inv.counterRetire (h : s.Inv) {c k ctr} : (s.counterRetire c k ctr).Inv := by
  dsimp only [State.counterRetire]
  split
  · exact (h.same.ite h.same).ite h
  · exact h

/-! ## The task unit's steps (R238 to R250) -/

theorem State.Inv.launchFail (h : s.Inv) {tag code} : (s.launchFail tag code).Inv := by
  dsimp only [State.launchFail]
  split
  · exact h
  · split
    · exact (h.same.foldl fun _ h => h.same).regionFault.launchOver
    · exact h.same.regionFault.launchOver

theorem State.Inv.recFails (h : s.Inv) {c r code addr} : (s.recFails c r code addr).Inv := by
  dsimp only [State.recFails]
  split
  · exact h.launchFail
  · split
    · exact (h.writeRecord.same.dropLease.foldl fun _ h => h.same).setCore.endDomain
    · exact (h.writeRecord.same.dropLease.foldl fun _ h => h.same).setCore.handle
    · exact (h.writeRecord.same.dropLease.foldl fun _ h => h.same).setCore

theorem State.Inv.stageLook (h : s.Inv) {c r slot} : (s.stageLook c r slot).2.Inv := by
  dsimp only [State.stageLook]
  split
  · exact h
  · split
    · exact h
    · split
      · exact h.serve.snd ‹_›
      · exact h.serve.snd ‹_›
      · have h := h.serve.snd ‹_›
        split
        · exact h.settleAt.fetchT
        · split <;> exact h.settleAt.fetchT

theorem State.Inv.stagingStart (h : s.Inv) {c id} : (s.stagingStart c id).Inv := by
  dsimp only [State.stagingStart]
  split
  · exact h
  · split
    · exact h
    · split
      · exact h.ite h.same.askLease
      · split
        · split
          · have h := h.stageLook.snd ‹_›
            exact h.ite h.fresh.same
          · exact h.stageLook.snd ‹_›
        · exact h

theorem State.Inv.rootEnters (h : s.Inv) {c r} : (s.rootEnters c r).Inv := by
  dsimp only [State.rootEnters]
  split
  · exact h.futureReady.snd ‹_›
  · have h := h.futureReady.snd ‹_›
    split
    · exact h.clearFuture.same
    · split
      · exact h.clearFuture.same.setKernel.progress.cancelKernel
      · exact h.clearFuture.same.setKernel.progress

theorem State.Inv.stagingComplete (h : s.Inv) {c id} : (s.stagingComplete c id).Inv := by
  dsimp only [State.stagingComplete]
  split
  · exact h
  · exact (h.rootEnters.ite (h.same.ite h)).ite h

theorem State.Inv.stagingFault (h : s.Inv) {c id} : (s.stagingFault c id).Inv := by
  dsimp only [State.stagingFault]
  split
  · exact h
  · split
    · exact h.recFails
    · exact h

theorem State.Inv.leaseRefused (h : s.Inv) {q} : (s.leaseRefused q).Inv := by
  dsimp only [State.leaseRefused]
  split
  · exact h.launchFail
  · split
    · exact h.launchFail
    · split
      · exact h.recFails
      · exact h.same
  · exact h.same

theorem State.Inv.leaseRequest (h : s.Inv) {id} : (s.leaseRequest id).Inv := by
  dsimp only [State.leaseRequest]
  split
  · exact h
  · refine h.ite (h.leaseRefused.ite (.same (s := List.foldl _ _ _) ?_))
    exact h.foldl fun _ h => by
      split
      · exact h.requestPage.ite h
      · exact h

theorem State.Inv.leaseTaken (h : s.Inv) {q} : (s.leaseTaken q).Inv := by
  dsimp only [State.leaseTaken]
  split
  · exact h.same.onKernel
  · exact h.same.onKernel.ite h.same
  · exact h.setAdded.same

theorem State.Inv.leaseGranted (h : s.Inv) {id} : (s.leaseGranted id).Inv := by
  dsimp only [State.leaseGranted]
  split
  · exact h
  · split
    · exact h
    · split
      · exact h.leaseRefused
      · exact h
      · split
        · exact h.same
        · exact h.fresh.same.leaseTaken.ite h

theorem State.Inv.stealNext (h : s.Inv) {c} : (s.stealNext c).Inv := by
  dsimp only [State.stealNext]
  split <;> exact h.same

theorem State.Inv.stealRequest (h : s.Inv) {c} : (s.stealRequest c).Inv := by
  dsimp only [State.stealRequest]
  split
  · split
    · exact (h.foldl fun _ h => h.reachLogs).stealNext.ite (h.foldl fun _ h => h.reachLogs).setCore
    · exact (h.foldl fun _ h => h.reachLogs).stealNext
  · exact h.foldl fun _ h => h.reachLogs

theorem State.Inv.stealBackoff (h : s.Inv) {c} : (s.stealBackoff c).Inv := by
  dsimp only [State.stealBackoff]
  split
  · exact h.same.ite h
  · exact h

theorem State.Inv.logSteal (h : s.Inv) {r victim thief} : (s.logSteal r victim thief).Inv := by
  dsimp only [State.logSteal]
  split
  · exact h.logAppend
  · exact h.same
  · exact h

theorem State.Inv.stealAtVictim (h : s.Inv) {thief} : (s.stealAtVictim thief).Inv := by
  dsimp only [State.stealAtVictim]
  split
  · exact h
  · split
    · exact h
    · split
      · exact h.same
      · exact h.same.logSteal.setCore

theorem State.Inv.stealReply (h : s.Inv) {c} : (s.stealReply c).Inv := by
  dsimp only [State.stealReply]
  split
  · split
    · exact h.same.ite h
    · exact h.same
  · exact h

theorem State.Inv.acceptInbound (h : s.Inv) {c r} : (s.acceptInbound c r).Inv := h.clearFuture.same.liveUp

theorem State.Inv.spawnFault (h : s.Inv) {m code} : (s.spawnFault m code).Inv := h.same.takeFault

theorem State.Inv.peerInbound (h : s.Inv) {m} : (s.peerInbound m).Inv := by
  dsimp only [State.peerInbound]
  split
  · exact h.peerAnswer.same
  · exact h.peerAnswer.same.ite (h.peerAnswer.spawnFault.ite h.peerAnswer.same)

theorem State.Inv.peerRecord (h : s.Inv) {a} : (s.peerRecord a).Inv := by
  dsimp only [State.peerRecord]
  refine h.ite ((h.tagged.peerReply.ite h.tagged).ite ?_)
  split
  · exact h.tagged.peerReply
  · refine h.tagged.peerReply.ite (State.Inv.ite ?_ ?_)
    · exact ((h.tagged.bump.fresh.setCore.setPeerRefused _).ite h.tagged.bump.fresh).peerReply
    · split
      · exact h.futureReady.snd ‹_›
      · exact (h.futureReady.snd ‹_›).tagged.fresh.acceptInbound.peerReply

theorem State.Inv.inboundArrival (h : s.Inv) {id} : (s.inboundArrival id).Inv := by
  dsimp only [State.inboundArrival]
  split
  · exact h
  · split
    · exact h
    · split
      · exact h.spawnFault.ite h.peerInbound
      · split
        · exact h.same
        · split
          · exact h.same
          · split
            · exact h.futureReady.snd ‹_›
            · exact (h.futureReady.snd ‹_›).acceptInbound.same

theorem State.Inv.spawnrEnds (h : s.Inv) {m v} : (s.spawnrEnds m v).Inv := h.same.ite h.same

theorem State.Inv.spawnrReply (h : s.Inv) {id} : (s.spawnrReply id).Inv := by
  dsimp only [State.spawnrReply]
  split
  · exact h
  · exact h.ite (h.spawnrEnds.ite (h.spawnFault.ite ((h.same.ite h.same).ite h.spawnrEnds.same)))

theorem State.Inv.inboundGrant (h : s.Inv) {c} : (s.inboundGrant c).Inv := by
  dsimp only [State.inboundGrant]
  split
  · exact h
  · split
    · split <;> exact h.same
    · exact h

theorem State.Inv.spawnrResend (h : s.Inv) {id} : (s.spawnrResend id).Inv := by
  dsimp only [State.spawnrResend]
  split
  · exact h
  · exact h.same.ite (h.same.ite h)

/-! ## The queue front end (R297 to R306) -/

theorem State.Inv.frontRead (h : s.Inv) {ctx p n} : (s.frontRead ctx p n).2.2.Inv := h.rangeRead

theorem State.Inv.frontReach (h : s.Inv) {ctx p write} : (s.frontReach ctx p write).2.2.Inv := by
  dsimp only [State.frontReach]
  split
  · exact h
  · exact h.serve

theorem State.Inv.stopAt (h : s.Inv) {q code addr region} : (s.stopAt q code addr region).Inv :=
  h.regionFault.setQueState.setFld.setQueue.setWaits _

theorem State.Inv.stopQueue (h : s.Inv) {q code region} : (s.stopQueue q code region).Inv := h.stopAt

theorem State.Inv.stopStarted (h : s.Inv) {q ctx code addr region} : (s.stopStarted q ctx code addr region).Inv :=
  h.stopAt.same.ite h.regionFault

theorem State.Inv.readSlot (h : s.Inv) {q} : (s.readSlot q).Inv := by
  dsimp only [State.readSlot]
  split
  · exact h
  · split
    · exact h.stopQueue
    · split
      · exact (h.frontRead.thd ‹_›).same
      · exact (h.frontRead.thd ‹_›).stopQueue
      · have h := h.frontRead.thd ‹_›
        exact h.same.setQueue.ite h.same.setQueue.startPoll

theorem State.Inv.advance (h : s.Inv) {q} : (s.advance q).Inv := h.same.readSlot.ite (h.same.ite h.same).setFld.readSlot

theorem State.Inv.packet (h : s.Inv) {q type} {eff : State → Nat → State} (he : ∀ {s : State} v, s.Inv → (eff s v).Inv) :
    (s.packet q type eff).Inv := by
  refine h.ite ?_
  split
  · exact h.readSlot
  · exact h.ite (h.stopQueue.ite (he _ h))

theorem State.Inv.startPacket (h : s.Inv) {q barrier region finished} {more : State → Nat → State}
    (hm : ∀ {s : State} n, s.Inv → (more s n).Inv) : (s.startPacket q barrier region finished more).Inv := (hm _ h.same).advance

theorem State.Inv.queueEnable (h : s.Inv) {q v} : (s.queueEnable q v).Inv :=
  h.setReg.setQueState.setFld.setFld.setQueue.startPoll.ite h

theorem State.Inv.queueDisable (h : s.Inv) {q v} : (s.queueDisable q v).Inv := h.same.ite h

theorem State.Inv.queueRun (h : s.Inv) {q v} : (s.queueRun q v).Inv := h.same.readSlot.ite h

theorem State.Inv.queuePoll (h : s.Inv) {q} : (s.queuePoll q).Inv := h.readSlot.ite (h.same.readSlot.ite h)

theorem State.Inv.launchPacket (h : s.Inv) {q} : (s.launchPacket q).Inv :=
  h.packet fun _ h => h.stopQueue.ite (h.startPacket fun _ h => h.same)

theorem State.Inv.graphStart (h : s.Inv) {q} : (s.graphStart q).Inv := by
  dsimp only [State.graphStart]
  refine h.packet fun _ h => h.stopQueue.ite (h.stopQueue.ite (h.stopQueue.ite (h.stopQueue.ite ?_)))
  split
  · exact h.frontRead.thd ‹_›
  · exact (h.frontRead.thd ‹_›).stopQueue
  · split
    · exact (h.frontRead.thd ‹_›).stopQueue
    · exact (h.frontRead.thd ‹_›).fresh.startPacket fun _ h => h.same

theorem State.Inv.nodeRefused (h : s.Inv) {g i code image region} : (s.nodeRefused g i code image region).Inv :=
  h.regionFault.same.onGraph

theorem State.Inv.graphLaunch (h : s.Inv) {g i} : (s.graphLaunch g i).Inv := by
  dsimp only [State.graphLaunch]
  split
  · exact h.same
  · split
    · exact h.nodeRefused
    · split
      · exact h.frontRead.thd ‹_›
      · exact (h.frontRead.thd ‹_›).nodeRefused
      · have h := h.frontRead.thd ‹_›
        exact h.nodeRefused.ite h.same.onGraph

theorem State.Inv.graphOver (h : s.Inv) {g} : (s.graphOver g).Inv := h.same.ite h.same.stopStarted

theorem State.Inv.graphStep (h : s.Inv) {q} : (s.graphStep q).Inv := by
  dsimp only [State.graphStep]
  split
  · split
    · exact h.graphLaunch.ite h
    · exact h.graphOver
  · exact h.graphStart

theorem State.Inv.copyPacket (h : s.Inv) {q} : (s.copyPacket q).Inv :=
  h.packet fun _ h => h.stopQueue.ite (h.stopQueue.ite (h.ite (h.startPacket fun _ h => h.same)))

theorem State.Inv.barrierAdd (h : s.Inv) {q} : (s.barrierAdd q).Inv := by
  dsimp only [State.barrierAdd]
  exact h.packet fun _ h => by
    split
    · exact h.stopQueue
    · split
      · exact h.frontReach.thd ‹_›
      · exact (h.frontReach.thd ‹_›).startPacket fun _ h => h.settleAt.addWord
      · exact (h.frontReach.thd ‹_›).stopQueue

theorem State.Inv.barrierWait (h : s.Inv) {q} : (s.barrierWait q).Inv := by
  dsimp only [State.barrierWait]
  exact h.packet fun _ h => by
    split
    · split
      · exact h.ite h.stopQueue
      · exact h.same.advance
      · exact h
      · split
        · exact (h.frontReach.thd ‹_›).stopQueue
        · exact h.frontReach.thd ‹_›
    · split
      · exact h.stopQueue
      · split
        · exact h.stopQueue
        · exact h.fresh.same

theorem State.Inv.linkRelease (h : s.Inv) {q} : (s.linkRelease q).Inv :=
  h.packet fun _ h => h.stopQueue.ite (h.stopQueue.ite (h.stopQueue.ite h.same.advance))

theorem State.Inv.linkWait (h : s.Inv) {q} : (s.linkWait q).Inv :=
  h.packet fun _ h => h.stopQueue.ite (h.stopQueue.ite (h.ite h.same.advance))

theorem State.Inv.publishPacket (h : s.Inv) {q} : (s.publishPacket q).Inv :=
  h.packet fun _ h => h.stopQueue.ite (h.startPacket fun _ h => h.publish)

theorem State.Inv.marker (h : s.Inv) {q} : (s.marker q).Inv := by
  dsimp only [State.marker]
  exact h.packet fun _ h => by
    split
    · exact h.advance
    · split
      · exact h.stopQueue
      · split
        · exact h.frontReach.thd ‹_›
        · exact (h.frontReach.thd ‹_›).startPacket fun _ h => h.same.regionFault.ite h.settleAt.storeAt
        · exact (h.frontReach.thd ‹_›).stopQueue

theorem State.Inv.execInvalidPacket (h : s.Inv) : NextInv (execInvalidPacket s) := by
  dsimp only [Machine.execInvalidPacket]
  split
  · exact h
  · split
    · exact h.readSlot
    · exact h.stopQueue.ite h

theorem State.Inv.packetComplete (h : s.Inv) {q pkt} : (s.packetComplete q pkt).Inv := by
  dsimp only [State.packetComplete]
  split
  · exact h
  · split
    · exact h.same
    · split
      · exact h.frontReach.thd ‹_›
      · exact (h.frontReach.thd ‹_›).settleAt.addWord.same
      · exact (h.frontReach.thd ‹_›).same.stopStarted

/-! ## Kernels from entry to end (R311 to R316) -/

theorem State.Inv.launchLeases (h : s.Inv) {k words} : (s.launchLeases k words).Inv := (h.foldl fun _ h => h.fresh.same).onKernel

theorem State.Inv.launchRead (h : s.Inv) {k} : (s.launchRead k).Inv := by
  dsimp only [State.launchRead]
  split
  · exact h.frontReach.thd ‹_›
  · have h := h.frontReach.thd ‹_›
    split
    · exact h.settleAt.readT.descsReady.snd ‹_›
    · have h := h.settleAt.readT.descsReady.snd ‹_›
      exact h.launchFail.ite h.unitStore.unitStore.onKernel.launchLeases
  · exact (h.frontReach.thd ‹_›).launchFail

theorem State.Inv.entryTaken (h : s.Inv) : s.entryTaken.Inv := by
  dsimp only [State.entryTaken]
  split
  · split
    · exact h.same.launchFail
    · exact h.same.launchRead
  · exact h

theorem State.Inv.rootPlacement (h : s.Inv) {tag} : (s.rootPlacement tag).Inv := by
  dsimp only [State.rootPlacement]
  split
  · exact h
  · split
    · exact h
    · split
      · exact h.launchRead
      · split
        · exact h
        · split
          · exact h.launchFail
          · exact h.same

theorem State.Inv.applyMode (h : s.Inv) {ctx} : (s.applyMode ctx).Inv := h.ite h.same

theorem State.Inv.kernelDone (h : s.Inv) {tag} : (s.kernelDone tag).Inv := by
  dsimp only [State.kernelDone]
  split
  · exact h
  · split
    · exact h.settleWhere.same.applyMode.launchCancelled.ite h.settleWhere.same.applyMode.launchOver
    · exact h

theorem State.Inv.cancelRegion (h : s.Inv) {region} : (s.cancelRegion region).Inv := h.foldl fun _ h => h.cancelWhere

theorem State.Inv.regionHandler (h : s.Inv) {r w f seq} : (s.regionHandler r w f seq).Inv := by
  dsimp only [State.regionHandler]
  split
  · exact h
  · exact h.handle

theorem State.Inv.regionWatchdog (h : s.Inv) {r} : (s.regionWatchdog r).Inv := by
  dsimp only [State.regionWatchdog]
  split
  · exact h
  · split
    · exact h
    · split
      · exact h.writeRecord.same.endDomain
      · exact h.writeRecord.same.regionHandler
      · exact h.writeRecord.same

/-! ## Contexts and their scrubs (R319 to R323) -/

theorem State.Inv.contextOpen (h : s.Inv) {n} : (s.contextOpen n).Inv :=
  h.ite ((h.foldl fun _ h => h.same).setReg.setReg.setCtx.ite h.same)

theorem State.Inv.contextClose (h : s.Inv) {n} : (s.contextClose n).Inv := h.same.cancelWhere.ite h

theorem State.Inv.clusterRelease (h : s.Inv) {n} : (s.clusterRelease n).Inv := h.ite h.same

theorem State.Inv.ctxRun (h : s.Inv) {n cmd} : (s.ctxRun n cmd).Inv := by
  dsimp only [State.ctxRun]
  split
  · exact h.contextOpen
  · exact h.contextClose
  · exact h.clusterRelease
  · exact h

theorem State.Inv.afterPort0 (h : s.Inv) {i p} {act : State → State} (ha : ∀ {s : State}, s.Inv → (act s).Inv) :
    (s.afterPort0 i p act).Inv := by
  dsimp only [State.afterPort0]
  split
  · exact h.same
  · exact ha h

theorem State.Inv.hostTurn (h : s.Inv) {i} {act : State → State} (ha : ∀ {s : State}, s.Inv → (act s).Inv) :
    NextInv (s.hostTurn i act) := (h.afterPort0 ha).ite h

theorem State.Inv.ctxCommand (h : s.Inv) {n cmd} : (s.ctxCommand n cmd).Inv := h.same.ite h.ctxRun

theorem State.Inv.ctxArrives (h : s.Inv) {i cmd} : NextInv (s.ctxArrives i cmd) := h.hostTurn fun h => h.ctxCommand

theorem State.Inv.scrubCores (h : s.Inv) {cores n} : (s.scrubCores cores n).Inv :=
  h.foldl fun _ h => h.setMem (Memory.wf_clear h.1 ..)

theorem State.Inv.scrubCsp (h : s.Inv) {n} : (s.scrubCsp n).Inv :=
  h.setMem (Memory.wf_foldl _ _ (fun _ _ hm => Memory.wf_clear hm ..) h.1)

theorem State.Inv.scrubRegs (h : s.Inv) {n} : (s.scrubRegs n).Inv := h.foldl fun _ h => h.same

theorem State.Inv.scrub (h : s.Inv) {cores n} : (s.scrub cores n).Inv := h.scrubCores.scrubCsp.same.scrubRegs

theorem State.Inv.releaseComplete (h : s.Inv) {n} : (s.releaseComplete n).Inv := h.ite h.scrub.setReg.setReg.setCtx

theorem State.Inv.contextDrained (h : s.Inv) {n} : (s.contextDrained n).Inv := h.same.ite h

theorem State.Inv.scrubComplete (h : s.Inv) {n} : (s.scrubComplete n).Inv := by
  dsimp only [State.scrubComplete]
  have hu := h.scrub (cores := maskCores (s.ctxClusters n)) (n := n)
  generalize s.scrub (maskCores (s.ctxClusters n)) n = u at hu ⊢
  exact State.Inv.ite hu.same h

theorem State.Inv.semAcquire (h : s.Inv) {port} : (s.semAcquire port).Inv := by
  dsimp only [State.semAcquire]
  split
  · exact h.same.ite h.same
  · exact h.same

theorem State.Inv.semRelease (h : s.Inv) {port v} : (s.semRelease port v).Inv := (h.same.ite h).setFld.ite (h.same.ite h)

theorem State.Inv.spadSplitWrite (h : s.Inv) {c v} : (s.spadSplitWrite c v).Inv := h.same.ite h

/-! ## Page commands and the pages' steps (R337 to R345) -/

theorem State.Inv.endCmd (h : s.Inv) {q ia result freed} : (s.endCmd q ia result freed).Inv := h.same.postRing

theorem State.Inv.cmdStep (h : s.Inv) {id op} {eff : State → PageCmd → State} (he : ∀ {s : State} q, s.Inv → (eff s q).Inv) :
    (s.cmdStep id op eff).Inv := by
  dsimp only [State.cmdStep]
  split
  · exact h
  · exact h.ite ((h.ite h.same.endCmd).ite (he _ h.same))

theorem State.Inv.pageMigrate (h : s.Inv) {id} : (s.pageMigrate id).Inv := by
  dsimp only [State.pageMigrate]
  exact h.cmdStep fun _ h => by
    split
    · exact (h.walk.snd ‹_›).endCmd
    · have h := h.walk.snd ‹_›
      split
      · exact h
      · split
        · exact (h.same.ite h).endCmd
        · exact (h.same.ite h).endCmd.ite ((h.same.ite h).endCmd.ite (h.ite (h.same.ite h.same)))

theorem State.Inv.pageEvict (h : s.Inv) {id} : (s.pageEvict id).Inv := by
  dsimp only [State.pageEvict]
  exact h.cmdStep fun _ h => by
    split
    · exact h
    · split
      · exact h.endCmd
      · exact h.same.ite h.endCmd

theorem State.Inv.endMove (h : s.Inv) {n l p} : (s.endMove n l p).Inv := (h.same.ite h.same).flushHeld

theorem State.Inv.drain (h : s.Inv) {n l} : (s.drain n l).Inv := by
  dsimp only [State.drain]
  split
  · exact h
  · exact h.same
  · exact h.same
  · exact h.same

theorem State.Inv.pageUnmap (h : s.Inv) {id} : (s.pageUnmap id).Inv :=
  h.cmdStep fun _ h => h.endCmd.ite (h.endCmd.ite (h.ite (h.foldl fun _ h => h.drain).flushHeld))

theorem State.Inv.writeBackPage (h : s.Inv) {n l} : (s.writeBackPage n l).Inv := h.writeBack

theorem State.Inv.drainDone (h : s.Inv) {n ia} : (s.drainDone n ia).Inv := by
  dsimp only [State.drainDone]
  split
  · exact h.walk.snd ‹_›
  · have h := h.walk.snd ‹_›
    exact ((h.writeBackPage.pteWrite.setPage.setPageUse _).foldl fun _ h => h.endCmd.ite h).ite h

theorem State.Inv.pageSync (h : s.Inv) {id} : (s.pageSync id).Inv :=
  h.cmdStep fun _ h => State.Inv.endCmd (.flushHeld h.same)

theorem State.Inv.spansCommand (h : s.Inv) {id core} : (s.spansCommand id core).Inv :=
  h.cmdStep fun _ h => (h.same.endCmd.ite h.same).ite (h.same.endCmd.ite h.same)

theorem State.Inv.collapseComplete (h : s.Inv) {n ia} : (s.collapseComplete n ia).Inv := by
  dsimp only [State.collapseComplete]
  split
  · exact h.walk.snd ‹_›
  · have h := h.walk.snd ‹_›
    exact h.pteWrite.endMove.ite (h.pteWrite.setPage.ite h)

theorem State.Inv.migrationDone (h : s.Inv) {n ia} : (s.migrationDone n ia).Inv := by
  dsimp only [State.migrationDone]
  split
  · exact h.walk.snd ‹_›
  · have h := h.walk.snd ‹_›
    split
    · exact h
    · refine State.Inv.ite (.endCmd (.endMove (.pteWrite (.rekey (.setMem (s := (State.claimPage ..)) ?_ ?_))))) h
      · exact h.writeBackPage.claimPage
      · exact Memory.wf_copyTo h.writeBackPage.claimPage.1 ..

/-! ## Links, routers, peers and hosts (R347 to R362) -/

theorem State.Inv.rankDown (h : s.Inv) {finish r} : (s.rankDown finish r).Inv := by
  dsimp only [State.rankDown]
  exact (((h.foldl fun _ h => h.homeFault).foldl fun _ h => h.spawnFault).foldl fun _ h => h.waitFault).foldl fun _ h => by
    split
    · exact h.cmdFault
    · exact h

theorem State.Inv.portDown (h : s.Inv) {p finish} : (s.portDown p finish).Inv := h.same.foldl fun _ h => h.rankDown

theorem State.Inv.meshDown (h : s.Inv) {n} : (s.meshDown n).Inv := h.same.foldl fun _ h => h.regionFault

theorem State.Inv.linkLost (h : s.Inv) {n} : (s.linkLost n).Inv := h.portDown.ite (h.same.ite h.meshDown)

theorem State.Inv.trainStart (h : s.Inv) {n v} : (s.trainStart n v).Inv :=
  ((h.same.ite h.same).ite h).setLink.ite ((h.same.ite h.same).ite h)

theorem State.Inv.trained (h : s.Inv) {n} : (s.trained n).Inv := h.same.ite h

theorem State.Inv.trainTimeout (h : s.Inv) {n} : (s.trainTimeout n).Inv := (h.same.ite h).linkLost.ite h

theorem State.Inv.linkDisable (h : s.Inv) {n v} : (s.linkDisable n v).Inv := ((h.same.ite h.same).portDown.ite (h.same.ite h.same)).ite h

theorem State.Inv.countResend (h : s.Inv) {n k} : (s.countResend n k).Inv := h.same.ite (h.ite h.same)

theorem State.Inv.badFlit (h : s.Inv) {n k seq corrected} : (s.badFlit n k seq corrected).Inv := by
  dsimp only [State.badFlit]
  split
  · exact h.same.ite h
  · split
    · exact h.same.countResend
    · exact h.same.countResend.ite (h.linkLost.ite h.same.countResend)
    · exact h

theorem State.Inv.retryExhausted (h : s.Inv) {n} : (s.retryExhausted n).Inv := h.linkLost.ite h

theorem State.Inv.outputTurn (h : s.Inv) {r key others flits} : (s.outputTurn r key others flits).Inv := by
  dsimp only [State.outputTurn]
  split
  · exact h
  · split
    · exact h
    · split
      · exact h
      · exact h.same

theorem State.Inv.routerForward (h : s.Inv) {id n others flits} : (s.routerForward id n others flits).Inv := by
  dsimp only [State.routerForward]
  split
  · exact h
  · split
    · exact h
    · split
      · exact h
      · exact (State.Inv.iteSnd h.fresh h).setRouter.flitMeets.onAccess
      · exact h.same

theorem State.Inv.vcPromote (h : s.Inv) {n key} : (s.vcPromote n key).Inv := h.same.ite h

theorem State.Inv.routerPowerDown (h : s.Inv) {n} : (s.routerPowerDown n).Inv := h.same.ite h

theorem State.Inv.routerWake (h : s.Inv) {n other} : (s.routerWake n other).Inv := by
  dsimp only [State.routerWake]
  split
  · exact h
  · split
    · exact h.same
    · exact h.same
    · exact h

theorem State.Inv.routerWakeDone (h : s.Inv) {n} : (s.routerWakeDone n).Inv := h.same.ite h

theorem State.Inv.rangeGate (h : s.Inv) {t n task write} : (s.rangeGate t n task write).2.Inv := by
  dsimp only [State.rangeGate]
  split
  · have h := h.gate.snd ‹_›
    split
    · exact h.gate.snd ‹_›
    · exact h.gate
  · exact h.gate

theorem State.Inv.peerPerform (h : s.Inv) {a t k} : (s.peerPerform a t k).Inv := by
  dsimp only [State.peerPerform]
  have h := (h.settleAt (t := t) (n := a.size)).readT (t := t) (o := 0) (n := a.size)
  have ho := h.overtakes (t := t) (n := a.size) (core := 1536) (uid := 64)
  split
  · exact (ho.ite h).furtherWords.peerReply
  · exact h.countProtect.peerReply.ite h.storeAt.peerReply
  · refine (ho.ite h).countProtect.peerReply.ite ((ho.ite h).addWord.peerReply.ite ((ho.ite h).peerReply.ite ?_))
    exact (ho.ite h).writeT.joinChain.wakeAt.peerReply

theorem State.Inv.peerPending (h : s.Inv) {a t} : (s.peerPending a t).Inv := by
  dsimp only [State.peerPending]
  refine h.tagged.countProtect.peerReply.ite ?_
  split
  · exact (State.Inv.iteSnd h h.spillReach).snd ‹_›
  · have h := ((State.Inv.iteSnd h h.spillReach).snd ‹_›)
    refine State.Inv.peerReply (.ite (.bump (.settleAt ?_)) ?_)
    · exact (h.tagged.setPending _).joinChain
    · exact (h.tagged.setPending _).joinChain

theorem State.Inv.peerServe (h : s.Inv) {a t} : (s.peerServe a t).Inv := by
  dsimp only [State.peerServe]
  split
  · refine .same (s := (State.fresh ..).2) ?_
    exact h.same.fresh
  · exact h.same.binitAt.peerReply
  · exact h.same.bdropAt.peerReply
  · exact h.peerPending
  · exact h.same.peerPerform

theorem State.Inv.peerAccess (h : s.Inv) {a} : (s.peerAccess a).Inv := by
  dsimp only [State.peerAccess]
  split
  · exact h
  · split
    · exact h.same.ite h.same
    · split
      · exact h.same
      · split
        · exact h.rangeGate.snd ‹_›
        · exact (h.rangeGate.snd ‹_›).same.peerReply
        · exact (h.rangeGate.snd ‹_›).peerServe

theorem State.Inv.hostApply (h : s.Inv) {port off size v} : (s.hostApply port off size v).2.Inv := by
  dsimp only [State.hostApply]
  split
  · exact h.same
  · split
    · exact h.rangeGate.snd ‹_›
    · exact (h.rangeGate.snd ‹_›).same
    · have h := h.rangeGate.snd ‹_›
      split
      · exact h.same.regionFault
      · exact h.settleAt.storeAt

theorem State.Inv.hostDrain (h : s.Inv) {port l} : (s.hostDrain port l).Inv := by
  induction l generalizing s with
  | nil => exact h.same
  | cons x l ih =>
    dsimp only [State.hostDrain]
    split
    · exact ih (h.hostApply.snd ‹_›)
    · exact (h.hostApply.snd ‹_›).same

theorem State.Inv.hostWrite (h : s.Inv) {port off size v ide} : (s.hostWrite port off size v ide).Inv := h.ite h.hostDrain

theorem State.Inv.hostRead (h : s.Inv) {port off size ide} : (s.hostRead port off size ide).Inv := by
  dsimp only [State.hostRead]
  split
  · exact h
  · split
    · exact h.same
    · split
      · exact h
      · split
        · exact h.rangeGate.snd ‹_›
        · exact (h.rangeGate.snd ‹_›).same.furtherWords.hostReads
        · exact (h.rangeGate.snd ‹_›).settleAt.same.readT.furtherWords.hostReads

theorem State.Inv.uncorrectable (h : s.Inv) {a} : (s.uncorrectable a).Inv := by
  dsimp only [State.uncorrectable]
  split
  · exact h.writeRecord.same.endTask.endDomain.ite h
  · exact h.regionFault.ite h
  · split
    · exact h.regionFault.endDomain
    · exact h

/-! ## The part: boot, hand-over and images (R402 to R409) -/

theorem State.Inv.control (h : s.Inv) {port} {eff : State → State} (he : ∀ {s : State}, s.Inv → (eff s).Inv) :
    (s.control port eff).Inv := (he h).ite h.same

theorem State.Inv.romBoot (h : s.Inv) : s.romBoot.Inv := h.same.ite (h.same.ite h.same)

theorem State.Inv.powerGood (h : s.Inv) {strap} : (s.powerGood strap).Inv := h.same.romBoot.ite h

theorem State.Inv.partReset (h : s.Inv) : s.partReset.Inv := h.same.ite h.same.romBoot

theorem State.Inv.bistComplete (h : s.Inv) {failed path} : (s.bistComplete failed path).Inv := h.ite (h.same.ite h.same)

theorem State.Inv.handoverStart (h : s.Inv) : s.handoverStart.Inv := h.same.ite h

/-- Writing a firmware image to the flash keeps the canonical form. -/
theorem Memory.wf_flashWrite {m : Memory} (h : Memory.wf m = true) (a : Nat) (b : List Byte) :
    Memory.wf (flashWrite m a b) = true := by
  induction b generalizing m a with
  | nil => exact h
  | cons v b ih => exact ih (Memory.wf_setByte h _ _) _

theorem State.Inv.imageWhole (h : s.Inv) {b} : (s.imageWhole b).Inv := by
  refine (h.same.ite h.same).ite ⟨h.1, ?_⟩
  dsimp only
  split
  · exact Memory.wf_flashWrite h.2 ..
  · exact h.2

theorem State.Inv.fwImage (h : s.Inv) {v} : (s.fwImage v).Inv := (h.same.imageWhole.ite h.same).ite h

theorem State.Inv.handoverCommit (h : s.Inv) : s.handoverCommit.Inv := h.same.ite h

theorem State.Inv.flushCtxCmds (h : s.Inv) : s.flushCtxCmds.Inv := h.same.foldl fun _ h => h.ctxRun

theorem State.Inv.fwStatRead (h : s.Inv) {port} : (s.fwStatRead port).Inv := h.same.flushCtxCmds.ite h.same

theorem State.Inv.attest (h : s.Inv) {nonce} : (s.attest nonce).Inv := h.same.ite h

theorem State.Inv.commandMessage (h : s.Inv) {l send} : (s.commandMessage l send).Inv := h.ite (h.fresh.same.ite h.same)

theorem State.Inv.firmwareTimeout (h : s.Inv) {l} : (s.firmwareTimeout l).Inv := (h.same.foldl fun _ h => h.regionFault).ite h

theorem State.Inv.droopEvent (h : s.Inv) {c mv} : (s.droopEvent c mv).Inv := h.same.ite h

theorem State.Inv.sensors (h : s.Inv) {c temp mv} : (s.sensors c temp mv).Inv := h.same.droopEvent.ite h.same

theorem State.Inv.reefInterval (h : s.Inv) {a} : (s.reefInterval a).Inv := (h.same.sensors.ite h.same).ite h

theorem State.Inv.droopEnd (h : s.Inv) {cluster} : (s.droopEnd cluster).Inv := h.same.ite h

/-! ## The debugger (R410) -/

theorem State.Inv.dbgCommand (h : s.Inv) {port w op} {eff : State → DWord → State} (he : ∀ {s : State} w, s.Inv → (eff s w).Inv) :
    (s.dbgCommand port w op eff).Inv := by
  dsimp only [State.dbgCommand]
  split
  · exact ((he _ h).ite h.same).ite h
  · exact h.ite (h.control fun h => (he _ h).ite h.same)

theorem State.Inv.dbgTurn (h : s.Inv) {i op} {eff : State → DWord → State} (he : ∀ {s : State} w, s.Inv → (eff s w).Inv) :
    NextInv (s.dbgTurn i op eff) := by
  dsimp only [State.dbgTurn]
  split
  · exact h.dbgCommand he
  · exact h.hostTurn fun h => h.dbgCommand he

theorem State.Inv.dbgHalt (h : s.Inv) {w} : (s.dbgHalt w).Inv := h.ite (h.same.ite h.same)

theorem State.Inv.dbgSlotEvent (h : s.Inv) {kind c k strand} : (s.dbgSlotEvent kind c k strand).Inv := h.dbgEvent

theorem State.Inv.haltComplete (h : s.Inv) {c k} : (s.haltComplete c k).Inv := by
  dsimp only [State.haltComplete]
  split
  · split
    · exact (h.same.dbgSlotEvent.dbgResult.ite h.same.dbgSlotEvent).ite h
    · exact h
  · exact (h.dbgSlotEvent.same.ite h.same).ite h

theorem State.Inv.dbgRelease (h : s.Inv) {w} : (s.dbgRelease w).Inv := h.same.stopCheck.dbgResult.ite h.same

theorem State.Inv.dbgStep (h : s.Inv) {w} : (s.dbgStep w).Inv := by
  dsimp only [State.dbgStep]
  split
  · exact h.same
  · split <;> exact h.same

theorem State.Inv.endStep (h : s.Inv) {c k d} : (s.endStep c k d).Inv := h.same.dbgSlotEvent

theorem State.Inv.stepEnded (h : s.Inv) {c k} : (s.stepEnded c k).Inv := by
  dsimp only [State.stepEnded]
  split
  · exact h
  · exact h.endStep.ite h

theorem State.Inv.dbgCancel (h : s.Inv) {w} : (s.dbgCancel w).Inv := by
  dsimp only [State.dbgCancel]
  split
  · exact h.endStep.same.ite h.same
  · exact h.same

theorem State.Inv.dbgMove (h : s.Inv) {w write} {eff : State → Nat → Nat → State}
    (he : ∀ {s : State} c k, s.Inv → (eff s c k).Inv) : (s.dbgMove w write eff).Inv := by
  refine h.same.ite (h.same.ite ?_)
  split
  · exact (he _ _ (h.reach.snd ‹_›)).same
  · exact (h.reach.snd ‹_›).same
  · exact (h.reach.snd ‹_›).same

theorem State.Inv.dbgDump (h : s.Inv) {w} : (s.dbgDump w).Inv := h.dbgMove fun _ _ h => h.writeWords

theorem State.Inv.dbgLoad (h : s.Inv) {w} : (s.dbgLoad w).Inv := h.dbgMove fun _ _ h => h.readWords.same

theorem State.Inv.dbgEvtRead (h : s.Inv) {port} : (s.dbgEvtRead port).Inv := by
  dsimp only [State.dbgEvtRead]
  split <;> exact h.same

theorem State.Inv.detachSlot (h : s.Inv) {c k} : (s.detachSlot c k).Inv := h.same.ite ((h.endTask.ite h.same.stopCheck).ite h)

theorem State.Inv.dbgAttachWrite (h : s.Inv) {v} : (s.dbgAttachWrite v).Inv := h.same.foldl fun _ h => h.detachSlot

/-! ## Floating point and conversion (R132 to R149) -/

theorem State.Inv.execFp (h : s.Inv) {op p pl d srcs fn hs} : NextInv (execFp op p pl d srcs fn hs s) := h.simple fun _ _ h => h.vec

theorem State.Inv.execFp2 (h : s.Inv) {op p fn hs f} : NextInv (execFp2 op p fn hs f s) := h.execFp

theorem State.Inv.execFp1 (h : s.Inv) {op p fn hs f} : NextInv (execFp1 op p fn hs f s) := h.execFp

theorem State.Inv.execFp3 (h : s.Inv) {op p fn hs f} : NextInv (execFp3 op p fn hs f s) := h.execFp

theorem State.Inv.execFpBits (h : s.Inv) {op p fn hs f} : NextInv (execFpBits op p fn hs f s) := h.execFp

/-! ## Integer arithmetic and bits (R114 to R122) -/

theorem State.Inv.execInt2 (h : s.Inv) {op fn fl hs f} : NextInv (execInt2 op fn fl hs f s) := h.simple fun _ _ h => h.vec

theorem State.Inv.execInt1 (h : s.Inv) {op fn hs f} : NextInv (execInt1 op fn hs f s) := h.simple fun _ _ h => h.vec

/-! ## Management registers (R401, R411) -/

theorem State.Inv.ctxWrite (h : s.Inv) {n r v} : (s.ctxWrite n r v).Inv := h.same.ite h

theorem State.Inv.ctxCtlWrite (h : s.Inv) {n v} : (s.ctxCtlWrite n v).Inv := h.same.ite h.same.ctxCommand

theorem State.Inv.queCtlWrite (h : s.Inv) {q v} : (s.queCtlWrite q v).Inv :=
  (h.queueRun.ite h.queueDisable).ite (h.queueEnable.ite (h.same.ite h))

theorem State.Inv.cancelWrite (h : s.Inv) {v} : (s.cancelWrite v).Inv := h.cancelRegion.ite h.cancelKernel

theorem State.Inv.pageGo (h : s.Inv) {v} : (s.pageGo v).Inv := h.ite (h.same.ite h.fresh.same)

theorem State.Inv.portWrite (h : s.Inv) {n v} : (s.portWrite n v).Inv := h.trainStart.ite h.linkDisable

theorem State.Inv.fwCtlWrite (h : s.Inv) {v} : (s.fwCtlWrite v).Inv := h.same.partReset.ite (h.same.handoverStart.ite h.same)

theorem State.Inv.dbgWrite (h : s.Inv) {port v} : (s.dbgWrite port v).Inv := by
  dsimp only [State.dbgWrite]
  split
  · exact h
  · split
    · exact h.dbgCommand (fun _ h => h.dbgHalt)
    · exact h.dbgCommand (fun _ h => h.dbgRelease)
    · exact h.dbgCommand (fun _ h => h.dbgStep)
    · exact h.dbgCommand (fun _ h => h.dbgCancel)
    · exact h.dbgCommand (fun _ h => h.dbgDump)
    · exact h.dbgCommand (fun _ h => h.dbgLoad)
    · exact h

theorem State.Inv.writeReg (h : s.Inv) {port r v} : (s.writeReg port r v).Inv := by
  dsimp only [State.writeReg]
  split
  · exact h.spadSplitWrite
  · exact h.cpeKick
  · exact h.same
  · exact h.same
  · exact h.portWrite
  · exact h.same.flushNotices
  · exact h.same.applyMode
  · exact h.ite h.same
  · exact h.queCtlWrite
  · exact h.same.readSlot.ite (h.readSlot.ite h)
  · exact h.same
  · exact h.cancelWrite
  · exact h.semRelease
  · exact h.ctxCtlWrite
  · exact h.ctxWrite
  · exact h.ctxWrite
  · exact h.ctxWrite
  · exact h.ctxWrite
  · exact h.ctxWrite
  · exact h.ctxWrite
  · exact h.ctxWrite
  · exact h.ctxWrite
  · exact h.ctxWrite
  · exact h.pageGo
  · exact h.same.flushRing
  · exact h.fwCtlWrite
  · exact h.fwImage
  · exact h.same
  · exact h.dbgWrite
  · exact h.dbgAttachWrite
  · exact h.same

theorem State.Inv.registerWrite (h : s.Inv) {port addr size v} : (s.registerWrite port addr size v).Inv := by
  dsimp only [State.registerWrite]
  split
  · exact h
  · split
    · exact h
    · exact (h.control fun h => h.writeReg).ite h.writeReg

theorem State.Inv.barRead (h : s.Inv) {port addr size} : (s.barRead port addr size).Inv := by
  dsimp only [State.barRead]
  split
  · exact h.same
  · split
    · exact h.semAcquire
    · exact h.fwStatRead
    · exact h.dbgEvtRead
    · exact h.same

/-! ## The tile engine's steps (R266 to R295) -/

theorem State.Inv.tileStart (h : s.Inv) {c id} : (s.tileStart c id).Inv := by
  dsimp only [State.tileStart]
  split
  · exact h
  · exact h.same.ite h

theorem State.Inv.finishTld (h : s.Inv) {c o t d origin tr s4 strip} : (s.finishTld c o t d origin tr s4 strip).Inv := by
  dsimp only [State.finishTld]
  split
  · exact h.operandFault
  · split
    · exact h.boxRead.thd ‹_›
    · have h := h.boxRead.thd ‹_›
      exact h.operandFault.ite h.same.takeFault
    · have h := h.boxRead.thd ‹_›
      exact h.same.tileDone.ite (h.ite h.same)

theorem State.Inv.finishTst (h : s.Inv) {c o t d origin tr strip} : (s.finishTst c o t d origin tr strip).Inv := by
  dsimp only [State.finishTst]
  split
  · exact h.same.takeFault
  · split
    · exact h.boxReady.snd ‹_›
    · exact (h.boxReady.snd ‹_›).same.takeFault
    · have h := h.boxReady.snd ‹_›
      exact h.ite (h.boxWrite.same.tileDone.ite (h.boxWrite.same.ite h.boxWrite.same.tileMoved))

theorem State.Inv.finishMmas (h : s.Inv) {c o a ta tb tyA tyB mx} : (s.finishMmas c o a ta tb tyA tyB mx).Inv :=
  h.same.ite h.same.takeFault

theorem State.Inv.tileComplete (h : s.Inv) {c id} : (s.tileComplete c id).Inv := by
  dsimp only [State.tileComplete]
  split
  · exact h
  · refine h.ite ?_
    split
    · exact h.finishTld
    · exact h.finishTst
    · exact h.same
    · exact h.same
    · exact h.same
    · exact h.same
    · exact h.finishMmas
    all_goals exact h.same

theorem State.Inv.dropMdld (h : s.Inv) {c k} : (s.dropMdld c k).Inv := h.same.foldl fun _ h => h.same

theorem State.Inv.engineReset (h : s.Inv) {c} : (s.engineReset c).Inv :=
  (((h.same.foldl fun _ h => h.same).foldl fun _ h => h.dropMdld).setCore.foldl fun _ h => h.loseTask).bump

theorem State.Inv.execTileFetchFault (h : s.Inv) : NextInv (execTileFetchFault s) := by
  dsimp only [Machine.execTileFetchFault]
  split
  · exact h.operandFault.ite h
  · exact h

theorem State.Inv.execRelaunchPush (h : s.Inv) : NextInv (execRelaunchPush s) := by
  dsimp only [Machine.execRelaunchPush]
  split
  · exact h.same.ite h
  · exact h

/-! ## Uniform instructions (R128 to R131) -/

theorem State.Inv.execUni (h : s.Inv) {op fn hs f} : NextInv (execUni op fn hs f s) := h.simple fun _ _ h => h.retire

/-! ## Every instruction and every step of a unit -/

/-- The instructions that share an effect stand together; a step of a unit is its operation. -/
theorem State.Inv.exec (h : s.Inv) {i : Instr} : NextInv (Machine.exec i s) := by
  cases i with dsimp only [Machine.exec]
  | nop | emset | emget | red | ssel | smovi => exact h.simple fun _ _ h => h.retire
  | bra =>
    dsimp only [execBra]
    exact h.perform fun _ _ h => (h.transfer.ite h.flow).ite (h.transfer.ite (h.flow.ite h.flow))
  | brx => unfold execBrx; exact h.perform fun _ _ h => h.transfer
  | call | callx =>
    dsimp only [execCall, execCallx]
    exact h.perform fun _ _ h => h.call
  | ret => exact h.execRet
  | rcv => exact h.execRcv
  | fuse => exact h.execFuse
  | brk => exact h.execBrk
  | exit => unfold execExit; exact h.perform fun _ _ h => h.same.flow.ite h.flow
  | wait => unfold execWait; exact h.perform fun _ _ h => h.retire.ite h.same
  | park | bwait | joinF =>
    dsimp only [execPark, execBwait, execJoinF]
    exact h.perform fun _ _ h => h.waitOn
  | yield => unfold execYield; exact h.perform fun _ _ h => h.retire.same
  | trap => exact h.execTrap
  | bkpt => exact h.simple fun _ _ h => h.same.freezeSlot.dbgEvent.ite h.retire.same
  | iadd | isub | imul | imulh | nmulh | idiv | ndiv | irem | nrem | imin | imax | nmin | nmax | andL | orL | xorL | andn | shl
  | shrl | shra | rotl => exact h.execInt2
  | imad | iaddi | ldexp | frexp | sel | matchL | rank | scan | compact => exact h.simple fun _ _ h => h.vec
  | iabs | ineg | popc | clz | brev | mov => exact h.execInt1
  | bfx | bfi | bool3 | cvt | pack | unpk | fdot4 | idot4 | fclass | balance | xsel | fscan =>
    dsimp only [execBfx, execBfi, execBool3, execCvt, execPack, execUnpk, execFdot4, execIdot4, execFclass, execBalance,
      execXsel, execFscan]
    exact h.perform fun _ _ h => h.vec
  | fadd | fsub | fmul | fdiv | hxadd | hxmul | bxadd | bxmul | dadd | dmul | ddiv | sftm => exact h.execFp2
  | ffma | hxfma | bxfma | dfma => exact h.execFp3
  | fmin | fmax | fcpys | dmin | dmax => exact h.execFpBits
  | frnd | fsqrt | dsqrt | rcp | rsq | exp2 | log2 | sinp | cosp | tanh | sigm | hrcp | hexp2 => exact h.execFp1
  | icmp => unfold execIcmp; exact h.execCmp
  | ncmp | fcmp | dcmp => exact h.execCmp
  | pand | por | pxor | pandn => exact h.execPred2
  | pset | vote | elect | qset | qget | xput | scmp | sset | thresh | ablk =>
    dsimp only [execPset, execVote, execElect, execQset, execQget, execXput, execScmp, execSset, execThresh, execAblk]
    exact h.perform fun _ _ h => h.retire
  | pget | pcnt | pff => exact h.execPredS
  | fred => unfold execFred; exact h.perform fun _ _ h => h.settle
  | sadd | ssub | smul | sand | sor | sxor | sshl | sshrl | sshra | smin | smax => exact h.execUni
  | sget => unfold execSget; exact h.perform fun _ _ h => h.decideFor.retire.ite h.retire
  | ld | st | ldu | stu | ldln | cinv | cwb | amon | badd | publish | probe | event =>
    dsimp only [execLd, execSt, execLdu, execStu, execLdln, execCinv, execCwb, execAmon, execBadd, execPublish, execProbe,
      execEvent]
    exact h.perform fun _ _ h => h.post
  | ldd | std =>
    dsimp only [execLdd, execStd]
    exact h.perform fun _ _ h => h.withDesc fun _ => h.post
  | pref => exact h.execPref
  | fence => unfold execFence; exact h.perform fun _ _ h => h.same.ite h.retire
  | atom | cas =>
    dsimp only [execAtom, execCas]
    exact h.perform fun _ _ h => h.postReturning
  | atomu | casu =>
    dsimp only [execAtomu, execCasu]
    exact h.perform fun _ _ h => h.atomUni
  | binit => unfold execBinit; exact h.perform fun _ _ h => (h.atBarrier fun _ h => h.binit).ite h.same
  | bdrop => exact h.execBdrop
  | copy | mdld =>
    dsimp only [execCopy, execMdld]
    exact h.perform fun _ _ h => h.postCopy
  | copyt => unfold execCopyt; exact h.perform fun _ _ h => h.withDesc fun _ => h.postCopy
  | kick => unfold execKick; exact h.perform fun _ _ h => h.same.ite h.fresh.same.retire
  | spawn => exact h.execSpawn
  | spawnr => exact h.execSpawnr
  | fset => unfold execFset; exact h.perform fun _ _ h => h.fresh.same.retire
  | execR => exact h.execExecR
  | lease => exact h.execLease
  | unlease => exact h.execUnlease
  | tld | tst =>
    dsimp only [execTld, execTst]
    exact h.perform fun _ _ h => h.withDesc fun _ => h.postTile
  | tzero | scout | ard | arow | ascale | aexp | azero => exact h.execTile
  | tcvt | mma | mmas =>
    dsimp only [execTcvt, execMma, execMmas]
    exact h.perform fun _ _ h => h.postTile
  | mmaq => exact h.execMmaq
  | mmak => unfold execMmak; exact h.perform fun _ _ h => h.postTile.ite h.retire
  | ordmark => exact h.simple fun _ _ h => h.decideFor.retire.ite h.retire
  | unassignedOpcode | seventhHintWord =>
    dsimp only [execUnassignedOpcode, execSeventhHintWord]
    exact h.perform fun _ _ h => h
  | claimServed => exact h.execClaimServed
  | slotBind => exact h.slotBind
  | taskEntry => exact h.taskEntry.stopCheck
  | compactionMove => exact h.compactionMove
  | compactionCopyEnd => exact h.compactionEnd
  | offCorePark => exact h.park
  | saveComplete => exact h.saveComplete
  | restoreGroup => exact h.restoreGroup
  | restoreComplete => exact h.restoreComplete
  | preemptRequest => exact h.preempt
  | preemptTimeout => exact h.execPreemptTimeout
  | taskEnd => exact h.taskEnd
  | counterRetire => exact h.counterRetire
  | loadComplete => exact h.loadComplete
  | storeAcknowledge => exact h.storeAck
  | memoryRequestAtHome => exact h.requestAtHome
  | atomicAtHome => exact h.atomicAtHome
  | deterministicAmonArrival => exact h.amonArrival
  | routerMerge => exact h.routerMerge
  | waitRequestAtHome => exact h.waitAtHome
  | waitRequestRetry => exact h.execWaitRequestRetry
  | wake => exact h.wake
  | descriptorFetch => exact h.descFetch
  | copySegment => exact h.copySegment
  | copyListEntry => exact h.listEntry
  | cpeKick => exact h.cpeKick
  | tileOpStart => exact h.tileStart
  | tileOpComplete => exact h.tileComplete
  | engineWatchdog => exact h.engineReset.ite h
  | blockScrubDone | leaseRenewal | leaseLapse | recordAvailable | recordAged | qlinkCfgWrite => exact h.same
  | tileFetchFault => exact h.execTileFetchFault
  | relaunchPush => exact h.execRelaunchPush
  | stagingStart => exact h.stagingStart
  | stagingComplete => exact h.stagingComplete
  | stagingFault => exact h.stagingFault
  | leaseRequest => exact h.leaseRequest
  | leaseGranted => exact h.leaseGranted
  | stealRequest => exact h.stealRequest
  | stealBackoff => exact h.stealBackoff
  | stealRequestAtVictim => exact h.stealAtVictim
  | stealReply => exact h.stealReply
  | inboundArrival => exact h.peerRecord.ite h.inboundArrival
  | spawnrReply => exact h.spawnrReply
  | inboundGrant => exact h.same.ite h.inboundGrant
  | spawnrResend => exact h.spawnrResend
  | queueEnable => exact h.queueEnable
  | queueDisable => exact h.queueDisable
  | queueRun => exact h.queueRun
  | queueDoorbell => exact h.same.readSlot.ite (h.readSlot.ite h)
  | queuePoll => exact h.queuePoll
  | launch => exact h.launchPacket
  | graph => exact h.graphStep
  | copyPacket => exact h.copyPacket
  | barrierAdd => exact h.barrierAdd
  | barrierWait => exact h.barrierWait
  | linkRelease => exact h.linkRelease
  | linkWait => exact h.linkWait
  | publishPacket => exact h.publishPacket
  | marker => exact h.marker
  | packetComplete => exact h.packetComplete
  | kernelEntryTaken => exact h.entryTaken
  | rootPlacement => exact h.rootPlacement
  | kernelDone => exact h.kernelDone
  | cancelKernel => exact h.cancelKernel
  | cancelRegion => exact h.cancelRegion
  | regionWatchdog => exact h.regionWatchdog
  | contextOpen | contextClose | clusterRelease => exact h.ctxArrives
  | releaseComplete => exact h.releaseComplete
  | contextDrained => exact h.contextDrained
  | scrubComplete => exact h.scrubComplete
  | semAcquire => exact h.hostTurn fun h => h.semAcquire
  | semRelease => exact h.hostTurn fun h => h.semRelease
  | semLapse | retryDone => exact h.same.ite h
  | spadSplitWrite => exact h.spadSplitWrite
  | ctxFqHeadRead => exact h.hostTurn fun h => h.same.setFld
  | pageMigrate => exact h.pageMigrate
  | pageEvict => exact h.pageEvict
  | pageUnmap => exact h.pageUnmap
  | pageSync => exact h.pageSync
  | spansCommand => exact h.spansCommand
  | collapseComplete => exact h.collapseComplete
  | migrationDone => exact h.migrationDone
  | drainDone => exact h.drainDone
  | linkTrainStart => exact h.trainStart
  | linkTrained => exact h.trained
  | linkTrainTimeout => exact h.trainTimeout
  | linkDisable => exact h.linkDisable
  | badFlit => exact h.badFlit
  | retryExhausted => exact h.retryExhausted
  | routerForward => exact h.routerForward.ite h.outputTurn
  | vcPromote => exact h.vcPromote
  | routerPowerDown => exact h.routerPowerDown
  | routerWake => exact h.routerWake
  | routerWakeDone => exact h.routerWakeDone
  | peerAccess => exact h.peerAccess
  | hostApertureWrite => exact h.hostWrite
  | hostApertureRead => exact h.hostRead
  | uncorrectable => exact h.uncorrectable
  | powerGood => exact h.powerGood
  | partReset => exact h.hostTurn fun h => h.control fun h => h.partReset
  | bistComplete => exact h.bistComplete
  | handoverStart => exact h.hostTurn fun h => h.control fun h => h.handoverStart
  | fwImageWrite => exact h.hostTurn fun h => h.control fun h => h.fwImage
  | handoverCommit => exact h.handoverCommit
  | fwStatRead => exact h.hostTurn fun h => h.fwStatRead
  | attestationRequest => exact h.attest
  | commandMessage => exact h.commandMessage
  | firmwareTimeout => exact h.firmwareTimeout
  | reefInterval => exact h.reefInterval
  | droopEvent => exact h.droopEvent
  | droopHoldEnd => exact h.droopEnd
  | dbgHalt => exact h.dbgTurn fun _ h => h.dbgHalt
  | haltComplete => exact h.haltComplete
  | dbgRelease => exact h.dbgTurn fun _ h => h.dbgRelease
  | dbgStep => exact h.dbgTurn fun _ h => h.dbgStep
  | stepEnded => exact h.stepEnded
  | dbgCancelStep => exact h.dbgTurn fun _ h => h.dbgCancel
  | dbgDump => exact h.dbgTurn fun _ h => h.dbgDump
  | dbgLoad => exact h.dbgTurn fun _ h => h.dbgLoad
  | dbgEvtRead => exact h.hostTurn fun h => h.dbgEvtRead
  | dbgDetach => exact h.hostTurn fun h => h.control fun h => h.dbgAttachWrite
  | barStatRead | tskStatRead | tleStatRead | nocStatRead | krnStatRead | lnkPortStatRead | lnyStatRead =>
    exact h.hostTurn fun h => h.same
  | registerWrite => exact h.hostTurn fun h => h.registerWrite
  | invalidPacket => exact h.execInvalidPacket

/-! ## Fetch, issue and turns (R47, R57, R60, R87, R88) -/

theorem State.Inv.codeRead (h : s.Inv) {ctx tag ia m} : (s.codeRead ctx tag ia m).2.Inv := by
  dsimp only [State.codeRead]
  split
  · exact h
  · exact h.same

theorem State.Inv.fetchWord (h : s.Inv) {ctx tag va} : (s.fetchWord ctx tag va).2.Inv := by
  dsimp only [State.fetchWord]
  split
  · exact h
  · split
    · exact h
    · split
      · exact (h.pageGate.snd ‹_›).settleAt.codeRead
      · exact h.pageGate.snd ‹_›
      · exact h.pageGate.snd ‹_›

theorem State.Inv.fetchFrom (h : s.Inv) {ctx tag pc n ws} : (s.fetchFrom ctx tag pc n ws).2.Inv := by
  induction n generalizing s ws with
  | zero => exact h
  | succ n ih =>
    dsimp only [State.fetchFrom]
    split
    · exact h.fetchWord.snd ‹_›
    · split
      · exact h.fetchWord.snd ‹_›
      · exact ih (h.fetchWord.snd ‹_›)

theorem State.Inv.stallStrand (h : s.Inv) {c k n} : (s.stallStrand c k n).Inv := by
  dsimp only [State.stallStrand]
  split
  · exact h.same
  · exact h

theorem State.Inv.runFetched (h : s.Inv) {c k n pc f} : NextInv (s.runFetched c k n pc f) := by
  cases f with
  | instr i hints => exact h.same.exec
  | wait => exact h.stallStrand
  | refused a => exact h.takeFault
  | gone a => exact h.takeFault

theorem State.Inv.logHolds (h : s.Inv) {t i} : (s.logHolds t i).2.Inv := by
  dsimp only [State.logHolds]
  split
  · split
    · exact h.logReach.snd ‹_›
    · exact (h.logReach.snd ‹_›).same
    · exact h.logReach.snd ‹_›
  · exact h

theorem State.Inv.issueStrand (h : s.Inv) {c k n} : NextInv (s.issueStrand c k n) := by
  dsimp only [State.issueStrand]
  split
  · have h := (h.setCur _).fetchFrom.snd ‹_›
    refine NextInv.ite h.issueHint ?_
    split
    · exact (h.logHolds.snd ‹_›).stallStrand
    · exact (h.logHolds.snd ‹_›).runFetched
  · exact ((h.setCur _).fetchFrom.snd ‹_›).runFetched

theorem State.Inv.setReady (h : s.Inv) {c k n} : (s.setReady c k n).Inv := by
  dsimp only [State.setReady]
  split
  · exact h.same
  · exact h

theorem State.Inv.refreshStrand (h : s.Inv) {c k n held} : (s.refreshStrand c k n held).Inv := by
  dsimp only [State.refreshStrand]
  have hs := h.setReady (c := c) (k := k) (n := n)
  split
  · exact h
  · refine h.ite ?_
    split
    · have hu := (h.setCur _).fetchFrom.snd ‹_›
      refine h.stallStrand.ite (h.ite (hs.ite ?_))
      split
      · have ht := (NextInv.ite (o := .next _) hu.stallStrand hu.runFetched).next ‹_›
        exact (ht.ite h).ite hs
      · exact h
    · exact ((h.setCur _).fetchFrom.snd ‹_›).ite h
    · exact h.ite hs

theorem State.Inv.refresh (h : s.Inv) {c p held} : (s.refresh c p held).Inv := h.foldl fun _ h => h.refreshStrand

theorem State.Inv.passOver (h : s.Inv) {before c p k n} : (s.passOver before c p k n).Inv := by
  dsimp only [State.passOver]
  exact h.foldl fun _ h => by
    split
    · split
      · exact h.same
      · exact h
    · exact h

theorem State.Inv.afterIssue (h : s.Inv) {c p k n q whole} : (s.afterIssue c p k n q whole).Inv := h.same.stopCheck

theorem State.Inv.lowerFault (h : s.Inv) {c p k n q m} (e : s.lowerFault c p k n q = some (m, t)) : t.Inv := by
  unfold State.lowerFault at e
  split at e
  · split at e
    · split at e
      · have hu := h.issueStrand.next ‹_›
        split at e
        · cases e
        · cases e; exact hu
      · cases e
    · cases e
  · cases e

theorem State.Inv.tryStrands (h : s.Inv) {c p l} : NextInv (s.tryStrands c p l) := by
  induction l generalizing s with
  | nil => exact h
  | cons x l ih =>
    dsimp only [State.tryStrands]
    split
    · have ht := h.issueStrand.next ‹_›
      refine NextInv.ite (ih ht) ?_
      split
      · exact (ht.passOver.ite ht).afterIssue
      · next e =>
        have hu := h.lowerFault (Option.ite_none_right_eq_some.1 e).2
        split
        · have hv := hu.issueStrand.next ‹_›
          exact (hv.passOver.ite hv).afterIssue.afterIssue
        · exact hu.issueStrand
    · exact h.issueStrand

theorem State.Inv.tryPartner (h : s.Inv) {c p q} : NextInv (s.tryPartner c p q) := by
  dsimp only [State.tryPartner]
  split
  · refine NextInv.ite ?_ h
    split
    · have ht := h.issueStrand.next ‹_›
      exact NextInv.ite ht ht.afterIssue
    · exact h.issueStrand
  · exact h

theorem State.Inv.portTurn (h : s.Inv) {c p held} : NextInv (s.portTurn c p held) := by
  dsimp only [State.portTurn]
  split
  · exact h.refresh.tryPartner.ite h.refresh.tryStrands
  · exact h.refresh.tryStrands

theorem State.Inv.evict (h : s.Inv) {n ia} : (s.evict n ia).Inv := h.ite h.writeBack

theorem State.Inv.runTurn (h : s.Inv) {k} : NextInv (s.runTurn k) := by
  cases k with
  | issue c p held => exact h.portTurn
  | unit i a => exact h.same.exec
  | evict n ia => exact h.evict
  | read p a n ide => exact h.barRead.ite h

theorem State.Inv.firstTurn (h : s.Inv) {l o} (e : s.firstTurn l = some o) : NextInv o := by
  induction l with
  | nil => cases e
  | cons k l ih =>
    dsimp only [State.firstTurn] at e
    split at e
    · have hu := h.runTurn.next ‹_›
      split at e
      · exact ih e
      · cases e; exact hu.same
    · cases e; exact h.runTurn

theorem State.Inv.ownTurn (h : s.Inv) : NextInv s.ownTurn := by
  dsimp only [State.ownTurn, Option.getD]
  split
  · exact h.pass.firstTurn ‹_›
  · exact h.pass

theorem State.Inv.turn (h : s.Inv) : NextInv s.turn := by
  dsimp only [State.turn]
  split
  · exact h.ownTurn
  · exact h.same.runTurn

theorem State.Inv.step (h : s.Inv) : NextInv (step s) := h.turn

end Sys2Proof.Machine

section
open Sys2Proof Sys2Proof.Machine

/-- Settles O39: the first entry of the agenda is the turn that the machine takes, and a unit's turn is that unit's step. -/
theorem stepRunsUnit : Obligations.StepRunsUnit := by
  unfold Obligations.StepRunsUnit
  intro s d i a turns hAgenda
  unfold step State.turn
  rw [hAgenda]
  rfl

/-- Settles O41: each operation of the model that a step can reach writes storage and flash only through the writes of Memory, which
keep the canonical form, and `State.Inv.step` puts the operations together. -/
theorem stepKeepsStorageForm : Obligations.StepKeepsStorageForm := by
  unfold Obligations.StepKeepsStorageForm
  intro s t hs hStep
  exact hs.step.next hStep

end

/-! PROOFS. Special operands of the floating-point operations (R39, R40): what each operation makes of a NaN, an infinity or a zero, one
lemma for each. -/
namespace Sys2Proof.Machine

section SpecialOperands

variable {F : Fmt} {m : FpMode} {s : Sum} {e x y z : Fl} {fl : Nat}

@[simp] theorem Fl.isNan_nan (sg : Bool) : (Fl.nan sg).isNan = true := rfl
@[simp] theorem Fl.isNan_inf (n : Bool) : (Fl.inf n).isNan = false := rfl
@[simp] theorem Fl.isNan_fin (n : Bool) (a : Nat) (e : Int) : (Fl.fin n a e).isNan = false := rfl
@[simp] theorem Fl.nv_inf (n : Bool) : (Fl.inf n).nv = 0 := rfl
@[simp] theorem Fl.nv_fin (n : Bool) (a : Nat) (e : Int) : (Fl.fin n a e).nv = 0 := rfl
@[simp] theorem Fl.neg_fin (n : Bool) (a : Nat) (e : Int) : (Fl.fin n a e).neg = n := rfl

theorem fpResult_nan : fpResult F m e true false fl = (F.nan, fl) := by
  simp [fpResult]

theorem fpResult_invalid {nanIn : Bool} : fpResult F m e nanIn true fl = (F.nan, fl ||| flNV) := by
  simp [fpResult]

theorem fpResult_inf {n : Bool} : fpResult F m (.inf n) false false fl = (F.inf n, fl) := rfl

@[simp] theorem Fl.nv_negate (x : Fl) : x.negate.nv = x.nv := by cases x <;> rfl

theorem Fl.nv_of_not_nan (h : x.isNan = false) : x.nv = 0 := by
  cases x with
  | nan sg => cases h
  | inf n => rfl
  | fin n a e => rfl

/-! What one more term leaves in a sum, field by field. -/

/-- A finite term changes neither the infinities met nor whether the sum is invalid or a NaN. -/
theorem Sum.add_fin (s : Sum) (n : Bool) (a : Nat) (e : Int) :
    ∃ man exp pz nz z, s.add (.fin n a e) = { s with man := man, exp := exp, posZero := pz, negZero := nz, nonzero := z } := by
  simp only [Sum.add]
  split
  · split <;> exact ⟨_, _, _, _, _, rfl⟩
  · split
    · exact ⟨_, _, _, _, _, rfl⟩
    · split <;> exact ⟨_, _, _, _, _, rfl⟩

@[simp] theorem Sum.add_isNan (s : Sum) (x : Fl) : (s.add x).isNan = (s.isNan || x.isNan) := by
  cases x with
  | nan sg => simp [Sum.add]
  | inf n => cases n <;> simp [Sum.add]
  | fin n a e =>
    obtain ⟨_, _, _, _, _, he⟩ := s.add_fin n a e
    simp [he]

@[simp] theorem Sum.add_invalid (s : Sum) (x : Fl) : (s.add x).invalid = s.invalid := by
  cases x with
  | nan sg => rfl
  | inf n => cases n <;> rfl
  | fin n a e =>
    obtain ⟨_, _, _, _, _, he⟩ := s.add_fin n a e
    simp [he]

@[simp] theorem Sum.add_posInf (s : Sum) (x : Fl) : (s.add x).posInf = (s.posInf || x == .inf false) := by
  cases x with
  | nan sg => simp [Sum.add]
  | inf n => cases n <;> simp [Sum.add]
  | fin n a e =>
    obtain ⟨_, _, _, _, _, he⟩ := s.add_fin n a e
    simp [he]

@[simp] theorem Sum.add_negInf (s : Sum) (x : Fl) : (s.add x).negInf = (s.negInf || x == .inf true) := by
  cases x with
  | nan sg => simp [Sum.add]
  | inf n => cases n <;> simp [Sum.add]
  | fin n a e =>
    obtain ⟨_, _, _, _, _, he⟩ := s.add_fin n a e
    simp [he]

theorem Sum.result_of_nan (hn : s.isNan = true) (hb : s.bad = false) : s.result F m fl = (F.nan, fl) := by
  rw [Sum.result, hn, hb, fpResult_nan]

theorem Sum.result_of_bad (hb : s.bad = true) : s.result F m fl = (F.nan, fl ||| flNV) := by
  rw [Sum.result, hb, fpResult_invalid]

/-- One term is not both infinities. -/
theorem Fl.not_both_inf (x : Fl) : (x == .inf false && x == .inf true) = false := by
  cases x with
  | inf n => cases n <;> rfl
  | nan sg => rfl
  | fin n a e => rfl

/-- A NaN added to a sum that is not invalid makes it a NaN. -/
theorem Sum.result_add_nan {sg : Bool} (hb : s.bad = false) : (s.add (.nan sg)).result F m fl = (F.nan, fl) :=
  Sum.result_of_nan (by simp) (by simpa [Sum.bad] using hb)

/-- One more term leaves a sum without infinities valid. -/
theorem Sum.bad_add (hi : s.invalid = false) (hp : s.posInf = false) (hn : s.negInf = false) : (s.add x).bad = false := by
  simp [Sum.bad, hi, hp, hn, x.not_both_inf]

/-! Sum, difference, product and quotient. -/

theorem fpAdd_nan_left {sg : Bool} : fpAdd F m (.nan sg) x = (F.nan, (Fl.nan sg).nv ||| x.nv) :=
  Sum.result_of_nan (by simp) (Sum.bad_add rfl rfl rfl)

theorem fpAdd_nan_right {sg : Bool} : fpAdd F m x (.nan sg) = (F.nan, (Fl.nan sg).nv ||| x.nv) := by
  rw [fpAdd, Sum.result_add_nan (Sum.bad_add rfl rfl rfl), Nat.or_comm]

theorem fpSub_nan_left {sg : Bool} : fpSub F m (.nan sg) x = (F.nan, (Fl.nan sg).nv ||| x.nv) := by
  rw [fpSub, fpAdd_nan_left, Fl.nv_negate]

theorem fpSub_nan_right {sg : Bool} : fpSub F m x (.nan sg) = (F.nan, (Fl.nan sg).nv ||| x.nv) := by
  rw [fpSub, Fl.negate, fpAdd_nan_right]

theorem Fl.mul_nan_right {sg : Bool} : ∃ q, Fl.mul x (.nan sg) = some (.nan q) := by
  cases x with
  | nan q => exact ⟨q, rfl⟩
  | inf n => exact ⟨sg, rfl⟩
  | fin n a e => exact ⟨sg, rfl⟩

theorem fpMul_nan_left {sg : Bool} : fpMul F m (.nan sg) x = (F.nan, (Fl.nan sg).nv ||| x.nv) := by
  simp [fpMul, Fl.mul, fpResult_nan]

theorem fpMul_nan_right {sg : Bool} : fpMul F m x (.nan sg) = (F.nan, (Fl.nan sg).nv ||| x.nv) := by
  obtain ⟨q, hq⟩ := Fl.mul_nan_right (x := x) (sg := sg)
  rw [fpMul, hq, Nat.or_comm]
  simp only [Fl.isNan, Bool.or_true]
  exact fpResult_nan

theorem fpDiv_nan_left {sg : Bool} : fpDiv F m (.nan sg) x = (F.nan, (Fl.nan sg).nv ||| x.nv) := by
  simp [fpDiv, fpResult_nan]

theorem fpDiv_nan_right {sg : Bool} : fpDiv F m x (.nan sg) = (F.nan, (Fl.nan sg).nv ||| x.nv) := by
  cases x with
  | nan q => rw [fpDiv_nan_left, Nat.or_comm]
  | inf n => simp [fpDiv, fpResult_nan]
  | fin n a e => simp [fpDiv, fpResult_nan]

theorem fpAdd_opposite_inf {n : Bool} : fpAdd F m (.inf n) (.inf !n) = (F.nan, flNV) := by
  have hb : ((({} : Sum).add (.inf n)).add (.inf !n)).bad = true := by cases n <;> rfl
  simp [fpAdd, Sum.result_of_bad hb]

theorem fpSub_same_inf {n : Bool} : fpSub F m (.inf n) (.inf n) = (F.nan, flNV) := fpAdd_opposite_inf

theorem fpDiv_by_zero {n k : Bool} {a : Nat} {e e' : Int} (ha : a ≠ 0) :
    fpDiv F m (.fin n a e) (.fin k 0 e') = (F.inf (n != k), flFZ) := by
  simp [fpDiv, ha, fpResult_inf]

theorem fpDiv_zero_by_zero {n k : Bool} {e e' : Int} : fpDiv F m (.fin n 0 e) (.fin k 0 e') = (F.nan, flNV) := by
  simp [fpDiv, fpResult_invalid]

theorem fpDiv_infs {n k : Bool} : fpDiv F m (.inf n) (.inf k) = (F.nan, flNV) := by simp [fpDiv, fpResult_invalid]

theorem fpMul_inf_zero {n k : Bool} {e : Int} : fpMul F m (.inf n) (.fin k 0 e) = (F.nan, flNV) := by
  simp [fpMul, Fl.mul, fpResult_invalid]

theorem fpMul_zero_inf {n k : Bool} {e : Int} : fpMul F m (.fin k 0 e) (.inf n) = (F.nan, flNV) := by
  simp [fpMul, Fl.mul, fpResult_invalid]

/-! Fused multiply-add. -/

theorem Sum.addMul_nan (hn : (x.isNan || y.isNan) = true) : s.addMul x y = { s with isNan := true } := by
  rw [Sum.addMul, if_pos hn]

/-- The product of an operation that is not 0 × ∞ leaves the empty sum valid. -/
theorem Sum.bad_addMul_of_isSome (hp : (Fl.mul x y).isSome = true) : (({} : Sum).addMul x y).bad = false := by
  obtain ⟨p, hp⟩ := Option.isSome_iff_exists.mp hp
  simp only [Sum.addMul, hp]
  split
  · rfl
  · exact Sum.bad_add rfl rfl rfl

/-- 0 × ∞ makes the sum invalid. -/
theorem Sum.bad_add_addMul_of_none (hx : x.isNan = false) (hy : y.isNan = false) (hp : Fl.mul x y = none) :
    ((s.addMul x y).add z).bad = true := by
  simp [Sum.addMul, hx, hy, hp, Sum.bad]

theorem fpFma_nan_factor (hn : (x.isNan || y.isNan) = true) : fpFma F m x y z = (F.nan, x.nv ||| y.nv ||| z.nv) := by
  rw [fpFma, Sum.addMul_nan hn]
  exact Sum.result_of_nan (by simp) (Sum.bad_add rfl rfl rfl)

theorem fpFma_nan_addend {sg : Bool} (hp : (Fl.mul x y).isSome = true) :
    fpFma F m x y (.nan sg) = (F.nan, x.nv ||| y.nv ||| (Fl.nan sg).nv) :=
  Sum.result_add_nan (Sum.bad_addMul_of_isSome hp)

theorem fpFma_invalid_product (hx : x.isNan = false) (hy : y.isNan = false) (hp : Fl.mul x y = none) :
    fpFma F m x y z = (F.nan, flNV ||| z.nv) := by
  rw [fpFma, Sum.result_of_bad (Sum.bad_add_addMul_of_none hx hy hp), Fl.nv_of_not_nan hx, Fl.nv_of_not_nan hy, Nat.or_comm]
  simp

/-- An infinite product and the infinity of the other sign. -/
theorem fpFma_opposite_inf {p : Bool} (hx : x.isNan = false) (hy : y.isNan = false) (hp : Fl.mul x y = some (.inf p)) :
    fpFma F m x y (.inf !p) = (F.nan, flNV) := by
  have hb : (((({} : Sum).addMul x y).add (.inf !p))).bad = true := by
    cases p <;> simp [Sum.addMul, hx, hy, hp, Sum.bad]
  rw [fpFma, Sum.result_of_bad hb, Fl.nv_of_not_nan hx, Fl.nv_of_not_nan hy]
  simp [Fl.nv]

theorem fpSqrt_nan {sg : Bool} : fpSqrt F m (.nan sg) = (F.nan, (Fl.nan sg).nv) := by simp [fpSqrt, fpResult_nan]

theorem fpSqrt_neg_inf : fpSqrt F m (.inf true) = (F.nan, flNV) := by simp [fpSqrt, fpResult_invalid]

theorem fpSqrt_negative {a : Nat} {e : Int} (ha : a ≠ 0) : fpSqrt F m (.fin true a e) = (F.nan, flNV) := by
  simp [fpSqrt, ha, fpResult_invalid]

/-! Minimum and maximum. -/

theorem fpMinMax_nan_left {mx sg : Bool} {a b : Nat} (hf : m.ftz = false) (ha : F.value a = .nan sg) (hb : (F.value b).isNan = false) :
    fpMinMax F m mx a b = (if m.nanp then F.nan else b, (Fl.nan sg).nv) := by
  simp [fpMinMax, hf, ha, hb, Fl.nv_of_not_nan hb]

theorem fpMinMax_nan_right {mx sg : Bool} {a b : Nat} (hf : m.ftz = false) (ha : F.value a = .nan sg) (hb : (F.value b).isNan = false) :
    fpMinMax F m mx b a = (if m.nanp then F.nan else b, (Fl.nan sg).nv) := by
  simp [fpMinMax, hf, ha, hb, Fl.nv_of_not_nan hb]

theorem fpMinMax_two_nans {mx sg sg' : Bool} {a b : Nat} (hf : m.ftz = false) (ha : F.value a = .nan sg) (hb : F.value b = .nan sg') :
    fpMinMax F m mx a b = (F.nan, (Fl.nan sg).nv ||| (Fl.nan sg').nv) := by
  simp [fpMinMax, hf, ha, hb]

theorem Fl.cmp_zeros {n k : Bool} {e e' : Int} : Fl.cmp (.fin n 0 e) (.fin k 0 e') = .eq := by simp [Fl.cmp]

/-- Of two zeros the minimum is the one with the sign, where one has it, and the maximum the other (R40). -/
theorem fpMinMax_zeros {mx n k : Bool} {a b : Nat} {e e' : Int} (hf : m.ftz = false) (ha : F.value a = .fin n 0 e)
    (hb : F.value b = .fin k 0 e') : fpMinMax F m mx a b = (if mx = n then b else a, 0) := by
  cases mx <;> cases n <;> simp [fpMinMax, hf, ha, hb, Fl.cmp_zeros]

end SpecialOperands
end Sys2Proof.Machine

section
open Sys2Proof Sys2Proof.Machine

/-- Settles O8: a NaN reaches `fpResult` as a NaN and the invalid operations as invalid, each operation by its own lemma. -/
theorem floatSpecialValues : Obligations.FloatSpecialValues := by
  unfold Obligations.FloatSpecialValues
  intro F m
  refine ⟨?nan, ?fmaNan, ?fmaInvalid, ?fmaOpposite, ?sqrtNan, ?sqrtInf, ?sums, ?products, ?quotients, ?byZero, ?sqrtNegative, ?minMaxNan,
    ?minMaxNans, ?zeros⟩
  case nan =>
    intro sg x
    simp only [fpAdd_nan_left, fpSub_nan_left, fpMul_nan_left, fpDiv_nan_left, fpAdd_nan_right, fpSub_nan_right, fpMul_nan_right,
      fpDiv_nan_right]
    exact ⟨rfl, rfl⟩
  case fmaNan =>
    intro sg x y
    refine ⟨?_, fun hp => ?_⟩
    · rw [fpFma_nan_factor (x := .nan sg) rfl, fpFma_nan_factor (y := .nan sg) (by simp), Nat.or_comm x.nv]
      rfl
    · rw [fpFma_nan_addend hp, Nat.or_comm, Nat.or_assoc]
  case fmaInvalid => exact fun n k e z => ⟨fpFma_invalid_product rfl rfl rfl, fpFma_invalid_product rfl rfl rfl⟩
  case fmaOpposite =>
    intro n k a e ha
    rw [show (n == k) = !(n != k) from (Bool.not_not _).symm]
    exact ⟨fpFma_opposite_inf rfl rfl (if_neg ha), fpFma_opposite_inf rfl rfl rfl⟩
  case sqrtNan => exact fun sg => fpSqrt_nan
  case sqrtInf => exact fpSqrt_neg_inf
  case sums => exact fun n => ⟨fpAdd_opposite_inf, fpSub_same_inf⟩
  case products => exact fun n k e => ⟨fpMul_inf_zero, fpMul_zero_inf⟩
  case quotients => exact fun n k e e' => ⟨fpDiv_zero_by_zero, fpDiv_infs⟩
  case byZero => exact fun n k a e e' ha => fpDiv_by_zero ha
  case sqrtNegative => exact fun a e ha => fpSqrt_negative ha
  case minMaxNan => exact fun mx sg x y hf hx hy => ⟨fpMinMax_nan_left hf hx hy, fpMinMax_nan_right hf hx hy⟩
  case minMaxNans => exact fun mx sg sg' x y hf hx hy => fpMinMax_two_nans hf hx hy
  case zeros =>
    intro x y e e' hf hx hy
    simp [fpMinMax_zeros hf hx hy, fpMinMax_zeros hf hy hx]

end

/-! PROOFS. Rounding to whole grains (R34, R35, R37), said once by truncation and remainder, whatever the distance of the grain. -/
namespace Sys2Proof.Machine

section Grains

variable {ge exp : Int} {mode : Nat} {neg : Bool} {r man q rem d k M : Nat}

/-- A magnitude of whole grains is kept. -/
theorem roundTo_of_le (h : ge ≤ exp) : roundTo ge mode neg r man exp = (man * 2 ^ (exp - ge).toNat, false) := by
  by_cases hm : man = 0
  · simp [roundTo, hm]
  · simp [roundTo, hm, h, Nat.shiftLeft_eq]

theorem roundsUp_no_rest : roundsUp mode neg r q 0 d = false := by
  have hp := Nat.two_pow_pos d
  rcases mode with _ | _ | _ | _ | n
  · have h1 : ¬ 2 ^ d < 2 * 0 := by omega
    have h2 : 2 * 0 ≠ 2 ^ d := by omega
    rw [roundsUp, decide_eq_false h1, beq_eq_false_iff_ne.mpr h2]
    rfl
  · rfl
  · simp [roundsUp]
  · simp [roundsUp]
  · simp [roundsUp]

/-- A rest below a 2^20th of the grain rounds as one 2^20th does (R35). -/
theorem roundsUp_far (hr : rem ≠ 0) (hd : rem * 2 ^ 20 < 2 ^ d) : roundsUp mode neg r q rem d = roundsUp mode neg r q 1 20 := by
  rcases mode with _ | _ | _ | _ | n
  · simp only [roundsUp]
    have h1 : ¬ 2 ^ d < 2 * rem := by omega
    have h2 : 2 * rem ≠ 2 ^ d := by omega
    simp [h1, h2]
  · rfl
  · simp [roundsUp, hr]
  · simp [roundsUp, hr]
  · have hle : rem * 2 ^ 16 ≤ rem * 2 ^ 20 := Nat.mul_le_mul_left _ (by decide)
    have h0 : rem * 2 ^ 16 / 2 ^ d = 0 := Nat.div_eq_of_lt (Nat.lt_of_le_of_lt hle hd)
    have h1 : 1 * 2 ^ 16 / 2 ^ 20 = 0 := by decide
    simp only [roundsUp, h0, h1]

theorem lt_two_pow_of_log2_lt (h : man.log2 + k < d) : man * 2 ^ k < 2 ^ d := by
  calc man * 2 ^ k < 2 ^ (man.log2 + 1) * 2 ^ k := Nat.mul_lt_mul_of_pos_right Nat.lt_log2_self (Nat.two_pow_pos k)
    _ = 2 ^ (man.log2 + 1 + k) := (Nat.pow_add 2 _ _).symm
    _ ≤ 2 ^ d := Nat.pow_le_pow_right (by decide) (by omega)

/-- Below the grain: the truncated magnitude, or one grain more where the rest rounds up; inexact where there is a rest. -/
theorem roundTo_of_lt (h : exp < ge) (hd : (ge - exp).toNat = d) :
    roundTo ge mode neg r man exp =
      (man / 2 ^ d + (if roundsUp mode neg r (man / 2 ^ d) (man % 2 ^ d) d then 1 else 0), man % 2 ^ d != 0) := by
  unfold roundTo
  simp only [hd, Nat.shiftRight_eq_div_pow]
  split
  · next hm => simp [hm, roundsUp_no_rest]
  · next hm =>
    rw [if_neg (by omega)]
    split
    · next hfar =>
      have hlt : man * 2 ^ 20 < 2 ^ d := lt_two_pow_of_log2_lt hfar
      have hman : man < 2 ^ d := by omega
      simp [Nat.div_eq_of_lt hman, Nat.mod_eq_of_lt hman, roundsUp_far hm hlt, hm]
    · split <;> rfl

/-! A rounded magnitude lies between the powers of two about it. -/

/-- Rounding in grains no finer than a significand of M + 1 bits gives at most 2^(M + 1) of them. -/
theorem roundTo_le_two_pow (h : exp + man.log2 - M ≤ ge) : (roundTo ge mode neg r man exp).1 ≤ 2 ^ (M + 1) := by
  by_cases hle : ge ≤ exp
  · rw [roundTo_of_le hle]
    exact Nat.le_of_lt (lt_two_pow_of_log2_lt (by omega))
  · rw [roundTo_of_lt (Int.not_le.mp hle) rfl]
    have hq : man / 2 ^ (ge - exp).toNat < 2 ^ (M + 1) := by
      rw [Nat.div_lt_iff_lt_mul (Nat.two_pow_pos _), ← Nat.pow_add]
      exact Nat.lt_of_lt_of_le Nat.lt_log2_self (Nat.pow_le_pow_right (by decide) (by omega))
    dsimp only
    split <;> omega

/-- A magnitude of at least 2^k grains rounds to at least 2^k. -/
theorem two_pow_le_roundTo (hm : man ≠ 0) (h : ge + k ≤ exp + man.log2) : 2 ^ k ≤ (roundTo ge mode neg r man exp).1 := by
  have hlog : 2 ^ man.log2 ≤ man := Nat.log2_self_le hm
  by_cases hle : ge ≤ exp
  · rw [roundTo_of_le hle]
    calc 2 ^ k ≤ 2 ^ (man.log2 + (exp - ge).toNat) := Nat.pow_le_pow_right (by decide) (by omega)
      _ = 2 ^ man.log2 * 2 ^ (exp - ge).toNat := Nat.pow_add 2 _ _
      _ ≤ man * 2 ^ (exp - ge).toNat := Nat.mul_le_mul_right _ hlog
  · rw [roundTo_of_lt (Int.not_le.mp hle) rfl]
    have hq : 2 ^ k ≤ man / 2 ^ (ge - exp).toNat := by
      rw [Nat.le_div_iff_mul_le (Nat.two_pow_pos _), ← Nat.pow_add]
      exact Nat.le_trans (Nat.pow_le_pow_right (by decide) (by omega)) hlog
    exact Nat.le_trans hq (Nat.le_add_right _ _)

end Grains

/-- The increment of roundsUp is the one that the mode asks (R34). -/
theorem approximates_roundsUp (mode : Nat) (neg : Bool) (r q d : Nat) {rem : Nat} (h : rem < 2 ^ d) :
    Claims.Approximates mode neg (q + if roundsUp mode neg r q rem d then 1 else 0) (q * 2 ^ d + rem) d := by
  have hs : (q + 1) * 2 ^ d = q * 2 ^ d + 2 ^ d := Nat.succ_mul q _
  have down : q * 2 ^ d ≤ q * 2 ^ d + rem ∧ q * 2 ^ d + rem < (q + 1) * 2 ^ d := by omega
  have up : q * 2 ^ d + rem ≤ (q + if rem != 0 then 1 else 0) * 2 ^ d ∧
      (q + if rem != 0 then 1 else 0) * 2 ^ d < q * 2 ^ d + rem + 2 ^ d := by
    by_cases hr : rem = 0
    · subst hr
      exact ⟨Nat.le_refl _, Nat.lt_add_of_pos_right h⟩
    · rw [if_pos (bne_iff_ne.mpr hr), hs]
      omega
  rcases mode with _ | _ | _ | _ | n
  · simp only [Claims.Approximates, roundsUp]
    split
    · next hu =>
      rw [hs]
      simp only [Bool.or_eq_true, decide_eq_true_eq, Bool.and_eq_true, beq_iff_eq] at hu
      omega
    · next hu =>
      simp only [Bool.or_eq_true, decide_eq_true_eq, Bool.and_eq_true, beq_iff_eq] at hu
      rw [Nat.add_zero]
      omega
  · exact down
  · cases neg
    · exact up
    · exact down
  · cases neg
    · exact down
    · exact up
  · trivial

theorem sgenSteps_eq_repeat (n : Nat) (g : Word) : sgenSteps n g = Nat.repeat sgenStep n g := by
  have comm : ∀ (n : Nat) (g : Word), Nat.repeat sgenStep n (sgenStep g) = sgenStep (Nat.repeat sgenStep n g) := by
    intro n
    induction n with
    | zero => exact fun g => rfl
    | succ n ih => exact fun g => congrArg sgenStep (ih g)
  induction n generalizing g with
  | zero => rfl
  | succ n ih => exact (ih (sgenStep g)).trans (comm n g)

end Sys2Proof.Machine

section
open Sys2Proof Sys2Proof.Machine

theorem Sys2Proof.Claims.roundingToGrains : Claims.RoundingToGrains := by
  intro ge exp mode neg r man
  refine ⟨roundTo_of_le, fun h => ?_⟩
  rw [roundTo_of_lt h rfl]
  refine ⟨?_, by simp⟩
  have ha := approximates_roundsUp mode neg r (man / 2 ^ (ge - exp).toNat) _ (Nat.mod_lt man (Nat.two_pow_pos (ge - exp).toNat))
  rwa [Nat.div_add_mod'] at ha

theorem Sys2Proof.Claims.stochasticRounding : Claims.StochasticRounding := by
  refine ⟨sgenSteps_eq_repeat 16, fun ge exp neg r man h => ?_⟩
  rw [roundTo_of_lt h rfl]
  simp [roundsUp]

end

/-! PROOFS. The encodings of a format and the rounding to it (R28, R29, R35, R42). -/
namespace Sys2Proof.Machine

section Formats

variable {F : Fmt} {m : FpMode} {neg : Bool} {b man : Nat} {exp : Int}

/-- What the formats of R28 share: a mantissa, room for a finite value beside the special encodings, and the largest finite value as
R28 names it. -/
structure Fmt.Sound (F : Fmt) : Prop where
  mantissa : 1 ≤ F.M
  exponent : 1 ≤ F.topField
  largest : F.value (F.largest false) = .fin false F.topMan F.topGrain

theorem Fmt.sound_of_mem (h : F ∈ Claims.formats) : F.Sound := by
  have all : ∀ F ∈ Claims.formats, 1 ≤ F.M ∧ 1 ≤ F.topField ∧ F.value (F.largest false) = .fin false F.topMan F.topGrain := by
    decide
  obtain ⟨hM, hE, hL⟩ := all F h
  exact ⟨hM, hE, hL⟩

/-- The exponent field of an encoding (R28). -/
def Fmt.field (F : Fmt) (b : Nat) : Nat := b / 2 ^ F.M % 2 ^ F.E

/-- Whether an encoding is that of an infinity or a NaN (R30). -/
def Fmt.special (F : Fmt) (b : Nat) : Bool :=
  match F.spec with
  | .ieee => F.field b == 2 ^ F.E - 1
  | .nanOnly => F.field b == 2 ^ F.E - 1 && b % 2 ^ F.M == 2 ^ F.M - 1
  | .none => false

theorem Fmt.value_eq (hF : F.Sound) (b : Nat) :
    F.value b =
      if F.special b then
        if F.spec == .ieee && b % 2 ^ F.M == 0 then .inf (b.testBit (F.E + F.M))
        else .nan (!F.allQuiet && !bit (b % 2 ^ F.M) (F.M - 1))
      else if F.field b = 0 then .fin (b.testBit (F.E + F.M)) (b % 2 ^ F.M) F.minGrain
      else .fin (b.testBit (F.E + F.M)) (2 ^ F.M + b % 2 ^ F.M) (F.field b - F.bias - F.M) := by
  have hM := hF.mantissa
  have hfield : bits b (F.E + F.M - 1) F.M = F.field b := by
    rw [bits, Nat.shiftRight_eq_div_pow, Fmt.field]
    congr 2
    omega
  rw [Fmt.value, hfield]
  rfl

/-- An encoding that is neither an infinity nor a NaN is no further than the largest finite value. -/
theorem Fmt.field_le_of_not_special (hF : F.Sound) (h : F.special b = false) :
    F.field b ≤ F.topField ∧ (F.field b = F.topField → 2 ^ F.M + b % 2 ^ F.M ≤ F.topMan) := by
  have hE := hF.exponent
  have hm : b % 2 ^ F.M < 2 ^ F.M := Nat.mod_lt _ (Nat.two_pow_pos _)
  have hp : 2 ^ (F.M + 1) = 2 * 2 ^ F.M := Nat.pow_succ'
  have hlt : F.field b < 2 ^ F.E := Nat.mod_lt _ (Nat.two_pow_pos _)
  rcases hs : F.spec with _ | _ | _ <;> simp only [Fmt.special, hs, Fmt.topField, Fmt.topMan] at h hE ⊢
  · have hne : F.field b ≠ 2 ^ F.E - 1 := by simpa using h
    omega
  · have hne : F.field b = 2 ^ F.E - 1 → b % 2 ^ F.M ≠ 2 ^ F.M - 1 := by simpa using h
    refine ⟨by omega, fun he => ?_⟩
    have := hne he
    omega
  · omega

/-- A finite encoding (R29): zero or a subnormal, or a normal one. -/
theorem Fmt.value_fin (hF : F.Sound) (h : F.value b = .fin neg man exp) :
    F.special b = false ∧ neg = b.testBit (F.E + F.M) ∧
      (F.field b = 0 ∧ man = b % 2 ^ F.M ∧ exp = F.minGrain ∨
        1 ≤ F.field b ∧ man = 2 ^ F.M + b % 2 ^ F.M ∧ exp = F.field b - F.bias - F.M) := by
  rw [Fmt.value_eq hF] at h
  split at h
  · split at h <;> cases h
  · next finite =>
    refine ⟨by simpa using finite, ?_⟩
    split at h
    · next h0 =>
      cases h
      exact ⟨rfl, .inl ⟨h0, rfl, rfl⟩⟩
    · next h0 =>
      cases h
      exact ⟨rfl, .inr ⟨Nat.one_le_iff_ne_zero.mpr h0, rfl, rfl⟩⟩

/-- An encoding is its sign, its exponent field and its mantissa. -/
theorem Fmt.encoding_parts (h : b < 2 ^ F.width) :
    F.sign (b.testBit (F.E + F.M)) + F.field b * 2 ^ F.M + b % 2 ^ F.M = b := by
  have hlt : b / 2 ^ (F.E + F.M) < 2 := by
    have hw : F.width = F.E + F.M + 1 := by rw [Fmt.width]; omega
    rw [Nat.div_lt_iff_lt_mul (Nat.two_pow_pos _), ← Nat.pow_succ', ← Nat.add_one, ← hw]
    exact h
  have hq : b / 2 ^ F.M = 2 ^ F.E * (b / 2 ^ (F.E + F.M)) + F.field b := by
    rw [Nat.add_comm F.E, Nat.pow_add, ← Nat.div_div_eq_div_mul]
    exact (Nat.div_add_mod _ _).symm
  have hsign : F.sign (b.testBit (F.E + F.M)) = 2 ^ F.E * (b / 2 ^ (F.E + F.M)) * 2 ^ F.M := by
    rw [Nat.testBit_eq_decide_div_mod_eq, Nat.mod_eq_of_lt hlt, Fmt.sign, Nat.mul_right_comm, ← Nat.pow_add]
    generalize b / 2 ^ (F.E + F.M) = q at hlt
    obtain rfl | rfl : q = 0 ∨ q = 1 := by omega
    · simp
    · simp
  calc F.sign (b.testBit (F.E + F.M)) + F.field b * 2 ^ F.M + b % 2 ^ F.M
      = b / 2 ^ F.M * 2 ^ F.M + b % 2 ^ F.M := by rw [hsign, hq, Nat.add_mul]
    _ = b := Nat.div_add_mod' b _

/-! The rounding of R35 and what becomes of it. -/

/-- The grain of a format at a magnitude: M places below its leading one, and never below the smallest (R35). -/
def Fmt.grainAt (F : Fmt) (man : Nat) (exp : Int) : Int := max (exp + man.log2 - F.M) F.minGrain

theorem Fmt.round_ge (mode r : Nat) : (F.round mode neg r man exp).ge = F.grainAt man exp := rfl

theorem Fmt.round_q (mode r : Nat) : (F.round mode neg r man exp).q = (roundTo (F.grainAt man exp) mode neg r man exp).1 := rfl

theorem Fmt.round_nx (mode r : Nat) : (F.round mode neg r man exp).nx = (roundTo (F.grainAt man exp) mode neg r man exp).2 := rfl

/-- What overflows (R35 step 3). -/
theorem Fmt.round_above (mode r : Nat) : (F.round mode neg r man exp).above = true ↔
    F.topGrain < F.grainAt man exp ∨ F.grainAt man exp = F.topGrain ∧ F.topMan < (roundTo (F.grainAt man exp) mode neg r man exp).1 := by
  have field : (F.round mode neg r man exp).above = (decide (F.topGrain < F.grainAt man exp) ||
      F.grainAt man exp == F.topGrain && decide (F.topMan < (roundTo (F.grainAt man exp) mode neg r man exp).1)) := rfl
  simp only [field, Bool.or_eq_true, Bool.and_eq_true, decide_eq_true_eq, beq_iff_eq]

theorem Fmt.fit_of_above (hm : man ≠ 0) (h : (F.round m.mode neg m.r man exp).above = true) :
    F.fit m neg man exp = (F.overflow m.mode neg m.sat, flOF ||| flNX) := by
  simp [Fmt.fit, hm, h]

/-- A magnitude of whole grains in range has its encoding, without a flag. -/
theorem Fmt.fit_of_exact (hm : man ≠ 0) (hz : m.ftz = false) (ha : ¬(F.round m.mode neg m.r man exp).above = true)
    (hx : (F.round m.mode neg m.r man exp).nx = false) :
    F.fit m neg man exp = (F.encode neg (F.round m.mode neg m.r man exp).q (F.round m.mode neg m.r man exp).ge, 0) := by
  simp [Fmt.fit, hm, hz, ha, hx]

/-- A value at its own grain is kept by the rounding to the format. -/
theorem Fmt.fit_at_grain (hm : man ≠ 0) (hz : m.ftz = false) (hg : F.grainAt man exp = exp) (he : exp ≤ F.topGrain)
    (ht : exp = F.topGrain → man ≤ F.topMan) : F.fit m neg man exp = (F.encode neg man exp, 0) := by
  have hround : roundTo exp m.mode neg m.r man exp = (man, false) := by simp [roundTo_of_le]
  rw [Fmt.fit_of_exact hm hz, Fmt.round_q, Fmt.round_ge, hg, hround]
  · rw [Fmt.round_above, hg, hround]
    dsimp only
    omega
  · rw [Fmt.round_nx, hg, hround]

theorem Fmt.encode_subnormal {ge : Int} (h : man < 2 ^ F.M) : F.encode neg man ge = F.sign neg + man := by
  rw [Fmt.encode, if_pos h]

theorem Fmt.encode_normal {a f : Nat} {ge : Int} (h : a < 2 ^ F.M) (hf : ge = f - F.bias - F.M) :
    F.encode neg (2 ^ F.M + a) ge = F.sign neg + f * 2 ^ F.M + a := by
  have hp : 2 ^ (F.M + 1) = 2 * 2 ^ F.M := Nat.pow_succ'
  have hfield : (ge + F.M + F.bias).toNat = f := by omega
  rw [Fmt.encode, if_neg (by omega), if_neg (by omega), hfield, Nat.add_sub_cancel_left, Nat.add_assoc]

theorem log2_two_pow_add {a k : Nat} (h : a < 2 ^ k) : (2 ^ k + a).log2 = k :=
  (Nat.log2_eq_iff (by omega)).mpr ⟨Nat.le_add_right _ _, by rw [Nat.pow_succ']; omega⟩

theorem Fmt.minGrain_le_topGrain (hF : F.Sound) : F.minGrain ≤ F.topGrain := by
  have := hF.exponent
  simp only [Fmt.minGrain, Fmt.topGrain]
  omega

/-- The largest finite value has a significand of M + 1 bits. -/
theorem Fmt.two_pow_le_topMan (hF : F.Sound) : 2 ^ F.M ≤ F.topMan := by
  have hM : 2 ^ 1 ≤ 2 ^ F.M := Nat.pow_le_pow_right (by decide) hF.mantissa
  have hp : 2 ^ (F.M + 1) = 2 * 2 ^ F.M := Nat.pow_succ'
  rw [Fmt.topMan]
  split <;> omega

/-- A finite value of a format converts to the format as itself (R35). -/
theorem Fmt.fit_value (hF : F.Sound) (hb : b < 2 ^ F.width) (hz : m.ftz = false) (h : F.value b = .fin neg man exp) (hm : man ≠ 0) :
    F.fit m neg man exp = (b, 0) := by
  have hlt : b % 2 ^ F.M < 2 ^ F.M := Nat.mod_lt _ (Nat.two_pow_pos _)
  have hmin := F.minGrain_le_topGrain hF
  have htop := F.two_pow_le_topMan hF
  obtain ⟨hs, rfl, ⟨h0, rfl, rfl⟩ | ⟨h1, rfl, rfl⟩⟩ := Fmt.value_fin hF h
  · have hlog : (b % 2 ^ F.M).log2 < F.M := (Nat.log2_lt hm).mpr hlt
    have hg : F.grainAt (b % 2 ^ F.M) F.minGrain = F.minGrain := by rw [Fmt.grainAt]; omega
    rw [Fmt.fit_at_grain hm hz hg hmin (fun _ => Nat.le_trans (Nat.le_of_lt hlt) htop), Fmt.encode_subnormal hlt]
    have parts := F.encoding_parts hb
    rw [h0] at parts
    congr 1
    omega
  · obtain ⟨hle, htm⟩ := Fmt.field_le_of_not_special hF hs
    rw [Fmt.fit_at_grain hm hz, Fmt.encode_normal hlt rfl, F.encoding_parts hb]
    · rw [Fmt.grainAt, log2_two_pow_add hlt, Fmt.minGrain]
      omega
    · rw [Fmt.topGrain]
      omega
    · rw [Fmt.topGrain]
      exact fun he => htm (by omega)

/-- A magnitude rounded to the format's grain that exceeds the largest finite value overflows (R35 step 3). -/
theorem Fmt.above_of_topMan_lt (hF : F.Sound) (mode r : Nat)
    (h : F.topMan * 2 ^ (F.topGrain - min F.topGrain (F.grainAt man exp)).toNat <
      (roundTo (F.grainAt man exp) mode neg r man exp).1 * 2 ^ (F.grainAt man exp - min F.topGrain (F.grainAt man exp)).toNat) :
    (F.round mode neg r man exp).above = true := by
  rw [Fmt.round_above]
  have hq : (roundTo (F.grainAt man exp) mode neg r man exp).1 ≤ 2 ^ (F.M + 1) := roundTo_le_two_pow (Int.le_max_left _ _)
  generalize F.grainAt man exp = g at *
  rcases Int.lt_trichotomy F.topGrain g with hlt | rfl | hgt
  · exact .inl hlt
  · exact .inr ⟨rfl, by simpa using h⟩
  · exfalso
    rw [Int.min_eq_right (Int.le_of_lt hgt), Int.sub_self, Int.toNat_zero, Nat.pow_zero, Nat.mul_one] at h
    have hpow : 2 ^ 1 ≤ 2 ^ (F.topGrain - g).toNat := Nat.pow_le_pow_right (by decide) (by omega)
    have hle : 2 ^ (F.M + 1) ≤ F.topMan * 2 ^ (F.topGrain - g).toNat := Nat.mul_le_mul (F.two_pow_le_topMan hF) hpow
    omega

/-- Where the mode rounds an overflow towards zero, or under .sat, the largest value; else what stands beyond it (R35 step 4). -/
theorem Fmt.overflow_eq {mode : Nat} {sat : Bool} (h : mode ≤ 4) :
    F.overflow mode neg sat =
      if sat = true ∨ mode = 1 ∨ (mode = 2 ∧ neg = true) ∨ (mode = 3 ∧ neg = false) then F.largest neg
      else match F.spec with
        | .ieee => F.inf neg
        | .nanOnly => F.nan
        | .none => F.largest neg := by
  obtain rfl | rfl | rfl | rfl | rfl : mode = 0 ∨ mode = 1 ∨ mode = 2 ∨ mode = 3 ∨ mode = 4 := by omega
  all_goals cases neg <;> cases sat <;> rfl

end Formats

/-! ## Conversions to integers (R42) -/
section Conversions

variable {m : FpMode} {signed neg : Bool} {w man : Nat} {exp : Int} {lo hi : Int}

theorem low_eq_toNat_emod (w : Nat) (z : Int) : low w z = (z % 2 ^ w).toNat := by
  rw [low]
  push_cast
  rfl

theorem intRange_eq (signed : Bool) (w : Nat) :
    intRange signed w = (if signed then -2 ^ (w - 1) else 0, if signed then 2 ^ (w - 1) - 1 else 2 ^ w - 1) := by
  cases signed <;> simp [intRange]

/-- The integer that a rounded magnitude makes, of either sign. -/
def signedBy (neg : Bool) (q : Nat) : Int := if neg then -(q : Int) else q

/-- The cut of `roundInt` (R141) lies beyond every integer type: there the rounded magnitude is as far out, on the same side. -/
theorem roundInt_cases (m : FpMode) (neg : Bool) (man : Nat) (exp : Int) :
    roundInt m neg man exp = (signedBy neg (roundTo 0 m.mode neg m.r man exp).1, (roundTo 0 m.mode neg m.r man exp).2) ∨
      roundInt m neg man exp = (signedBy neg (2 ^ 128), false) ∧ 2 ^ 128 ≤ (roundTo 0 m.mode neg m.r man exp).1 := by
  unfold roundInt
  split
  · next hm =>
    subst hm
    left
    simp [roundTo, signedBy]
  · next hm =>
    split
    · next hfar =>
      right
      refine ⟨?_, two_pow_le_roundTo hm (by omega)⟩
      cases neg <;> simp [signedBy]
    · exact .inl rfl

theorem convert_int_inf {n : Bool} : convert (.int signed w) m (.flt (.inf n)) =
    (low w (if n then (intRange signed w).1 else (intRange signed w).2), flNV) := rfl

theorem convert_int_int {z : Int} : convert (.int signed w) m (.int z) =
    (low w (if m.sat then clamp (intRange signed w) z else z), 0) := rfl

theorem convert_int_fin : convert (.int signed w) m (.flt (.fin neg man exp)) =
    if (roundInt m neg man exp).1 < (intRange signed w).1 ∨ (intRange signed w).2 < (roundInt m neg man exp).1 then
      (low w (clamp (intRange signed w) (roundInt m neg man exp).1), flNV)
    else (low w (roundInt m neg man exp).1, if (roundInt m neg man exp).2 then flNX else 0) := rfl

theorem clamp_of_lt {r : Int × Int} {z : Int} (h : z < r.1) : clamp r z = r.1 := if_pos h

theorem clamp_of_gt {r : Int × Int} {z : Int} (h0 : r.1 ≤ r.2) (h : r.2 < z) : clamp r z = r.2 := by
  rw [clamp, if_neg (by omega), if_pos h]

theorem clamp_of_mem {r : Int × Int} {z : Int} (h : r.1 ≤ z) (h' : z ≤ r.2) : clamp r z = z := by
  rw [clamp, if_neg (by omega), if_neg (by omega)]

/-- A range about zero that no integer type exceeds (R25). -/
structure NarrowRange (r : Int × Int) : Prop where
  lower : -2 ^ 128 < r.1
  belowZero : r.1 ≤ 0
  aboveZero : 0 ≤ r.2
  upper : r.2 < 2 ^ 128

theorem intRange_narrow (hw : w ∈ [8, 16, 32, 64]) : NarrowRange (intRange signed w) := by
  simp only [List.mem_cons, List.not_mem_nil, or_false] at hw
  rcases hw with rfl | rfl | rfl | rfl <;> cases signed <;> constructor <;> decide

section Narrow

variable (hr : NarrowRange (intRange signed w))
include hr

theorem convert_int_fin_inRange (h : (intRange signed w).1 ≤ signedBy neg (roundTo 0 m.mode neg m.r man exp).1)
    (h' : signedBy neg (roundTo 0 m.mode neg m.r man exp).1 ≤ (intRange signed w).2) :
    convert (.int signed w) m (.flt (.fin neg man exp)) =
      (low w (signedBy neg (roundTo 0 m.mode neg m.r man exp).1), if (roundTo 0 m.mode neg m.r man exp).2 then flNX else 0) := by
  obtain ⟨h1, h2, h3, h4⟩ := hr
  rcases roundInt_cases m neg man exp with he | ⟨-, hfar⟩
  · rw [convert_int_fin, he, if_neg (by dsimp only; omega)]
  · cases neg <;> simp only [signedBy] at h h' <;> omega

theorem convert_int_fin_below (h : signedBy neg (roundTo 0 m.mode neg m.r man exp).1 < (intRange signed w).1) :
    convert (.int signed w) m (.flt (.fin neg man exp)) = (low w (intRange signed w).1, flNV) := by
  obtain ⟨h1, h2, h3, h4⟩ := hr
  have hz : (roundInt m neg man exp).1 < (intRange signed w).1 := by
    rcases roundInt_cases m neg man exp with he | ⟨he, hfar⟩
    · rwa [he]
    · rw [he]
      cases neg <;> simp [signedBy] at h ⊢ <;> omega
  rw [convert_int_fin, if_pos (.inl hz), clamp_of_lt hz]

theorem convert_int_fin_above (h : (intRange signed w).2 < signedBy neg (roundTo 0 m.mode neg m.r man exp).1) :
    convert (.int signed w) m (.flt (.fin neg man exp)) = (low w (intRange signed w).2, flNV) := by
  obtain ⟨h1, h2, h3, h4⟩ := hr
  have hz : (intRange signed w).2 < (roundInt m neg man exp).1 := by
    rcases roundInt_cases m neg man exp with he | ⟨he, hfar⟩
    · rwa [he]
    · rw [he]
      cases neg <;> simp [signedBy] at h ⊢ <;> omega
  rw [convert_int_fin, if_pos (.inr hz), clamp_of_gt (by omega) hz]

end Narrow
end Conversions
end Sys2Proof.Machine

section
open Sys2Proof Sys2Proof.Machine

theorem Sys2Proof.Claims.representableValuesKept : Claims.RepresentableValuesKept :=
  fun F hF _ _ _ _ _ hb hz h hm => F.fit_value (F.sound_of_mem hF) hb hz h hm

theorem Sys2Proof.Claims.overflows : Claims.Overflows := by
  intro F hF m neg man lm exp le hm hmode hl
  have sound := F.sound_of_mem hF
  rw [sound.largest] at hl
  cases hl
  intro grain q hq beyond
  exact (Fmt.fit_of_above hm (Fmt.above_of_topMan_lt sound _ _ hq)).trans (congrArg (·, flOF ||| flNX) (Fmt.overflow_eq hmode))

theorem Sys2Proof.Claims.conversionLimits : Claims.ConversionLimits := by
  refine ⟨fun F _ m n sg => ⟨?_, ?_⟩, fun m signed w hw => ?_⟩
  · rfl
  · rcases hs : F.spec with _ | _ | _ <;> simp [convert, hs, Fmt.nan]
  · have narrow := intRange_narrow (signed := signed) hw
    intro lo hi bits' cv
    have hr : intRange signed w = (lo, hi) := intRange_eq signed w
    have hlow : ∀ z, low w z = bits' z := low_eq_toNat_emod w
    refine ⟨fun sg => rfl, fun n => ?_, fun neg man exp => ?_, fun z => ⟨fun h h' => ?_, fun hs => ?_, fun hs => ⟨fun h => ?_, fun h => ?_⟩⟩⟩
    · exact convert_int_inf.trans (by rw [hr, hlow])
    · exact ⟨fun h h' => (convert_int_fin_inRange narrow (by rw [hr]; exact h) (by rw [hr]; exact h')).trans (by rw [hlow]; rfl),
        fun h => (convert_int_fin_below narrow (by rw [hr]; exact h)).trans (by rw [hr, hlow]),
        fun h => (convert_int_fin_above narrow (by rw [hr]; exact h)).trans (by rw [hr, hlow])⟩
    · exact convert_int_int.trans (by rw [hr, clamp_of_mem h h', ite_self, hlow])
    · exact convert_int_int.trans (by rw [hs, if_neg Bool.false_ne_true, hlow])
    · exact convert_int_int.trans (by rw [hr, hs, if_pos rfl, clamp_of_lt h, hlow])
    · have hle := Int.le_trans narrow.belowZero narrow.aboveZero
      rw [hr] at hle
      exact convert_int_int.trans (by rw [hr, hs, if_pos rfl, clamp_of_gt hle h, hlow])

/-- Settles O10: each kind of rounding is truncation and an increment, which `roundTo_of_lt` says for every distance of the grain. -/
theorem rounding : Obligations.Rounding :=
  ⟨Claims.roundingToGrains, Claims.stochasticRounding, Claims.representableValuesKept, Claims.overflows, Claims.conversionLimits⟩

end

/-! PROOFS. Scans and reductions (R45, R46, R163 to R165): the nodes of the tree, what they hold for the integer combinations, and the
aligned nodes that make up the first lanes. -/
namespace Sys2Proof.Machine

/-! ## The tree (R45) -/
section Tree

variable (c : Combiner) (leaf : Nat → Nat × Nat)

theorem Combiner.level_map_range (n : Nat) (g : Nat → Nat × Nat) :
    c.level ((List.range (2 * n)).map g) = (List.range n).map fun k => c.join (g (2 * k)) (g (2 * k + 1)) := by
  induction n generalizing g with
  | zero => rfl
  | succ n ih =>
    rw [Nat.mul_succ, List.range_succ_eq_map, List.range_succ_eq_map, List.range_succ_eq_map (n := n)]
    simp only [List.map_cons, List.map_map, Combiner.level]
    exact congrArg _ (ih _)

/-- Node k of level b: the combination of the two nodes beneath it, the lanes at level 0. -/
def Combiner.node : Nat → Nat → Nat × Nat
  | 0, k => leaf k
  | b + 1, k => c.join (Combiner.node b (2 * k)) (Combiner.node b (2 * k + 1))

theorem Combiner.getD_levels (n b : Nat) (h : b ≤ n) (j : Nat) :
    (c.levels n ((List.range (2 ^ n)).map (c.node leaf j))).getD b [] = (List.range (2 ^ (n - b))).map (c.node leaf (j + b)) := by
  induction n generalizing b j with
  | zero =>
    obtain rfl : b = 0 := Nat.le_zero.mp h
    rfl
  | succ n ih =>
    cases b with
    | zero => rfl
    | succ b =>
      rw [Combiner.levels, List.getD_cons_succ, Nat.pow_succ', c.level_map_range, Nat.succ_sub_succ, Nat.add_comm b, ← Nat.add_assoc]
      exact ih b (Nat.le_of_succ_le_succ h) (j + 1)

/-- A lane in the tree: its value, the identity where it is inactive. -/
def Combiner.lane (m : DWord) (x : Nat → Nat) (l : Nat) : Nat × Nat := (if m.getLsbD l then x l else c.unit, 0)

variable {c} {m : DWord} {x x' : Nat → Nat}

theorem Combiner.getD_tree {b : Nat} (h : b ≤ 6) :
    (c.tree m x).getD b [] = (List.range (2 ^ (6 - b))).map (c.node (c.lane m x) b) := by
  have := c.getD_levels (c.lane m x) 6 b h 0
  rwa [Nat.zero_add] at this

theorem Combiner.node_of_tree {b k : Nat} (h : b ≤ 6) (hk : k < 2 ^ (6 - b)) :
    ((c.tree m x).getD b []).getD k (c.unit, 0) = c.node (c.lane m x) b k := by
  simp only [Combiner.getD_tree h, List.getD_eq_getElem?_getD, List.getElem?_map, List.getElem?_range hk, Option.map_some, Option.getD_some]

theorem Combiner.root_tree : c.root (c.tree m x) = c.node (c.lane m x) 6 0 := by
  rw [Combiner.root, Combiner.getD_tree (Nat.le_refl _)]
  rfl

/-- The tree reads the active lanes alone. -/
theorem Combiner.tree_congr (h : ∀ l, l < 64 → x l = x' l) : c.tree m x = c.tree m x' := by
  unfold Combiner.tree
  congr 1
  refine List.map_congr_left fun l hl => ?_
  rw [h l (by simpa [allLanes] using hl)]

end Tree

/-! ## The integer combinations (R163) -/
section Integers

/-- The operand of the lesser key, the first of two with one key. -/
theorem lesser_assoc (key : BitVec 32 → Int) (x y z : BitVec 32) :
    (if key (if key x ≤ key y then x else y) ≤ key z then if key x ≤ key y then x else y else z) =
      if key x ≤ key (if key y ≤ key z then y else z) then x else if key y ≤ key z then y else z := by
  grind

/-- The operand of the greater key, the second of two with one key. -/
theorem greater_assoc (key : BitVec 32 → Int) (x y z : BitVec 32) :
    (if key (if key x ≤ key y then y else x) ≤ key z then z else if key x ≤ key y then y else x) =
      if key x ≤ key (if key y ≤ key z then z else y) then if key y ≤ key z then z else y else x := by
  grind

theorem ule_eq_decide_cast (x y : BitVec 32) : x.ule y = decide ((x.toNat : Int) ≤ y.toNat) := by
  simp [BitVec.ule]

theorem combine_assoc (op : Nat) (x y z : BitVec 32) :
    (Claims.combine op).1 ((Claims.combine op).1 x y) z = (Claims.combine op).1 x ((Claims.combine op).1 y z) := by
  rcases op with _ | _ | _ | _ | _ | _ | _ | n
  · exact BitVec.add_assoc x y z
  · exact BitVec.and_assoc x y z
  · exact BitVec.or_assoc x y z
  · exact BitVec.xor_assoc x y z
  · simpa [Claims.combine, BitVec.sle] using lesser_assoc BitVec.toInt x y z
  · simpa [Claims.combine, BitVec.sle] using greater_assoc BitVec.toInt x y z
  · simpa [Claims.combine, ule_eq_decide_cast] using lesser_assoc (fun x => x.toNat) x y z
  · simpa [Claims.combine, ule_eq_decide_cast] using greater_assoc (fun x => x.toNat) x y z

theorem sle_intMax (x : BitVec 32) : x.sle (BitVec.intMax 32) = true := by
  have := x.toInt_lt
  rw [BitVec.sle_iff_toInt_le, BitVec.toInt_intMax]
  omega

theorem ule_allOnes (x : BitVec 32) : x.ule (BitVec.allOnes 32) = true := by
  have := x.isLt
  rw [BitVec.ule_iff_toNat_le, BitVec.toNat_allOnes]
  omega

theorem zero_ule (x : BitVec 32) : (0#32).ule x = true := BitVec.ule_iff_toNat_le.mpr (Nat.zero_le _)

theorem eq_of_sle_of_sle {x y : BitVec 32} (h : x.sle y = true) (h' : y.sle x = true) : x = y :=
  BitVec.eq_of_toInt_eq (Int.le_antisymm (BitVec.sle_iff_toInt_le.mp h) (BitVec.sle_iff_toInt_le.mp h'))

theorem eq_of_ule_of_ule {x y : BitVec 32} (h : x.ule y = true) (h' : y.ule x = true) : x = y :=
  BitVec.eq_of_toNat_eq (Nat.le_antisymm (BitVec.ule_iff_toNat_le.mp h) (BitVec.ule_iff_toNat_le.mp h'))

theorem combine_unit_left (op : Nat) (x : BitVec 32) : (Claims.combine op).1 (Claims.combine op).2 x = x := by
  rcases op with _ | _ | _ | _ | _ | _ | _ | n
  · exact BitVec.zero_add x
  · exact BitVec.allOnes_and
  · exact BitVec.zero_or
  · exact BitVec.zero_xor
  · exact ite_eq_right_iff.mpr fun h => eq_of_sle_of_sle h (sle_intMax x)
  · exact if_pos (BitVec.intMin_sle x)
  · exact ite_eq_right_iff.mpr fun h => eq_of_ule_of_ule h (ule_allOnes x)
  · exact if_pos (c := (0#32).ule x = true) (e := 0#32) (zero_ule x)

theorem combine_unit_right (op : Nat) (x : BitVec 32) : (Claims.combine op).1 x (Claims.combine op).2 = x := by
  rcases op with _ | _ | _ | _ | _ | _ | _ | n
  · exact BitVec.add_zero x
  · exact BitVec.and_allOnes
  · exact BitVec.or_zero
  · exact BitVec.xor_zero
  · exact if_pos (sle_intMax x)
  · exact ite_eq_right_iff.mpr fun h => eq_of_sle_of_sle (BitVec.intMin_sle x) h
  · exact if_pos (ule_allOnes x)
  · exact ite_eq_right_iff.mpr fun h => eq_of_ule_of_ule (zero_ule x) h

/-- The model's combination of two 32-bit numbers, which raises no flag. -/
theorem intCombiner_op (op : Nat) (x y : BitVec 32) : (intCombiner op).op x.toNat y.toNat = (((Claims.combine op).1 x y).toNat, 0) := by
  have hs : ∀ x : BitVec 32, sx 32 x.toNat = x.toInt := fun x => by rw [sx_eq 32 _ (by decide), BitVec.ofNat_toNat, BitVec.setWidth_eq]
  rcases op with _ | _ | _ | _ | _ | _ | _ | n
  · simp [intCombiner, Claims.combine]
  · simp [intCombiner, Claims.combine]
  · simp [intCombiner, Claims.combine]
  · simp [intCombiner, Claims.combine]
  · by_cases h : x.toInt ≤ y.toInt
    · simp [intCombiner, Claims.combine, hs, BitVec.sle_iff_toInt_le, h, Int.not_lt.mpr h]
    · simp [intCombiner, Claims.combine, hs, BitVec.sle_iff_toInt_le, h, Int.not_le.mp h]
  · rcases Int.lt_trichotomy x.toInt y.toInt with h | h | h
    · simp [intCombiner, Claims.combine, hs, BitVec.sle_iff_toInt_le, h, Int.le_of_lt h]
    · obtain rfl := BitVec.eq_of_toInt_eq h
      simp [intCombiner, Claims.combine]
    · simp [intCombiner, Claims.combine, hs, BitVec.sle_iff_toInt_le, Int.not_lt.mpr (Int.le_of_lt h), Int.not_le.mpr h]
  · simp [intCombiner, Claims.combine, BitVec.ule_iff_toNat_le, apply_ite BitVec.toNat, Nat.min_def]
  · simp [intCombiner, Claims.combine, BitVec.ule_iff_toNat_le, apply_ite BitVec.toNat, Nat.max_def]

theorem intCombiner_unit (op : Nat) : (intCombiner op).unit = ((Claims.combine op).2).toNat := by
  rcases op with _ | _ | _ | _ | _ | _ | _ | n <;> rfl

/-! What a stretch of lanes combines to. -/

variable {op : Nat} {m : DWord} {x : Nat → BitVec 32}

/-- A lane's operand: the identity where it is inactive. -/
def laneOperand (op : Nat) (m : DWord) (x : Nat → BitVec 32) (l : Nat) : BitVec 32 := if m.getLsbD l then x l else (Claims.combine op).2

/-- The combination of the n lanes from lane a on. -/
def segment (op : Nat) (m : DWord) (x : Nat → BitVec 32) (a n : Nat) : BitVec 32 :=
  ((List.range' a n).map (laneOperand op m x)).foldl (Claims.combine op).1 (Claims.combine op).2

theorem foldl_combine (op : Nat) (v : BitVec 32) (l : List (BitVec 32)) :
    l.foldl (Claims.combine op).1 v = (Claims.combine op).1 v (l.foldl (Claims.combine op).1 (Claims.combine op).2) := by
  have : Std.Associative (Claims.combine op).1 := ⟨combine_assoc op⟩
  rw [← List.foldl_assoc (op := (Claims.combine op).1), combine_unit_right]

theorem segment_one (l : Nat) : segment op m x l 1 = laneOperand op m x l := combine_unit_left op _

theorem segment_add (a n k : Nat) : segment op m x a (n + k) = (Claims.combine op).1 (segment op m x a n) (segment op m x (a + n) k) := by
  simp only [segment]
  rw [← List.range'_append_1, List.map_append, List.foldl_append, foldl_combine]

/-- Inactive lanes stand as the identity: the active lanes alone combine. -/
theorem combined_eq_segment (n : Nat) : Claims.combined op m x n = segment op m x 0 n := by
  rw [Claims.combined, segment, List.range_eq_range', List.foldl_map, List.foldl_filter, List.foldl_map]
  congr 1
  funext v l
  rw [laneOperand]
  split
  · rfl
  · exact (combine_unit_right op v).symm

/-- The integer combination of two nodes without flags. -/
theorem intCombiner_join (v w : BitVec 32) :
    (intCombiner op).join (v.toNat, 0) (w.toNat, 0) = (((Claims.combine op).1 v w).toNat, 0) := by
  simp [Combiner.join, intCombiner_op]

theorem intCombiner_lane (l : Nat) :
    (intCombiner op).lane m (fun l => (x l).toNat) l = ((laneOperand op m x l).toNat, 0) := by
  rw [Combiner.lane, laneOperand, intCombiner_unit, ← apply_ite BitVec.toNat]

/-- A node holds the combination of the lanes beneath it. -/
theorem intCombiner_node (b k : Nat) :
    (intCombiner op).node ((intCombiner op).lane m fun l => (x l).toNat) b k = ((segment op m x (k * 2 ^ b) (2 ^ b)).toNat, 0) := by
  induction b generalizing k with
  | zero => rw [Combiner.node, intCombiner_lane, Nat.pow_zero, Nat.mul_one, segment_one]
  | succ b ih =>
    have h0 : 2 * k * 2 ^ b = k * 2 ^ (b + 1) := by rw [Nat.pow_succ', Nat.mul_comm 2 k, Nat.mul_assoc]
    have h1 : (2 * k + 1) * 2 ^ b = k * 2 ^ (b + 1) + 2 ^ b := by rw [Nat.succ_mul, h0]
    rw [Combiner.node, ih, ih, intCombiner_join, h0, h1, ← segment_add, Nat.pow_succ', Nat.two_mul]

/-- The tree of an integer combination over the lanes' values. -/
def intTree (op : Nat) (m : DWord) (x : Nat → BitVec 32) : List (List (Nat × Nat)) := (intCombiner op).tree m fun l => (x l).toNat

theorem root_intTree : (intCombiner op).root (intTree op m x) = ((segment op m x 0 64).toNat, 0) := by
  rw [intTree, Combiner.root_tree]
  exact intCombiner_node 6 0

/-- The value so far of an inclusive result: that of the lanes below pos, none where there are none yet. -/
def Covers (op : Nat) (m : DWord) (x : Nat → BitVec 32) (pos : Nat) (acc : Option (Nat × Nat)) : Prop :=
  acc = none ∧ pos = 0 ∨ acc = some ((segment op m x 0 pos).toNat, 0)

/-- The aligned nodes of the bits left of n extend the value so far to the first n lanes (R46). -/
theorem prefixFrom_intTree {n b pos : Nat} {acc : Option (Nat × Nat)} (hb : b ≤ 7) (hn : n ≤ 64) (hpos : n = pos + n % 2 ^ b)
    (hdvd : 2 ^ b ∣ pos) (hacc : Covers op m x pos acc) :
    ((intCombiner op).prefixFrom (intTree op m x) n b pos acc).getD ((intCombiner op).unit, 0) = ((segment op m x 0 n).toNat, 0) := by
  induction b generalizing pos acc with
  | zero =>
    obtain rfl : n = pos := by omega
    rcases hacc with ⟨rfl, rfl⟩ | rfl
    · rw [Combiner.prefixFrom, Option.getD_none, intCombiner_unit]
      rfl
    · rfl
  | succ b ih =>
    have hmod := Nat.mod_pow_succ (x := n) (b := 2) (k := b)
    have hdvd' : 2 ^ b ∣ pos := Nat.dvd_trans (Nat.pow_dvd_pow 2 (Nat.le_succ b)) hdvd
    rw [Combiner.prefixFrom]
    split
    · next hbit =>
      rw [Nat.testBit_eq_decide_div_mod_eq, decide_eq_true_eq] at hbit
      rw [hbit, Nat.mul_one] at hmod
      have hk : pos / 2 ^ b < 2 ^ (6 - b) := by
        rw [Nat.div_lt_iff_lt_mul (Nat.two_pow_pos b), ← Nat.pow_add, Nat.sub_add_cancel (by omega)]
        have := Nat.two_pow_pos b
        omega
      have hnode := Combiner.node_of_tree (c := intCombiner op) (m := m) (x := fun l => (x l).toNat) (by omega : b ≤ 6) hk
      rw [intCombiner_node, Nat.div_mul_cancel hdvd'] at hnode
      refine ih (by omega) (by omega) (Nat.dvd_add hdvd' (Nat.dvd_refl _)) (.inr ?_)
      rw [intTree, hnode]
      rcases hacc with ⟨rfl, rfl⟩ | rfl
      · rw [Nat.zero_add]
      · dsimp only
        rw [intCombiner_join, segment_add, Nat.zero_add]
    · next hbit =>
      rw [Nat.testBit_eq_decide_div_mod_eq, decide_eq_true_eq, ← ne_eq, Nat.mod_two_ne_one] at hbit
      rw [hbit, Nat.mul_zero, Nat.add_zero] at hmod
      exact ih (by omega) (by omega) hdvd' hacc

theorem scanAt_intTree {ex : Bool} {l : Nat} (h : l < 64) :
    (intCombiner op).scanAt (intTree op m x) ex l = ((segment op m x 0 (if ex then l else l + 1)).toNat, 0) := by
  have hn : (if ex then l else l + 1) ≤ 64 := by split <;> omega
  exact prefixFrom_intTree (Nat.le_refl _) hn (by omega) (Nat.dvd_zero _) (.inl ⟨rfl, rfl⟩)

/-- The integer tree over a source of 32 bits. -/
theorem intTree_num (op : Nat) (j : Issue) (ys : List Src) (n : Nat) :
    ((intCombiner op).tree j.em fun l => j.at ys n (.int 32) l) = intTree op j.em (Claims.num j ys n 32) :=
  Combiner.tree_congr fun l hl => by
    rw [Claims.num, BitVec.toNat_ofNat, Nat.mod_eq_of_lt (Issue.at_lt ys n 32 l (.inl rfl) hl)]

/-- What RED gives an s register. -/
theorem ofNat_root_num (op : Nat) (j : Issue) (ys : List Src) (n : Nat) :
    BitVec.ofNat 64 ((intCombiner op).root ((intCombiner op).tree j.em fun l => j.at ys n (.int 32) l)).1 =
      (Claims.combined op j.em (Claims.num j ys n 32) 64).zeroExtend 64 := by
  rw [intTree_num, root_intTree, combined_eq_segment, BitVec.ofNat_toNat]

end Integers

/-! ## How they end -/
section Endings

variable {s : State} {i : Issue}

theorem State.settle_settles (g : Group) (m : DWord) (flags : Nat → Nat) : Claims.Settles (.next (s.settle i g m flags)) (i, s) g m flags :=
  ⟨_, Retired.retire _ _ _, rfl⟩

/-- A vector result without flags, by its values in the active lanes. -/
theorem State.vec_yields (d : Nat) (wide : Bool) {val val' : Nat → Nat} (h : ∀ l, l < 64 → val l = val' l) :
    Claims.Yields (.next (s.vec i { d := d, wide := wide, m := i.em, val := val })) (i, s) d wide val' := by
  refine ⟨_, rfl, ?_⟩
  rw [State.vec_plain, Issue.write_congr d wide i.em fun l hl _ => h l hl]
  exact Retired.retire _ _ _

end Endings
end Sys2Proof.Machine

section
open Sys2Proof Sys2Proof.Machine

theorem Sys2Proof.Claims.integerScans : Claims.IntegerScans := by
  refine ⟨fun h f s i hi => ?_, fun h f s i hi => ?_⟩
  · have he : exec (.scan h f) s = execScan h f s := rfl
    rw [he, execScan, simple_ok hi]
    refine State.vec_yields f.d.toNat false fun l hl => ?_
    rw [intTree_num, scanAt_intTree hl, combined_eq_segment]
    rfl
  · have he : exec (.red h f) s = execRed h f s := rfl
    rw [he, execRed, simple_ok hi]
    refine ⟨_, rfl, ?_⟩
    rw [← ofNat_root_num]
    exact Retired.retire _ _ _

theorem Sys2Proof.Claims.floatScans : Claims.FloatScans := by
  refine ⟨fun h f s i hop hi => ?_, fun h f s i hop hi => ?_⟩
  · have he : exec (.fscan h f) s = execFscan h f s := rfl
    have hop' : decide (3 ≤ scanOp f) = false := decide_eq_false (by omega)
    rw [he, execFscan, perform_ok (i := i) (by rwa [hop'])]
    exact State.settle_settles _ _ _
  · have he : exec (.fred h f) s = execFred h f s := rfl
    have hop' : decide (3 ≤ scanOp f) = false := decide_eq_false (by omega)
    rw [he, execFred, perform_ok (i := i) (by rwa [hop'])]
    exact State.settle_settles _ _ _

/-- Settles O12: the aligned nodes of R46 are stretches of lanes laid end to end, whose integer combinations join by associativity. -/
theorem scansAndReductions : Obligations.ScansAndReductions := ⟨Claims.integerScans, Claims.floatScans⟩

end

/-! PROOFS. The floating-point instructions (R132 to R149): an elementwise one computes its function of every element, and what the other
forms make of their sources. -/
namespace Sys2Proof.Machine

section FlaggedResults

variable {s : State} {i : Issue}

/-- A vector result with flags, by each lane's value and flags. -/
theorem State.vec_computes (d : Nat) (wide : Bool) {r r' : Nat → Nat × Nat} (h : ∀ l, r l = r' l) :
    Claims.Computes (.next (s.vec i { d := d, wide := wide, m := i.em, val := fun l => (r l).1, flags := fun l => (r l).2 })) (i, s)
      d wide r' := by
  obtain rfl : r = r' := funext h
  exact State.settle_settles _ _ _

end FlaggedResults

/-! ## Elementwise instructions (R132 to R136) -/
section Elementwise
open Claims

theorem packElems_one (w : Nat) (fn : Nat → Nat × Nat) : packElems w 1 fn = fn 0 := by
  simp [packElems, List.range_succ]

theorem packElems_two (w : Nat) (fn : Nat → Nat × Nat) :
    packElems w 2 fn = ((fn 0).1 + (fn 1).1 * 2 ^ w, (fn 0).2 ||| (fn 1).2) := by
  simp [packElems, List.range_succ]

theorem packElems_eq_elements {n : Nat} (hn : n = 1 ∨ n = 2) (w : Nat) (fn : Nat → Nat × Nat) :
    packElems w n fn = elements n w fn := by
  obtain rfl | rfl := hn
  · exact packElems_one w fn
  · exact packElems_two w fn

/-- An elementwise instruction without a fault computes its function of its sources' elements. -/
theorem execFp_computes {h : List Hint} {s : State} {i : Issue} {op : BitVec 8} {sh : FpShape} {pl : BitVec 24} {d : Nat} {ys : List Src}
    {fn : FpMode → List Nat → Nat × Nat} (hn : sh.n = 1 ∨ sh.n = 2)
    (hi : Issues s h i (reservedSet op pl) (sh.form d ys) false false none) :
    let p := s.sampleClk i (sh.form d ys)
    Computes (execFp op sh pl d ys fn h s) p d (sh.t == 15) fun l =>
      elements sh.n sh.F.width fun j =>
        fn (fpModeOf h) ((ys.map fun y => p.1.src y (.elem sh.t) l).map (element sh.F.width · j)) := by
  rw [execFp, simple_ok hi]
  exact State.vec_computes d _ fun l => packElems_eq_elements hn _ _

theorem exec_fpTwo {r : OpF FmtV (Nat → Nat → Nat × Nat)} (hr : r ∈ fpTwo) (h : List Hint) (f : FmtV) (s : State) :
    exec (r.ins h f) s = execFp r.op r.sh f.payload f.d.toNat f.two (fun m xs => r.fn m (nth xs 0) (nth xs 1)) h s := by
  simp only [fpTwo, List.cons_append, List.nil_append, List.mem_cons, List.not_mem_nil, or_false] at hr
  obtain rfl | rfl | rfl | rfl | rfl | rfl | rfl | rfl | rfl | rfl | rfl | rfl | rfl | rfl | rfl | rfl | rfl := hr <;> rfl

theorem exec_fpOne {r : OpF FmtV (Nat → Nat × Nat)} (hr : r ∈ fpOne) (h : List Hint) (f : FmtV) (s : State) :
    exec (r.ins h f) s = execFp r.op r.sh f.payload f.d.toNat f.one (fun m xs => r.fn m (nth xs 0)) h s := by
  simp only [fpOne, List.cons_append, List.nil_append, List.mem_cons, List.not_mem_nil, or_false] at hr
  obtain rfl | rfl | rfl | rfl | rfl | rfl | rfl | rfl | rfl | rfl | rfl | rfl | rfl := hr <;> rfl

theorem exec_fpThree {r : OpF FmtT (Nat → Nat → Nat → Nat × Nat)} (hr : r ∈ fpThree) (h : List Hint) (f : FmtT) (s : State) :
    exec (r.ins h f) s =
      execFp r.op r.sh f.payload f.d.toNat f.three (fun m xs => r.fn m (nth xs 0) (nth xs 1) (nth xs 2)) h s := by
  simp only [fpThree, List.mem_cons, List.not_mem_nil, or_false] at hr
  obtain rfl | rfl | rfl | rfl := hr <;> rfl

/-- An instruction of the tables has one element in a word, or two (R136). -/
theorem fpTables_one_or_two : (∀ r ∈ fpTwo, r.sh.n = 1 ∨ r.sh.n = 2) ∧ (∀ r ∈ fpOne, r.sh.n = 1 ∨ r.sh.n = 2) ∧
    ∀ r ∈ fpThree, r.sh.n = 1 ∨ r.sh.n = 2 := by
  simp [fpTwo, fpOne, fpThree, shF32, shF16, shBf16, shF64, FpShape.sf]

end Elementwise

/-! ## Conversions (R140 to R143) -/
section ConversionFields

variable {f : FmtI}

theorem cvtFields_eq (f : FmtI) : cvtFields f = (f.imm.toNat % 16, f.imm.toNat / 16 % 16, f.imm.toNat / 256) := by
  have h : f.imm.toNat / 256 % 8 = f.imm.toNat / 256 := Nat.mod_eq_of_lt (by omega)
  simp [cvtFields, bits, Nat.shiftRight_eq_div_pow, h]

theorem cvtBad_eq_false (ht : f.imm.toNat % 16 ≠ 13) (hu : f.imm.toNat / 16 % 16 ≠ 13)
    (he : f.imm.toNat / 256 < elemsOf (f.imm.toNat / 16 % 16)) : cvtBad f = false := by
  simp [cvtBad, cvtFields_eq, ht, hu, he]

/-- PACK and UNPK refuse nothing where their types are a 32-bit and a narrow one, of which elements 2e and 2e + 1 stand in a word. -/
theorem pairBad_eq_false {t u e : Nat} (ht : plain32 t = true) (hu : narrow u = true) (he : 2 * e + 1 < elemsOf u) :
    (!plain32 t || !narrow u || decide (elemsOf u ≤ 2 * e + 1)) = false := by
  simp [ht, hu, he]

end ConversionFields

/-! ## Dot steps (R146) -/
section DotSteps

theorem dotTypes_ok {h : List Hint} {dflt : Nat} {ok : Nat → Bool} (hb : dotBad h dflt ok = false) :
    ok (dotTypes h dflt).1 = true ∧ ok (dotTypes h dflt).2 = true := by
  simp only [dotBad, Bool.or_eq_false_iff, Bool.not_eq_false'] at hb
  obtain ⟨⟨-, ha⟩, hb⟩ := hb
  exact ⟨ha, hb⟩

/-- The floating-point types of a byte in the order of their codes (R24). -/
theorem ofCode_byteFloat {t : Nat} (ht : (decide (8 ≤ t) && decide (t ≤ 11)) = true) :
    Ty.ofCode t = .flt (([e4m3, e5m2, e3m2, e2m3] : List Fmt).getD (t - 8) f32) := by
  simp only [Bool.and_eq_true, decide_eq_true_eq] at ht
  obtain ⟨h8, h11⟩ := ht
  obtain rfl | rfl | rfl | rfl : t = 8 ∨ t = 9 ∨ t = 10 ∨ t = 11 := by omega
  all_goals rfl

/-- A byte of a 32-bit word as a number under code 0, i8, or 1, n8 (R24). -/
theorem value_elem_byte {t k : Nat} (ht : decide (t ≤ 1) = true) (hk : k < 4) (x : Nat) :
    (Ty.ofCode t).value ((Ty.ofCode t).elem x k) =
      .int (if t = 0 then ((BitVec.ofNat 32 x).extractLsb' (8 * k) 8).toInt else (x / 2 ^ (8 * k) % 256 : Nat)) := by
  obtain rfl | rfl : t = 0 ∨ t = 1 := Nat.le_one_iff_eq_zero_or_eq_one.mp (of_decide_eq_true ht)
  · have hx : BitVec.ofNat 8 ((x >>> (8 * k)) % 2 ^ 8) = (BitVec.ofNat 32 x).extractLsb' (8 * k) 8 := by
      apply BitVec.eq_of_toNat_eq
      simp only [BitVec.toNat_ofNat, BitVec.extractLsb'_toNat, Nat.shiftRight_eq_div_pow]
      obtain rfl | rfl | rfl | rfl : k = 0 ∨ k = 1 ∨ k = 2 ∨ k = 3 := by omega
      all_goals omega
    simp [Ty.ofCode, Ty.value, Ty.elem, Ty.slot, Ty.width, sx_eq, ← hx]
  · simp [Ty.ofCode, Ty.value, Ty.elem, Ty.slot, Ty.width, Nat.shiftRight_eq_div_pow]

end DotSteps
end Sys2Proof.Machine

section
open Sys2Proof Sys2Proof.Machine

theorem Sys2Proof.Claims.floatElementwise : Claims.FloatElementwise := by
  obtain ⟨hTwo, hOne, hThree⟩ := fpTables_one_or_two
  refine ⟨fun r hr h f s i hi => ?_, fun r hr h f s i hi => ?_, fun r hr h f s i hi => ?_⟩
  · rw [exec_fpTwo hr]
    exact execFp_computes (hTwo r hr) hi
  · rw [exec_fpOne hr]
    exact execFp_computes (hOne r hr) hi
  · rw [exec_fpThree hr]
    exact execFp_computes (hThree r hr) hi

theorem Sys2Proof.Claims.floatOtherForms : Claims.FloatOtherForms := by
  refine ⟨fun h f s i ⟨ht, hu, he⟩ hi => ?cvt, fun h f s i ⟨hu, ht, he⟩ hi => ?pack, fun h f s i ⟨ht, hu, he⟩ hi => ?unpk,
    fun h f s i hb hi => ?fdot4, fun h f s i hb hi => ?idot4, fun h f s i hi => ?ldexp, fun h f s i hi => ?frexp,
    fun h f s i ht hi => ?fclass⟩
  case cvt =>
    have hx : exec (.cvt h f) s = execCvt h f s := rfl
    rw [hx, execCvt, cvtFields_eq]
    dsimp only
    rw [perform_ok (i := i) (by rwa [cvtBad_eq_false ht hu he])]
    simp only [← beq_iff_eq (a := (fpModeOf h).mode)]
    exact State.vec_computes _ _ fun _ => rfl
  case pack =>
    have hx : exec (.pack h f) s = execPack h f s := rfl
    rw [hx, execPack, cvtFields_eq]
    dsimp only
    rw [perform_ok (i := i) (by rwa [pairBad_eq_false hu ht he])]
    refine State.vec_computes _ _ fun l => ?_
    simp [List.range_succ]
  case unpk =>
    have hx : exec (.unpk h f) s = execUnpk h f s := rfl
    rw [hx, execUnpk, cvtFields_eq]
    dsimp only
    rw [perform_ok (i := i) (by rwa [pairBad_eq_false ht hu he])]
    exact State.vec_computes _ _ fun l => packElems_two 32 _
  case fdot4 =>
    have hx : exec (.fdot4 h f) s = execFdot4 h f s := rfl
    obtain ⟨ha, hb'⟩ := dotTypes_ok hb
    rw [hx, execFdot4]
    dsimp only
    rw [perform_ok (i := i) (by rwa [hb])]
    refine State.vec_computes _ _ fun l => ?_
    simp only [ofCode_byteFloat ha, ofCode_byteFloat hb']
    rfl
  case idot4 =>
    have hx : exec (.idot4 h f) s = execIdot4 h f s := rfl
    obtain ⟨ha, hb'⟩ := dotTypes_ok hb
    rw [hx, execIdot4]
    dsimp only
    rw [perform_ok (i := i) (by rwa [hb])]
    refine State.vec_yields _ _ fun l _ => ?_
    have hr : List.range 4 = [0, 1, 2, 3] := rfl
    simp only [low_eq, hr, List.foldl_cons, List.foldl_nil]
    simp (disch := decide) only [value_elem_byte ha, value_elem_byte hb']
  case ldexp =>
    have hx : exec (.ldexp h f) s = execLdexp h f s := rfl
    rw [hx, execLdexp, simple_ok hi]
    refine State.vec_computes _ _ fun l => ?_
    rw [sx_eq 32 _ (by decide)]
    rfl
  case frexp =>
    have hx : exec (.frexp h f) s = execFrexp h f s := rfl
    rw [hx, execFrexp, simple_ok hi]
    exact State.vec_computes _ _ fun _ => rfl
  case fclass =>
    have hx : exec (.fclass h f) s = execFclass h f s := rfl
    have hb : (!(f.b.toNat % 16 == 6 || f.b.toNat % 16 == 7 || f.b.toNat % 16 == 14 || f.b.toNat % 16 == 15)) = false := by
      simpa only [Bool.not_eq_false', Bool.or_eq_true, beq_iff_eq, or_assoc] using ht
    rw [hx, execFclass, perform_ok (i := i) (by rwa [hb])]
    exact State.vec_yields _ _ fun _ _ => rfl

/-- Settles O9: the elementwise instructions are one operation, `execFp`, on their tables' functions, and each other form completes as
a vector result whose lanes are compared with the claim's. -/
theorem floatResults : Obligations.FloatResults := ⟨Claims.floatElementwise, Claims.floatOtherForms⟩

end

/-! PROOFS. Exchange between lanes (R156 to R162, R166): the active lanes in order, the rows that BALANCE lays end to end, and the places
that XPUT writes. -/
namespace Sys2Proof.Machine

/-! ## The active lanes in order -/
section ActiveLanes

variable {m : DWord} {l : Nat}

/-- A mask holds the lanes that its test accepts. -/
theorem getLsbD_maskOf {p : Nat → Bool} (h : l < 64) : (maskOf p).getLsbD l = p l := by
  have fold : ∀ ls : List Nat,
      (ls.foldr (fun k acc => if p k then acc ||| (1 <<< k) else acc) 0).testBit l = (decide (l ∈ ls) && p l) := by
    intro ls
    induction ls with
    | nil => simp
    | cons k ls ih =>
      rw [List.foldr_cons, apply_ite (Nat.testBit · l), Nat.testBit_or, ih, Nat.one_shiftLeft, Nat.testBit_two_pow]
      by_cases hk : k = l
      · subst hk
        cases hp : p k <;> simp
      · simp [hk, Ne.symm hk]
  rw [maskOf, BitVec.getLsbD_ofNat, fold]
  simp [allLanes, h]

theorem range_split {n : Nat} (h : l ≤ n) : List.range n = List.range l ++ List.range' l (n - l) := by
  have := (List.range'_append_1 (s := 0) (m := l) (n := n - l)).symm
  rwa [Nat.zero_add, Nat.add_sub_cancel' h, ← List.range_eq_range', ← List.range_eq_range'] at this

/-- The active lanes: those below an active lane, the lane, and those above it. -/
theorem lanesOf_split (hl : l < 64) (hm : m.getLsbD l = true) :
    lanesOf m = (List.range l).filter m.getLsbD ++ l :: (List.range' (l + 1) (63 - l)).filter m.getLsbD := by
  rw [lanesOf, allLanes, range_split (Nat.le_of_lt hl), show 64 - l = 63 - l + 1 by omega, List.range'_succ, List.filter_append,
    List.filter_cons_of_pos hm]

/-- The active lanes below a lane, counted by a test. -/
theorem length_filter_below (hl : l < 64) (p : Nat → Bool) :
    ((lanesOf m).filter fun j => decide (j < l) && p j).length = (List.range l).countP fun j => m.getLsbD j && p j := by
  rw [← List.countP_eq_length_filter, lanesOf, List.countP_filter, allLanes, range_split (Nat.le_of_lt hl), List.countP_append]
  have above : (List.range' l (64 - l)).countP (fun j => decide (j < l) && p j && m.getLsbD j) = 0 := by
    rw [List.countP_eq_zero]
    intro j hj
    have := (List.mem_range'_1.mp hj).1
    simp [Nat.not_lt.mpr this]
  rw [above, Nat.add_zero]
  refine List.countP_congr fun j hj => ?_
  simp [List.mem_range.mp hj, and_comm]

/-- An active lane's place among the active lanes is the number of active lanes below it. -/
theorem idxOf_lanesOf (hl : l < 64) (hm : m.getLsbD l = true) : (lanesOf m).idxOf l = Claims.rankIn m l := by
  have hbelow : l ∉ (List.range l).filter m.getLsbD := fun h => by simp at h
  rw [lanesOf_split hl hm, List.idxOf_append, if_neg hbelow, List.idxOf_cons_self, Nat.zero_add, ← List.countP_eq_length_filter]
  rfl

/-- A source read as a number of 32 or 64 bits loses nothing by its width. -/
theorem toNat_num {j : Issue} {ys : List Src} {n w : Nat} (hw : w = 32 ∨ w = 64) (hl : l < 64) :
    (Claims.num j ys n w l).toNat = j.at ys n (.int w) l := by
  rw [Claims.num, BitVec.toNat_ofNat, Nat.mod_eq_of_lt (Issue.at_lt ys n w l hw hl)]

/-- Two lanes hold the same number where their sources read the same. -/
theorem num_beq_num {j : Issue} {ys : List Src} {n w k : Nat} (hw : w = 32 ∨ w = 64) (hk : k < 64) (hl : l < 64) :
    (Claims.num j ys n w k == Claims.num j ys n w l) = (j.at ys n (.int w) k == j.at ys n (.int w) l) := by
  rw [← toNat_num hw hk, ← toNat_num hw hl, Bool.eq_iff_iff, beq_iff_eq, beq_iff_eq, BitVec.toNat_inj]

end ActiveLanes

/-! ## Rows laid end to end (R159) -/
section Rows

variable {m : DWord} {x : Nat → Nat} {g j k : Nat}

theorem sumBelow_succ (m : DWord) (x : Nat → Nat) (l : Nat) :
    Claims.sumBelow m x (l + 1) = Claims.sumBelow m x l + if m.getLsbD l then x l else 0 := by
  rw [Claims.sumBelow, Claims.sumBelow, List.range_succ, List.filter_append, List.map_append, List.sum_append]
  by_cases h : m.getLsbD l = true <;> simp [h]

theorem sumBelow_mono (m : DWord) (x : Nat → Nat) {a b : Nat} (h : a ≤ b) : Claims.sumBelow m x a ≤ Claims.sumBelow m x b := by
  induction h with
  | refl => exact Nat.le_refl _
  | step _ ih =>
    rw [sumBelow_succ]
    exact Nat.le_trans ih (Nat.le_add_right _ _)

/-- The row of an active lane starts at the sum of the rows of the active lanes below it. -/
theorem rowStarts_range' (m : DWord) (x : Nat → Nat) (a n : Nat) :
    rowStarts x ((List.range' a n).filter m.getLsbD) (Claims.sumBelow m x a) =
      ((List.range' a n).filter m.getLsbD).map fun j => (j, Claims.sumBelow m x j, x j) := by
  induction n generalizing a with
  | zero => rfl
  | succ n ih =>
    have hs := sumBelow_succ m x a
    rw [List.range'_succ, List.filter_cons]
    split
    · next ha =>
      rw [if_pos ha] at hs
      rw [rowStarts, List.map_cons, ← hs, ih]
    · next ha =>
      rw [if_neg ha] at hs
      rw [← ih, hs]
      rfl

theorem rowStarts_lanesOf (m : DWord) (x : Nat → Nat) :
    rowStarts x (lanesOf m) 0 = (lanesOf m).map fun j => (j, Claims.sumBelow m x j, x j) := by
  rw [lanesOf, allLanes, List.range_eq_range']
  exact rowStarts_range' m x 0 64

/-- Item g lies in the row of lane j. -/
def InRow (m : DWord) (x : Nat → Nat) (g j : Nat) : Prop :=
  Claims.sumBelow m x j ≤ g ∧ g < Claims.sumBelow m x j + x j

/-- The row of an active lane ends before that of a higher lane starts. -/
theorem InRow.not_lt (hj : InRow m x g j) (hm : m.getLsbD j = true) (hk : InRow m x g k) : ¬ j < k := by
  intro hlt
  have hend : Claims.sumBelow m x j + x j ≤ Claims.sumBelow m x k := by
    have := sumBelow_mono m x (Nat.succ_le_of_lt hlt)
    rwa [Nat.succ_eq_add_one, sumBelow_succ, if_pos hm] at this
  exact absurd hj.2 (Nat.not_lt.mpr (Nat.le_trans hend hk.1))

/-- An item lies in the row of one active lane at most. -/
theorem InRow.unique (hj : InRow m x g j) (hmj : m.getLsbD j = true) (hk : InRow m x g k) (hmk : m.getLsbD k = true) : j = k :=
  Nat.le_antisymm (Nat.not_lt.mp (hk.not_lt hmk hj)) (Nat.not_lt.mp (hj.not_lt hmj hk))

theorem balanceItem_rows (m : DWord) (x : Nat → Nat) (g : Nat) :
    balanceItem (rowStarts x (lanesOf m) 0) g =
      match (lanesOf m).find? fun j => decide (Claims.sumBelow m x j ≤ g) && decide (g < Claims.sumBelow m x j + x j) with
      | some j => j + 2 ^ 32 * (g - Claims.sumBelow m x j)
      | none => 2 ^ 64 - 1 := by
  rw [balanceItem, rowStarts_lanesOf, List.find?_map]
  simp only [Function.comp_def]
  cases (lanesOf m).find? fun j => decide (Claims.sumBelow m x j ≤ g) && decide (g < Claims.sumBelow m x j + x j) <;> rfl

/-- An item that lies in a row gives the row's lane and its offset in the row. -/
theorem balanceItem_of_inRow (hl : j < 64) (hm : m.getLsbD j = true) (hj : InRow m x g j) :
    balanceItem (rowStarts x (lanesOf m) 0) g = j + 2 ^ 32 * (g - Claims.sumBelow m x j) := by
  rw [balanceItem_rows]
  split
  · next k hk =>
    have hin : InRow m x g k := by simpa [InRow] using List.find?_some hk
    have hmk := ((lanesOf_spec m k).mp (List.mem_of_find?_eq_some hk)).2
    rw [hj.unique hm hin hmk]
  · next hnone =>
    have := List.find?_eq_none.mp hnone j ((lanesOf_spec m j).mpr ⟨hl, hm⟩)
    exact absurd hj (by simpa [InRow] using this)

/-- An item beyond every row gives all ones. -/
theorem balanceItem_of_not_inRow (h : ∀ j, j < 64 → m.getLsbD j = true → ¬ InRow m x g j) :
    balanceItem (rowStarts x (lanesOf m) 0) g = 2 ^ 64 - 1 := by
  rw [balanceItem_rows]
  split
  · next k hk =>
    have hin : InRow m x g k := by simpa [InRow] using List.find?_some hk
    obtain ⟨hlt, hmk⟩ := (lanesOf_spec m k).mp (List.mem_of_find?_eq_some hk)
    exact absurd hin (h k hlt hmk)
  · rfl

/-- Only the active lanes' lengths count. -/
theorem rowStarts_congr {y : Nat → Nat} {ls : List Nat} (h : ∀ l ∈ ls, x l = y l) (n : Nat) : rowStarts x ls n = rowStarts y ls n := by
  induction ls generalizing n with
  | nil => rfl
  | cons l ls ih =>
    rw [rowStarts, rowStarts, h l List.mem_cons_self, ih fun k hk => h k (List.mem_cons_of_mem l hk)]

end Rows

/-! ## Places of a register range (R160 to R162) -/
section Places

variable {g : Group} {c : Nat → Bool} {dst : Nat → Nat × Nat} {v : Nat → Word} {ls : List Nat} {r t l : Nat}

theorem rangeReg_eq (imm x : Nat) : rangeReg imm x = imm % 64 + x / 64 % 8 % 2 ^ (imm / 64 % 4) := by
  simp [rangeReg, rangeBase, rangeSize, bits, Nat.shiftRight_eq_div_pow]

theorem rangeLane_eq (x : Nat) : rangeLane x = x % 64 := by simp [rangeLane, bits]

theorem fillOf_word (n : Nat) (w : Word) :
    fillOf n false w.toNat = (if n = 0 then 0 else if n = 1 then w else BitVec.allOnes 32).toNat := by
  match n with
  | 0 => rfl
  | 1 => rfl
  | n + 2 => simp [fillOf]

theorem Group.vreg_putLane (g : Group) (r l : Nat) (w : Word) {k t : Nat} (ht : t < 64) :
    (g.putLane r l w).vreg k t = if (r, l) = (k, t) ∧ k ≠ 63 then w else g.vreg k t := by
  have hbit : (1#64 <<< l).getLsbD t = decide (l = t) := by
    rw [← BitVec.twoPow_eq, BitVec.getLsbD_twoPow]
    by_cases h : l = t
    · simp [h, ht]
    · simp [h]
  rw [Group.putLane, Group.vreg_setV (h := ht), hbit]
  refine ite_congr (propext ⟨?_, ?_⟩) (fun _ => rfl) fun _ => rfl
  · rintro ⟨rfl, hr, hlt⟩
    exact ⟨by rw [of_decide_eq_true hlt], hr⟩
  · rintro ⟨hp, hr⟩
    obtain ⟨rfl, rfl⟩ := Prod.mk.inj hp
    exact ⟨rfl, hr, decide_eq_true rfl⟩

/-- The lanes of a list write their values to their places one after another, where a test lets them. -/
def Group.putLanes (g : Group) (c : Nat → Bool) (dst : Nat → Nat × Nat) (v : Nat → Word) (ls : List Nat) : Group :=
  ls.foldl (fun g l => if c l then g.putLane (dst l).1 (dst l).2 (v l) else g) g

theorem Group.putLanes_cons :
    g.putLanes c dst v (l :: ls) = (if c l then g.putLane (dst l).1 (dst l).2 (v l) else g).putLanes c dst v ls := rfl

theorem Group.putLane_frame (g : Group) (r l : Nat) (w : Word) (b : Bank Lanes) :
    { g.putLane r l w with vregs := b } = { g with vregs := b } := by
  rw [Group.putLane, Group.setV]
  split <;> rfl

/-- Vector registers alone are written. -/
theorem Group.putLanes_frame (g : Group) (c : Nat → Bool) (dst : Nat → Nat × Nat) (v : Nat → Word) (ls : List Nat) (b : Bank Lanes) :
    { g.putLanes c dst v ls with vregs := b } = { g with vregs := b } := by
  induction ls generalizing g with
  | nil => rfl
  | cons l ls ih =>
    rw [Group.putLanes_cons, ih]
    split
    · exact g.putLane_frame _ _ _ b
    · rfl

/-- A place that no lane writes keeps its value. -/
theorem Group.vreg_putLanes_of_forall_ne (ht : t < 64) (h : ∀ l ∈ ls, c l = true → dst l ≠ (r, t)) :
    (g.putLanes c dst v ls).vreg r t = g.vreg r t := by
  induction ls generalizing g with
  | nil => rfl
  | cons l ls ih =>
    rw [Group.putLanes_cons, ih fun k hk => h k (List.mem_cons_of_mem l hk)]
    split
    · next hc => rw [Group.vreg_putLane _ _ _ _ ht, if_neg fun hp => h l List.mem_cons_self hc hp.1]
    · rfl

/-- Of the lanes that write one place the last one's value stays. -/
theorem Group.vreg_putLanes_of_last {as bs : List Nat} (ht : (dst l).2 < 64) (hc : c l = true) (hr : (dst l).1 ≠ 63)
    (h : ∀ k ∈ bs, c k = true → dst k ≠ dst l) : (g.putLanes c dst v (as ++ l :: bs)).vreg (dst l).1 (dst l).2 = v l := by
  have happ : g.putLanes c dst v (as ++ l :: bs) = ((g.putLanes c dst v as).putLane (dst l).1 (dst l).2 (v l)).putLanes c dst v bs := by
    rw [Group.putLanes, List.foldl_append, List.foldl_cons, if_pos hc]
    rfl
  rw [happ, Group.vreg_putLanes_of_forall_ne ht h, Group.vreg_putLane _ _ _ _ ht, if_pos ⟨rfl, hr⟩]

/-! What XPUT writes: the active lanes, in their order, where the place's lane is active (R162). -/

variable {j : Issue} {ys : List Src} {imm d : Nat}

/-- The register and the lane that a lane's index names. -/
def Issue.place (j : Issue) (ys : List Src) (imm l : Nat) : Nat × Nat :=
  (rangeReg imm (j.at ys 0 (.int 32) l), rangeLane (j.at ys 0 (.int 32) l))

theorem Issue.place_eq (hl : l < 64) :
    j.place ys imm l =
      (imm % 64 + (Claims.num j ys 0 32 l).toNat / 64 % 8 % 2 ^ (imm / 64 % 4), (Claims.num j ys 0 32 l).toNat % 64) := by
  rw [Issue.place, rangeReg_eq, rangeLane_eq, toNat_num (.inl rfl) hl]

theorem Issue.place_lane_lt (j : Issue) (ys : List Src) (imm l : Nat) : (j.place ys imm l).2 < 64 := by
  rw [Issue.place, rangeLane_eq]
  exact Nat.mod_lt _ (by decide)

/-- The group after an XPUT of register d. -/
def Issue.xput (j : Issue) (ys : List Src) (imm d : Nat) : Group :=
  j.g.putLanes (fun l => j.em.getLsbD (j.place ys imm l).2) (j.place ys imm) (fun l => j.g.vreg d l) (lanesOf j.em)

theorem execXput_ok {h : List Hint} {f : FmtI} {s : State} {i : Issue}
    (hi : Issues s h i (reservedSet 0x66 f.payload) { routed := true, srcs := f.one } false
      (i.g.rangeBad f.imm.toNat || i.g.srcBad f.d.toNat false) none) :
    let p := s.sampleClk i { routed := true, srcs := f.one }
    execXput h f s = .next (p.2.retire p.1 (p.1.xput f.one f.imm.toNat f.d.toNat) p.1.next false) := by
  rw [execXput]
  exact perform_ok (i := i) (by exact hi)

theorem Issue.vreg_xput_of_forall_ne (ht : t < 64) (h : ∀ l, l < 64 → j.em.getLsbD l = true → j.place ys imm l ≠ (r, t)) :
    (j.xput ys imm d).vreg r t = j.g.vreg r t :=
  Group.vreg_putLanes_of_forall_ne ht fun l hl _ =>
    have ⟨hlt, hm⟩ := (lanesOf_spec j.em l).mp hl
    h l hlt hm

theorem Issue.vreg_xput_inactive (ht : t < 64) (hm : j.em.getLsbD t = false) : (j.xput ys imm d).vreg r t = j.g.vreg r t := by
  refine Group.vreg_putLanes_of_forall_ne ht fun l _ hc hp => ?_
  rw [hp, hm] at hc
  exact Bool.false_ne_true hc

theorem Issue.vreg_xput_of_last (hl : l < 64) (hm : j.em.getLsbD l = true) (hc : j.em.getLsbD (j.place ys imm l).2 = true)
    (hr : (j.place ys imm l).1 ≠ 63) (h : ∀ k, l < k → k < 64 → j.em.getLsbD k = true → j.place ys imm k ≠ j.place ys imm l) :
    (j.xput ys imm d).vreg (j.place ys imm l).1 (j.place ys imm l).2 = j.g.vreg d l := by
  rw [Issue.xput, lanesOf_split hl hm]
  refine Group.vreg_putLanes_of_last (j.place_lane_lt ys imm l) hc hr fun k hk _ => ?_
  obtain ⟨hk, hmk⟩ := List.mem_filter.mp hk
  obtain ⟨hlk, hk⟩ := List.mem_range'_1.mp hk
  exact h k hlk (by omega) hmk

end Places

/-! ## The selected lanes (R166) -/
section Selected

variable {m q : DWord} {b : Bool} {n l : Nat}

/-- The active lanes that a predicate, inverted by b, selects. -/
theorem lanesOf_and_select : lanesOf (m &&& if b then ~~~q else q) = (List.range 64).filter fun l => m.getLsbD l && (q.getLsbD l != b) := by
  refine List.filter_congr fun l hl => ?_
  have hlt : l < 64 := by simpa [allLanes] using hl
  cases b <;> simp [hlt]

theorem getD_lanesOf_lt (m : DWord) (n : Nat) : (lanesOf m).getD n 0 < 64 := by
  rw [List.getD_eq_getElem?_getD]
  cases h : (lanesOf m)[n]? with
  | none => decide
  | some l => exact ((lanesOf_spec m l).mp (List.mem_of_getElem? h)).1

/-- The n lowest active lanes. -/
def lowestLanes (m : DWord) (n : Nat) : DWord := maskOf fun l => m.getLsbD l && decide ((lanesOf m).idxOf l < n)

theorem getLsbD_lowestLanes (hl : l < 64) : (lowestLanes m n).getLsbD l = (m.getLsbD l && decide (Claims.rankIn m l < n)) := by
  rw [lowestLanes, getLsbD_maskOf hl]
  by_cases hm : m.getLsbD l = true
  · rw [idxOf_lanesOf hl hm]
  · rw [eq_false_of_ne_true hm, Bool.false_and, Bool.false_and]

theorem active_of_lowestLanes (hl : l < 64) (h : (lowestLanes m n).getLsbD l = true) : m.getLsbD l = true := by
  rw [getLsbD_lowestLanes hl, Bool.and_eq_true] at h
  exact h.1

/-- A vector result in the lanes of a mask, by its values in those lanes. -/
theorem State.vec_ends {s : State} {i : Issue} (d : Nat) (wide : Bool) (m : DWord) {val val' : Nat → Nat}
    (h : ∀ l, l < 64 → m.getLsbD l = true → val l = val' l) :
    Claims.Ends (.next (s.vec i { d := d, wide := wide, m := m, val := val })) (i, s) (i.write d wide m val') i.next false := by
  refine ⟨_, rfl, ?_⟩
  rw [State.vec_plain, Issue.write_congr d wide m h]
  exact Retired.retire _ _ _

end Selected
end Sys2Proof.Machine

section
open Sys2Proof Sys2Proof.Machine

/-- Settles O11: a lane's place among the active lanes is its rank; the rows of BALANCE are disjoint; of the lanes that meet at a place
XPUT visits the highest last; COMPACT's result stands in as many of the lowest active lanes as are selected. -/
theorem laneExchange : Obligations.LaneExchange := by
  unfold Obligations.LaneExchange
  refine ⟨fun h f s i h1 h3 hq hi => ?qset, fun h f s i ha hi => ?qget, fun h f s i hi => ?matchL, fun h f s i hi => ?rank,
    fun h f s i hb hi => ?balance, fun h f s i hi _ => ?xsel, fun h f s i hi hbad => ?xput, fun h f s i hi => ?compact⟩
  case qset =>
    have hx : exec (.qset h f) s = execQset h f s := rfl
    have hsd : (f.sd == 0 || decide (4 ≤ f.sd.toNat)) = false := by
      have h0 : f.sd ≠ 0 := fun h0 => by simp [h0] at h1
      rw [beq_false_of_ne h0, decide_eq_false (Nat.not_le.mpr (Nat.lt_succ_of_le h3)), Bool.or_false]
    rw [hx, execQset, perform_ok (i := i) (by rwa [hq, hsd]), State.sampleClk_plain _ rfl]
    exact ⟨_, rfl, Retired.retire _ _ _⟩
  case qget =>
    have hx : exec (.qget h f) s = execQget h f s := rfl
    have hsa : decide (4 ≤ f.sa.toNat) = false := decide_eq_false (Nat.not_le.mpr ha)
    rw [hx, execQget, perform_ok (i := i) (by rwa [hsa]), State.sampleClk_plain _ rfl]
    exact ⟨_, rfl, Retired.retire _ _ _⟩
  case matchL =>
    have hx : exec (.matchL h f) s = execMatchL h f s := rfl
    rw [hx, execMatchL, simple_ok hi]
    refine ⟨_, State.vec_yields _ _ fun _ _ => rfl, fun l j hl hj => ?_⟩
    rw [getLsbD_maskOf hj, num_beq_num (widthOf_cases h) hj hl]
  case rank =>
    have hx : exec (.rank h f) s = execRank h f s := rfl
    rw [hx, execRank, simple_ok hi]
    refine State.vec_yields _ _ fun l hl => ?_
    rw [length_filter_below hl]
    refine List.countP_congr fun j hj => ?_
    rw [num_beq_num (widthOf_cases h) (Nat.lt_trans (List.mem_range.mp hj) hl) hl]
  case balance =>
    have hx : exec (.balance h f) s = execBalance h f s := rfl
    have hb' : (!((decide (72 ≤ f.b.toNat) && decide (f.b.toNat < 104)) || (decide (112 ≤ f.b.toNat) && decide (f.b.toNat < 120)))) = false := by
      simp only [← Bool.decide_and, ← Bool.decide_or, hb, decide_true, Bool.not_true]
    rw [hx, execBalance]
    dsimp only
    rw [perform_ok (i := i) (by rwa [hb'])]
    refine ⟨_, State.vec_yields _ _ fun _ _ => rfl, fun l hl hm => ?_⟩
    simp only [idxOf_lanesOf hl hm, Group.cursor, low_eq]
    rw [rowStarts_congr fun j hj => (toNat_num (.inl rfl) ((lanesOf_spec _ j).mp hj).1).symm]
    exact ⟨fun j hj hmj hlo hhi => balanceItem_of_inRow hj hmj ⟨hlo, hhi⟩, fun hno => balanceItem_of_not_inRow hno⟩
  case xsel =>
    have hx : exec (.xsel h f) s = execXsel h f s := rfl
    rw [hx, execXsel]
    dsimp only
    rw [perform_ok (i := i) (by exact hi)]
    refine State.vec_yields _ _ fun l hl => ?_
    simp only [rangeReg_eq, rangeLane_eq, fillOf_word, ← apply_ite BitVec.toNat, toNat_num (.inl rfl) hl]
    cases xrtcsOf h with
    | nil => rfl
    | cons w ws => simp [bits, Nat.shiftRight_eq_div_pow]
  case xput =>
    have hx : exec (.xput h f) s = execXput h f s := rfl
    rw [hx, execXput_ok hi]
    generalize s.sampleClk i _ = p
    refine ⟨_, ⟨_, rfl, Retired.retire _ _ _⟩, Group.putLanes_frame .., fun r t ht hne => ?_,
      fun r t ht hm => Issue.vreg_xput_inactive ht hm, fun l hl hm ht hr hlast => ?_⟩
    · refine Issue.vreg_xput_of_forall_ne ht fun l hl hm => ?_
      rw [Issue.place_eq hl]
      exact hne l hl hm
    · have last := Issue.vreg_xput_of_last (ys := f.one) (imm := f.imm.toNat) (d := f.d.toNat) hl hm
      rw [Issue.place_eq hl] at last
      refine last ht hr fun k hlk hk hmk => ?_
      rw [Issue.place_eq hk]
      exact hlast k hlk hk hmk
  case compact =>
    have hx : exec (.compact h f) s = execCompact h f s := rfl
    rw [hx, execCompact, simple_ok hi]
    generalize s.sampleClk i _ = p
    dsimp only
    rw [← lanesOf_and_select]
    generalize hjs : lanesOf (p.1.em &&& _) = js
    refine ⟨lowestLanes p.1.em js.length, fun l hl => getLsbD_lowestLanes hl, State.vec_ends _ _ _ fun l hl hm => ?_⟩
    have hactive := active_of_lowestLanes hl hm
    have hlt : js.getD (Claims.rankIn p.1.em l) 0 < 64 := hjs ▸ getD_lanesOf_lt _ _
    rw [idxOf_lanesOf hl hactive, toNat_num (widthOf_cases h) hlt, nth]

end
